-- ==== Sys2Proof/Word.lean ====
section
/-! DEFINITION. The word types of the MZ4880 model and their plainest arithmetic (R8: registers are 32-bit). -/

namespace Sys2Proof

/-- A register word (R8). -/
abbrev Word := BitVec 32

/-- One byte of a frame, record or buffer. -/
abbrev Byte := BitVec 8

/-- A byte string, first byte first. -/
abbrev Bytes := List Byte

end Sys2Proof
end

