-- ==== Sys2Proof/Syntax.lean ====
section
/-! DEFINITION. The commands of the block: one constructor of `Instr` for each row of spec/opcode_table.json,
in the table's order, and the measured quantities some of them carry. -/

namespace Sys2Proof

/-- The BARs that registers and doorbells stand in (R301). -/
inductive Bar where
  | bar0 | bar2
  deriving DecidableEq, Repr

/-- What the host has set in the function's configuration space: the codes of Max_Payload_Size and Max_Read_Request_Size
and the use of 10-bit tags (R300), and the Function Mask of MSI-X (R326). -/
structure PcieCtl where
  mps : Fin 8
  mrrs : Fin 8
  tag10 : Bool
  funcMask : Bool
  deriving DecidableEq, Repr

/-- The widths that the link trains at (R299). -/
inductive PcieWidth where
  | x1 | x2 | x4 | x8
  deriving DecidableEq, Repr

/-- The words of a trigger output that are staged while it runs (R74, R76). -/
inductive TtWord where
  | startNs | startSec | startHi | periodNs | periodFns | width | count | delay
  deriving DecidableEq, Repr

/-- The words of a service profile other than CTL (R247). -/
inductive ProfWord where
  | ntp | rdelay | rdisp | ip | ptp | ptpint | grant
  deriving DecidableEq, Repr

/-- A pause scope: one traffic class (PFC) or the whole port (Annex 31B) (R180). -/
inductive PauseScope where
  | cls (c : Fin 8)
  | port
  deriving DecidableEq, Repr

/-- The check result of a navigation unit (R137, R138). -/
inductive NavCheck where
  | pass | fail | none
  deriving DecidableEq, Repr

/-- What one satellite channel shows at a solution epoch (R136, R160). -/
structure ChanMeas where
  chan : Fin 128
  cn0 : BitVec 8          -- 0.25 dB-Hz
  elev : Int              -- degrees
  azim : Nat              -- degrees
  doppler : Int           -- mHz
  lost : Bool             -- the channel has lost its signal (R133)
  slot : Nat              -- GLONASS slot once decoded, else 0
  deriving DecidableEq, Repr

/-- A channel assignment that firmware makes (R135). -/
structure ChanAssign where
  chan : Fin 128
  signal : Fin 9
  sv : Nat
  elev : Int              -- degrees, as predicted
  deriving DecidableEq, Repr

/-- A satellite's ephemeris and clock data (R153, R157). -/
structure Eph where
  signal : Fin 9
  sv : Nat
  start : Nat             -- TAI seconds between which it is valid
  stop : Nat
  data : Bytes
  deriving DecidableEq, Repr

/-- A DSM-KROOT as firmware has put it together from E1 I/NAV (R149). -/
structure Kroot where
  p521 : Bool             -- signed with P-521
  keyId : Byte            -- type and number of the public key, as its Merkle leaf states them
  qx : BitVec 256         -- the P-256 public key
  qy : BitVec 256
  leaf : Fin 16           -- number of the key's leaf
  path : List Bytes       -- sibling nodes, leaf level first
  header : Bytes          -- what is signed before the root key
  root : Bytes            -- the root key
  gst : Nat               -- Galileo System Time of the root key, seconds
  alpha : Bytes           -- the chain's random pattern
  sha3 : Bool             -- SHA3-256 in place of SHA-256
  cmac : Bool             -- CMAC-AES in place of HMAC-SHA-256
  tagBits : Nat
  r : BitVec 256          -- the signature
  s : BitVec 256
  deriving DecidableEq, Repr

/-- A TESLA key that the chain has disclosed, with its Galileo System Time in seconds (R149). -/
structure TeslaKey where
  gst : Nat
  key : Bytes
  deriving DecidableEq, Repr

/-- A tag with the message that it authenticates, of the satellite E sv (R149). -/
structure OsnmaTag where
  sv : Fin 40
  msg : Bytes
  tag : Nat
  deriving DecidableEq, Repr

/-- The inter-system offset of one system pair as an epoch finds it (R144, R145). -/
structure IstoMeas where
  bcastAvail : Bool
  bcast : Int             -- 1/16 ns
  est : Int               -- 1/16 ns
  sigma : Nat             -- ns
  deriving DecidableEq, Repr

/-- What the position and time solution of one epoch yields (R139 to R144). -/
structure Solution where
  solved : Bool           -- enough geometry for a solution
  chans : List ChanMeas
  assigns : List ChanAssign
  maxResidual : Nat       -- metres, largest residual of a used satellite
  timeUnc : Nat           -- ns, dual-frequency
  ionoUnc : Nat           -- ns, added when single-frequency (R142)
  posErr : Nat            -- metres, implied by the 60 s residual average (R141)
  posX : Int              -- mm
  posY : Int
  posZ : Int
  meanStd : Nat           -- mm, 3D standard deviation of the survey mean (R140)
  svinSecs : Nat          -- seconds of survey-in elapsed
  posUnc : Nat            -- metres, uncertainty of the position (R153)
  eph : List Eph          -- ephemerides decoded since the last epoch
  almanac : Option Bytes  -- a newly decoded almanac
  iono : Option Bytes     -- newly decoded ionosphere parameters
  utc : Option Bytes      -- newly decoded UTC parameters
  startUnc : Nat          -- seconds, uncertainty of the baseband's time (R150)
  keys : List TeslaKey    -- OSNMA keys and tags received since the last epoch (R149)
  tags : List OsnmaTag
  isto : List IstoMeas    -- Galileo, BeiDou, GLONASS, QZSS against GPS
  deriving DecidableEq, Repr

/-- The content of a per-second GNSS message that the solution supplies (R148). -/
structure PpsMeas where
  taiSec : Nat
  edge0 : Nat             -- 1/16 ns from the true instant to the next rising edge of GN_IF0_CLK
  edge1 : Nat             -- the same of GN_IF1_CLK
  utcOfs : Int
  leapAt : Option Nat     -- UTC second that ends the month of the broadcast leap event (R148)
  leapBack : Bool         -- the event removes a second
  late : Bool             -- late to REF (R147)
  sinceStart : Nat        -- ms since the start, for the first message (R154)
  deriving DecidableEq, Repr

/-- How one copy of a record was programmed (R382): the pages that failed verify after three retries, whose blocks
retire, and the retries of the page that holds the copy in the end. -/
structure CopyProg where
  failed : Nat
  retries : Fin 4
  deriving DecidableEq, Repr

/-- How a segment commit was programmed (R376, R382), and a system block that failed while the tables were (R364). -/
structure ProgResult where
  copy1 : CopyProg
  copy2 : CopyProg
  copy3 : CopyProg
  sysFail : Option (Fin 8)
  deriving DecidableEq, Repr

/-- What the signature check of an image finds (R388): whether the vendor's Ed25519 signature verifies, and the key under
which the image carries a valid countersignature (log entry 120). -/
structure ImageCheck where
  vendor : Bool
  counter : Option Bytes
  deriving DecidableEq, Repr

/-- What the boot ROM and the march test find at a start (R388, R470, R499). -/
structure StartEnv where
  loSel : BitVec 2        -- straps LO_SEL (R450)
  qspi4b : Bool           -- strap QSPI_4B (R525)
  image0 : ImageCheck     -- the image of slot 0 (R388)
  image1 : ImageCheck
  pfailLow : Bool         -- PFAIL_N asserted when supplies come up (R521)
  failRows : List (Nat × Nat × Nat) -- (sub-array, failing rows, failing spare rows) of the march test
  convertFail : List (Fin 16) -- classes a TRIAL image cannot convert (R394)
  temp : Int              -- first temperature reading, 0.01 degC (R116)
  restoreMs : Nat         -- ms from the origin to RESTORED
  katOk : Bool            -- DRBG known-answer test (R352)
  srcRct : BitVec 4       -- sources failing the repetition count test at start-up (R351, R352)
  srcApt : BitVec 4       -- sources failing the adaptive proportion test
  deriving DecidableEq, Repr

/-- A two-way exchange over a lane, stamps in 1/16 ns (R406). -/
structure Exchange where
  t1 : Int
  t2 : Int
  t3 : Int
  t4 : Int
  deriving DecidableEq, Repr

/-- The Brim lane end. -/
inductive BrimSide where
  | east | west
  deriving DecidableEq, Repr

/-- The lanes that run two-way exchanges (R406, R421). -/
inductive XLane where
  | east | west | mit
  deriving DecidableEq, Repr

/-- What the other devices pull low on DISC during a pass of the search (R409): in START, in the quarter of each ID bit,
in VERIFY. -/
structure DiscPulls where
  start : Bool
  bits : BitVec 64
  verify : Bool
  deriving DecidableEq, Repr

/-- A class-0 control message on the ring (R415). A break names the device at its BRIM_E end and the one at its BRIM_W
end. -/
inductive CtrlMsg where
  | leaderChange (leader : Fin 8)
  | ringBreak (eastEnd westEnd : BitVec 64)
  | takeover
  deriving DecidableEq, Repr

/-- A Mitten pairing message (R419). -/
structure PairMsg where
  pairId : BitVec 32
  active : Bool           -- ACTIVE or ACTIVE_ALONE
  serving : Bool
  since : Nat             -- instant of entry to the serving state, ns
  preferActive : Bool
  brimId : BitVec 64
  pub : Bytes             -- its part of the X25519 exchange (R419)
  signed : Bool           -- its identity key's signature over that part verifies (log entry 121)
  deriving DecidableEq, Repr

/-- How a board-control transaction ended (R436, R438). -/
inductive BusEnd where
  | whole                 -- the transaction ended on a word boundary
  | partialWord           -- it ended inside a word
  | waitClocks            -- SPI READ: it ended inside the wait clocks
  | extraClocks (n : Nat) -- that many clocks after the last word
  deriving DecidableEq, Repr

/-- How an I2C controller transfer ended (R442 to R444). -/
inductive I2cEnd where
  | ok (rx : Bytes)
  | nackAddr
  | nackData
  | arbLost
  | sdaStuck (pulses : Fin 10) -- SDA is high again, or not, after that many SCL pulses
  deriving DecidableEq, Repr

/-- The planner units (R463). -/
inductive PwrUnit where
  | lane (k : Fin 16)
  | nts (k : Fin 8)
  | pke (k : Fin 12)
  | sched
  | gnBank (k : Fin 8)
  | lp (j : Fin 16)
  | brimE | brimW | mit
  deriving DecidableEq, Repr

/-- The clock domains with a glitch-free mux. -/
inductive Domain where
  | core | tbclk | pke | ctrl
  deriving DecidableEq, Repr

/-- A record class of the Loam store that firmware commits, and its segment (R365, R375). -/
structure SegId where
  cls : Fin 16
  seg : Fin 32
  deriving DecidableEq, Repr

/-- A mirrored record on the Mitten lane (R420): class, segment and payload words. -/
structure MirrorRec where
  cls : Fin 16
  seg : Fin 32
  words : List (Nat × Word)   -- CFG: register address and value
  keys : List (Nat × Nat × Nat × Nat) -- KEYS: id, key, born, state code per slot
  csig : Option Bytes         -- KEYS: the countersignature key (R365)
  deriving DecidableEq, Repr

/-- The commands, one for each row of the table. -/
inductive Instr where
  | registerWrite (bar : Bar) (addr : Nat) (value : Word)
  | bar0BadAccess (bar : Bar) (write : Bool)
  | frameReceived (j : Fin 16) (frame : Bytes) (ago : Nat) (hostOk : Bool)
  | laneAccept (lane : Fin 16)
  | laneReplyDone (lane : Fin 16)
  | lpTxStart (j : Fin 16)
  | lpTxEnd (j : Fin 16)
  | launchInstant (j : Fin 16)
  | taiSecondBoundary
  | ppsOutFall
  | servoUpdate
  | tbDcoLoWrite (value : Word)
  | tbDcoHiWrite (value : Word)
  | setTime (alsoStepNow : Bool)
  | stepNow (alsoSetTime : Bool)
  | restep
  | forceInvalid (hold : Bool)
  | tbNowRead
  | leapApply
  | tbLeapExpired
  | ttOutEnable (n : Fin 16) (ctl : Word)
  | ttOutStagedWrite (n : Fin 16) (w : TtWord) (value : Word)
  | ttOutUpdate (n : Fin 16)
  | ttPulseFire (n : Fin 16)
  | ttPulseEnd (n : Fin 16)
  | ttCapture (m : Fin 16) (rising : Bool) (sub : Fin 32)
  | refFreqGate (i : Fin 2) (ppb : Option Int)
  | ppsEdge (input : Fin 2) (sub : Fin 32)
  | missingSecond (i : Fin 3)
  | refPairCompare
  | lorternoMessage (input : Fin 2) (msg : Bytes)
  | lorternoByteGap (input : Fin 2)
  | lorternoWindowTimeout (input : Fin 2)
  | refEsmcTimeout (k : Fin 2)
  | rspPtpAnnTimeout
  | refEvaluate (freqs : List Int)
  | dpllAcquireLock (d : Fin 3)
  | dpllNarrowDone (d : Fin 3)
  | dplLockloss (d : Fin 3)
  | holdoverSteer (temp : Int)
  | hoErrUpdate (temp : Int)
  | histSample (freq : Int) (temp : Int)
  | histCommitDue
  | gnIfMeasure (b : Fin 2) (hz : Nat)
  | gnIfClockStop (b : Fin 2)
  | gnIfRestored (b : Fin 2)
  | gnFeGo
  | gnFeTransferDone (rx : Bytes)
  | gnFeScriptEnd
  | gnSearchDone (c : Fin 128) (found : Option Int)
  | gnChannelIdle (c : Fin 128)
  | gnNavUnit (c : Fin 128) (bits : List Bool) (starts : List Nat)
  | gnEpoch (sol : Solution)
  | gnIstoReport
  | gnPpsMessage (m : PpsMeas)
  | gnRawPps (sub : Fin 32)
  | gnKrootReceived (k : Kroot)
  | gnKrootVerified
  | gnOsnmaReport
  | gnStartHot
  | gnStartWarm
  | gnStartCold
  | gnSleep
  | gnWake
  | gnSleepRefresh
  | gnRefreshDone
  | gnRecordCommit
  | lpLinkUp (j : Fin 16) (sgmii : Fin 3)
  | lpLinkDown (j : Fin 16) (remoteFault : Bool)
  | lpFecTryTimeout (j : Fin 16)
  | lpFecResolved (j : Fin 16) (fec : BitVec 2)
  | lpModeWrite (n : Fin 4) (value : Word)
  | lpSpeedFecWrite (j : Fin 16) (value : Word)
  | lpPortDisable (j : Fin 16)
  | lpPortEnable (j : Fin 16)
  | lpFecUncorr (j : Fin 16)
  | pauseExpired (j : Fin 16) (sc : PauseScope)
  | lpPauseStorm (j : Fin 16) (sc : PauseScope)
  | lpPauseResume (j : Fin 16) (sc : PauseScope)
  | pfcRepeat (j : Fin 16) (c : Fin 8)
  | lpHoldExpired (j : Fin 16)
  | mgFrameReceived (frame : Bytes) (hostOk : Bool)
  | mgWakeStatusWrite (value : Word)
  | mgLink (up : Bool) (speed : BitVec 2)
  | mgPauseStorm
  | mgTrafficInterval (bits : Nat) (i2cOk : Bool)
  | tsRegionReport (temps : List Int) (supplies : List Nat)
  | tsRestored (j : Fin 16)
  | tsCalClear
  | tsCalSumRead
  | tsCalEntryExpire (seq : BitVec 16)
  | rspRuleStage (r : Fin 256) (mask : Bool) (value : Word)
  | rspRuleApply (r : Fin 256) (value : Word)
  | rspProfileStage (p : Fin 64) (w : ProfWord) (value : Word)
  | rspProfileApply (p : Fin 64) (value : Word)
  | ntpBroadcastSlot (p : Fin 64)
  | ptpSyncSlot (p : Fin 64) (j : Fin 16)
  | ptpAnnounceSlot (p : Fin 64) (j : Fin 16)
  | ptpFollowUp (j : Fin 16)
  | pdelayRespFollowUp (j : Fin 16)
  | grantSlot (g : Fin 4096)
  | grantExpired (g : Fin 4096)
  | ptpDelayReqSlot
  | rspLaneFault (lane : Fin 16)
  | rspLaneRetest (lanes : BitVec 16)
  | rspLaneTestDone (lane : Fin 16) (pass : Bool)
  | ntsRotationDue
  | ntsKeyDrawn
  | ntsKeysCommitted (ok : Bool)
  | ntsMirrorWaitExpired
  | ntsRotationRetry
  | rotateNow
  | authNew
  | acceptPrev
  | restorePeer (rec : MirrorRec)
  | ntsKeyCmdInvalid (code : BitVec 3)
  | mint (r : Fin 256) (buf : Option Bytes) (writeOk : Bool)
  | gntRekey
  | gntKeyDrawn
  | gntSweep
  | gntPolicyWrite (k : Fin 64) (value : Word)
  | gntAmpCfgWrite (j : Fin 16) (value : Word)
  | gntSampleSecond
  | hifProdWrite (r : Fin 256) (value : Word)
  | hifConsWrite (r : Fin 256) (value : Word)
  | hifDescFetch (r : Fin 256) (desc : Bytes) (data : Option Bytes)
  | hifRingEnable (r : Fin 256) (cfg : Word)
  | hifRingDisable (r : Fin 256)
  | hifRingStopped (r : Fin 256)
  | hifDmaFail (r : Fin 256) (onFetch : Bool)
  | msixTimer (v : Fin 64)
  | msixUnmask (v : Fin 64)
  | hifFlr
  | hifPcieLinkDown
  | hifPcieLink (speed : Fin 5) (width : PcieWidth) (ctl : PcieCtl)
  | modAdd (core : Fin 12)
  | modSub (core : Fin 12)
  | modMul (core : Fin 12)
  | modInv (core : Fin 12)
  | modExp (core : Fin 12)
  | ecdsaSign (core : Fin 12)
  | ecdsaVerify (core : Fin 12)
  | ed25519Sign (core : Fin 12)
  | ed25519Verify (core : Fin 12)
  | x25519 (core : Fin 12)
  | rsaPriv (core : Fin 12)
  | rsaPub (core : Fin 12)
  | keyImport (core : Fin 12)
  | keyWrap (core : Fin 12)
  | keygen (core : Fin 12)
  | keyErase (core : Fin 12)
  | random (r : Fin 256) (writeOk : Bool)
  | pkeUnknownOpcode (core : Fin 12)
  | pkeDispatch
  | pkeDrawDone (r : Fin 256)
  | pkeYield (core : Fin 12) (coreTime : Nat)
  | pkeJobDone (core : Fin 12) (parityError : Bool) (writeOk : Bool) (coreTime : Nat)
  | pkeCoreRetest (cores : BitVec 12)
  | pkeCoreTestDone (core : Fin 12) (pass : Bool)
  | pkeAbort (r : Fin 16)
  | wrapLock
  | randomWaitExpired (r : Fin 256)
  | entReady
  | entSourceFail (s : Fin 4) (rct apt : Bool)
  | entSourceRecover (s : Fin 4)
  | entReseedDue
  | reseedNow
  | entReseedDone
  | entBlocked
  | loamCommit (r : Fin 256)
  | loamRead (r : Fin 256) (writeOk : Bool)
  | fwWrite (r : Fin 256) (image : Option Bytes)
  | fwActivate (r : Fin 256) (image : ImageCheck)
  | fwCommit (r : Fin 256)
  | fwRollback (r : Fin 256) (env : StartEnv)
  | csigSet (r : Fin 256) (key : Option Bytes)
  | wipe (r : Fin 256)
  | loamUnknownOpcode (r : Fin 256)
  | loamFirmwareCommit (sid : SegId) (payload : Bytes)
  | loamCommitStart
  | loamSegmentDone (res : ProgResult)
  | loamRewrite
  | loamPfail
  | pfailRelease
  | pfailHoldoffEnd
  | loamWearMove
  | vbatLoss
  | fwTrialMinute
  | brimEnable
  | brimResearch
  | brimPresence
  | brimPresencePulseEnd
  | brimSearchStart
  | brimSearchPass (others : DiscPulls) (east west : List (BitVec 64)) (ms : Nat)
  | brimLaneUp (x : BrimSide)
  | brimLaneDown (x : BrimSide)
  | brimExchange (x : XLane) (e : Exchange) (beyond : Option Int)
  | brimElection (eqls : List (Fin 16)) (eligible : List Bool)
  | brimTokenArrive (side : BrimSide) (seq : BitVec 16) (rotNs : Nat)
  | brimTokenRegen
  | brimControlMessage (m : CtrlMsg)
  | brimMsgSend (r : Fin 256) (data : Option Bytes)
  | brimMsgReceive (r : Fin 256) (src : Fin 8) (data : Bytes) (hostOk : Bool)
  | mitMsgSend (r : Fin 256) (data : Option Bytes)
  | mitMsgReceive (r : Fin 256) (data : Bytes) (hostOk : Bool)
  | brimAlignLoss
  | mitLaneUp
  | mitLaneDown
  | mitPairingMessage (m : PairMsg)
  | mitPairingTimeout
  | mitHeartbeatSend
  | mitInbandSend
  | mitHeartbeatRx (inband : Bool) (serving : Bool) (since : Nat)
  | mitHeartbeatMissed
  | mitInbandSilent
  | mitLastGaspRx
  | mitMirrorReceive (rec : MirrorRec) (serial : Nat) (tag : Bytes)
  | mitMirrorAck (sid : SegId) (serial : Nat)
  | mitWitnessAlive
  | mitWitnessExpired
  | relinquish
  | mitTakeoverNotice
  | spiWrite (instr : Byte) (addr : BitVec 24) (words : List Word) (fin : BusEnd)
  | spiRead (instr : Byte) (addr : BitVec 24) (shifted : Nat) (fin : BusEnd)
  | spiBadInstr (instr : Byte)
  | i2ctWrite (target : BitVec 7) (addr : Bytes) (words : List Word) (fin : BusEnd)
  | i2ctRead (target : BitVec 7) (addr : BitVec 24) (shifted : Nat) (fin : BusEnd)
  | bcpMboxToBcWrite (value : Word)
  | bcpMboxFromBcRead
  | xramAccess (offset : Nat) (width : Nat) (write : Option Word)
  | bcpI2cGo (c : Fin 2)
  | bcpI2cDone (c : Fin 2) (e : I2cEnd)
  | bcpI2cRetry (c : Fin 2)
  | bcpI2cTimeout (c : Fin 2)
  | bcpDiscStuck
  | clkXtalLost
  | clkLoinLost
  | clkFreqCheck (lo xtal sds : Int)
  | unifiedReq
  | clkReturn
  | clkMuxRescue (d : Domain)
  | pwrIdlePark (u : PwrUnit) (idle : Nat)
  | pwrScheduledWake (u : PwrUnit) (late : Bool)
  | pwrDemandWake (u : PwrUnit) (late : Bool)
  | pwrLaneWake (lanes : Nat)
  | pwrLanePark (lanes : Nat)
  | mbtRun (mode : Bool) (alg : BitVec 2)
  | mbtDone (failRows : Nat)
  | siltWindowEnd (i : Fin 384)
  | evtAlarmAck (value : Word)
  | dropCounterClear (addr : Nat)
  | statCounterRead (bar : Bar) (addr : Nat)
  | pmcClear (k : Fin 64)
  | clearAll
  | freeze (on : Bool)
  | pmcCtlWrite (k : Fin 64) (value : Word)
  | pmcLoRead (k : Fin 64)
  | pmcWrap (k : Fin 64) (n : Nat)
  | por (env : StartEnv)
  | resetPin
  | chip (env : StartEnv)
  | warm (env : StartEnv)
  | ctrl (env : StartEnv)
  | pke
  | ctrlWatchdog (env : StartEnv)
  | perst
  | deferredResetAct (env : StartEnv)
  | supplyLoss
  | lorternoFramingError (input : Fin 2)
  | gnPullInDone (c : Fin 128)
  | mgPauseHoldEnd
  | esmcPduSend
  | spiHdrShort
  | resetNRelease (env : StartEnv)
  | brimDisable
  | mitEnable
  | mitDisable
  | vbatLow (low : Bool)
  deriving DecidableEq, Repr

end Sys2Proof
end

