-- ==== Sys2Proof/Config.lean ====
section
/-! DEFINITION. What an implementation fixes, and the free values: constants without a body, which no proof can
evaluate. Each is named in a row of notes/assumptions. -/

namespace Sys2Proof.Config

/-- Random bytes: the k-th byte that the DRBG delivers (R353; free value, log entry 10). -/
opaque drbgByte : Nat → Byte

/-- The lane that the hash of source address and source UDP port names among n lanes (R242 names no hash; free
value, log entry 11). -/
opaque laneHash : Bytes → Nat → Nat

/-- The byte string over which the bucket hash of R285 runs: policy, family (4, 6, or 0 for layer 2) and masked
source (the spec names the three inputs and no serialisation; free value, log entry 18). -/
opaque sipInput : Nat → Nat → Bytes → Bytes

/-- The 32-bit fingerprint of a source in a sampled bucket (R295 names no function; free value, log entry 18). -/
opaque fingerprint : Bytes → Nat

/-- Whether the packet buffer has space for a frame of the class: port, class, bytes of the class in use, length
(R177 gives no division of the buffer; free value, log entry 12). -/
opaque classRoom : Nat → Nat → Nat → Nat → Bool

/-- Whether the lane input has room, given the number of requests waiting (R177; free value, log entry 12). -/
opaque laneInputRoom : Nat → Bool

/-- The fused internal delay in 1/16 ns of logical port, direction (true = transmit), speed code and FEC code
(R196; fused, free value, log entry 13). -/
opaque fusedDelay : Nat → Bool → Nat → Nat → Int

/-- Terms of the variable compensation in 1/16 ns (R199; free values, log entry 13): the receive skew of a physical lane at
an alignment lock; the position in the codeword and in the block by port, direction and draw index. -/
opaque laneSkew : Nat → Nat → Int
opaque codewordPos : Nat → Bool → Nat → Int
opaque blockPos : Nat → Bool → Nat → Int

/-- The physical lane, of the four of a 100G port, that carries a stamp point: port, direction, draw index (R199). -/
opaque stampLane : Nat → Bool → Nat → Nat

/-- The fused temperature coefficient of a physical lane in ps/K, by direction, and the fused calibration temperature of a
region in 0.01 K (R199; fused, free values, log entry 13). -/
opaque tempCoeff : Nat → Bool → Int
opaque calTemp : Nat → Int

/-- Where a launch frame's start position falls after its instant, in 1/16 ns: port, draw index (R175; free value, log entry 13, within
one start position). -/
opaque startSlack : Nat → Nat → Nat

/-- Whether the PHY's I2C transfers succeed at a tick (R189; free value, log entry 41). -/
opaque phyAcks : Nat → Bool

/-- Bits of the PHY's Clause 22 register 9 beside the 1000BASE-T advertisement (R189; free value, log entry 41). -/
opaque phyReg9 : Nat → BitVec 16

/-- The word that a colliding exchange-RAM read returns (R441: undefined data; free value, log entry 14). -/
opaque xramUndefined : Nat → Word

/-- Whether a write to a host buffer sets Relaxed Ordering, by tick (R300 rules it out for completions and MSI-X alone; free
value, log entry 98). -/
opaque relaxedWrite : Nat → Bool

/-- The ticks that a CTRL restart takes, by the tick at which it starts (R17 gives no length; free value, log entry 99). -/
opaque ctrlRestartTicks : Nat → Nat

/-- The words of the PCIe configuration space that the spec does not give, by dword (R299; free value, log entry 98). -/
opaque pcieConfig : Nat → BitVec 32

/-- Bytes of a host buffer whose write failed (R277, R335; free value, log entry 14). -/
opaque bufferUndefined : Nat → Byte

/-- The frequency of a DPLL output against LO_IN in ppt while it follows an input: DPLL and tick (R112; measured in
the analogue loop, free value, log entry 17). -/
opaque dpllFreq : Nat → Nat → Int

/-- The phase error of a DPLL in 1/16 ns: DPLL and tick (R112; free value, log entry 17). -/
opaque dpllPhase : Nat → Nat → Int

/-- The phase difference in 1/16 ns between the new and the old input of a DPLL at a switch: DPLL, new input and tick
(R110; free value, log entry 17). -/
opaque phaseDifference : Nat → Nat → Nat → Int

/-- The fitted oscillator model that firmware draws from the samples: one coefficient per index 0 to 8
(R118 names no fit; free value, log entry 15). -/
opaque histFit : List (Nat × Int × Int) → Nat → Int

/-- The reference ID that the Brim leader or the Mitten active unit serves, by tick (R229; the spec gives no path by
which it reaches the device; free value, log entry 19). -/
opaque peerRefId : Nat → Word

/-- How many of the three copies of the segment commit in progress are whole when the supplies are lost, by tick
(R376: the cut may come at any instant; free value, log entry 23). -/
opaque cutCopies : Nat → Nat

/-- RSP_GRANT_DATA0 to 3 by word: R247 lists what they hold of the selected entry without places. The bytes are the
entry's port, profile, type, log interval, seconds to its expiry and peer (free value, log entry 24). -/
opaque grantWord : Nat → Bytes → Word

/-- The phase between DPLL0 and the root divider below 1/16 ns, in 2^-64 ns, that stays in the counter at a change of
mode, and its sign (R454): by tick and direction. -/
opaque muxPhase : Nat → Bool → BitVec 60
opaque muxPhaseNeg : Nat → Bool → Bool

end Sys2Proof.Config
end

