-- ==== Sys2Proof/Machine/State.lean ====
section
/-! DEFINITION. The state of the block: every register, queue, counter, mode and pin of the spec, as plain data,
and `State.reset`. Instants: the counter is in units of 2^-64 ns since the PTP epoch (R36, R37), stamps (`t16`) in
1/16 ns. -/

namespace Sys2Proof.Machine

/-- A sparse table: rising keys, no entry equal to the default of its key. -/
abbrev Tab (α : Type) := List (Nat × α)

/-- Why the machine stops with a fault. -/
inductive Fault where
  /-- Raised by REGISTER_WRITE, DROP_COUNTER_CLEAR and STAT_COUNTER_READ: the address lies outside the 32 MiB window
  of BAR0 (R301, R509), which no access of the host can name. Safe. -/
  | bar0Outside
  /-- Raised by XRAM_ACCESS: the offset lies outside the 64 KiB window of BAR4 (R301, R515). Safe. -/
  | bar4Outside
  deriving DecidableEq, Repr

/-- Why the model refuses a command. -/
inductive Refusal where
  /-- Raised by a dispatch arm of a command that has no meaning yet. Safe. -/
  | notModelled (mnemonic : String)
  deriving DecidableEq, Repr

/-- One request to host memory (R300). -/
structure Tlp where
  addr : Nat
  len : Nat
  relaxed : Bool            -- Relaxed Ordering
  deriving DecidableEq, Repr

/-- What the block sends out, for an observer (the model's own record of its outputs, log entry 4). -/
inductive Out where
  /-- A whole frame left logical port `port` (16 = MG), FCS included. -/
  | frame (port : Nat) (bytes : Bytes)
  /-- A completion of ring `ring`: index, status, phase, 24 body bytes, and the request that writes it. -/
  | completion (ring idx status : Nat) (phase : Bool) (body : Bytes) (tlp : Tlp)
  /-- Bytes written to a host buffer by a list of requests. -/
  | hostWrite (ring idx : Nat) (tlps : List Tlp) (bytes : Bytes)
  /-- Host memory read by a list of requests, with 10-bit tags or without. -/
  | hostRead (ring idx : Nat) (tlps : List Tlp) (tag10 : Bool)
  /-- An MSI-X message of vector `v`: its request and data word. -/
  | msix (v : Nat) (tlp : Tlp) (data : Word)
  /-- A word returned to a reader (0 BAR0, 2 BAR2, 4 BAR4, 5 SPI, 6 I2C target). -/
  | readData (path : Nat) (value : Word)
  /-- Bytes sent on the GNSS front-end SPI. -/
  | feSpi (bytes : Bytes)
  /-- A transfer on I2C controller `c`: address, bytes written, number of bytes read, and the SPEED code. -/
  | i2c (c addr : Nat) (bytes : Bytes) (rlen speed : Nat)
  /-- Controller `c` clears its bus: that many SCL pulses, then a STOP (R444). -/
  | i2cClear (c pulses : Nat)
  /-- Bytes of 1s on MISO of the SPI target: the wait clocks, and the clocks after the last word (R435, R436). -/
  | miso (bytes : Bytes)
  /-- A message on the Mitten lane. -/
  | mitten (kind : Nat)
  /-- A record mirrored on the Mitten lane: its number, content, and bytes sealed with AES-256-GCM (R419, R420). -/
  | mirror (serial : Nat) (rec : MirrorRec) (sealed : Bytes)
  /-- The acknowledgement of a mirrored record. -/
  | mirrorAck (cls seg serial : Nat)
  /-- The pairing message: what the unit says of itself, its part of the X25519 exchange, and its signature (R419). -/
  | pairing (pairId : Word) (active serving : Bool) (since : Nat) (prefer : Bool) (brimId : BitVec 64) (pub sig : Bytes)
  /-- A control message on the Brim ring, both ways (1 leader change, 2 break, 5 takeover), or a message on the Mitten
  lane (4). -/
  | brim (kind : Nat) (bytes : Bytes)
  /-- A host message on the management channel, to a member or to all (15). -/
  | brimMsg (dest : Nat) (bytes : Bytes)
  /-- The management token is passed on, by BRIM_E or by BRIM_W. -/
  | brimToken (east : Bool) (seq : BitVec 16)
  /-- A DISC presence pulse starts (R410). -/
  | discPulse
  /-- The GNSS raw PPS edge (R146). -/
  | rawPps
  deriving DecidableEq, Repr

/-- Fused values (R3, R247, R285, R340, R427, R429). -/
structure Fuse where
  variant : BitVec 2
  port23Absent : Bool
  gnssAbsent : Bool
  clockId : BitVec 64
  brimId : BitVec 64
  unitMac : BitVec 48
  gntKey : BitVec 128
  deviceKey : BitVec 256
  identityKey : BitVec 256  -- Ed25519 seed of the unit (R419)
  deriving DecidableEq, Repr

/-- A change of the counter that takes effect at the next tick (R46, R52). -/
inductive NextStep where
  | load (counter : Nat)
  | add (t16 : Int)
  deriving DecidableEq, Repr

/-- A leap, with its instant in UTC seconds and the offsets before and after (R57). -/
structure Leap where
  at_ : Nat
  old : Int
  new : Int
  deriving DecidableEq, Repr

/-- TB: timescale and servo (R36 to R68). -/
structure Tb where
  counter : Nat
  ticks : Nat
  dco : Int
  dcoLo : Option Word
  dcoNext : Option Int
  stepNext : Option NextStep
  integ : Int               -- 2^-24 ppb
  offset : Int              -- TB_OFFSET, ns
  timeValid : Bool
  everValid : Bool
  forceInvalid : Bool
  stepArmed : Bool
  holdover : Bool
  good : Nat
  bad : Nat
  stepCnt : BitVec 8
  anchorNs : Nat
  anchorSec : Nat
  anchorStep : BitVec 8
  nowLatch : Nat
  ppsOut : Bool
  flagLeap : Option Leap    -- leap scheduled by flags (R59)
  lastLeap : Option Leap    -- leap whose offset was applied last
  leapExpired : Bool
  mismatch : Tab Nat        -- candidate to tick of its last TB_UTCOFS_MISMATCH
  lastUpdate : Nat          -- instant of the last update with a selection (R229)
  deriving DecidableEq, Repr

/-- A trigger output (R69 to R79). Instants in 2^-16 ns. -/
structure TtOut where
  running : Bool
  next : Int                -- nominal instant of the next pulse, before DELAY
  lastFired : Option Int
  pulse : Bool              -- a pulse is in progress
  emitted : Nat
  staged : List (TtWord × Word)
  update : Bool             -- staged values apply after the next pulse
  startKept : List (TtWord × Word)
  seq : Nat
  dropped : Nat
  deriving DecidableEq, Repr

/-- A capture input (R75 to R79). -/
structure TtIn where
  last : Option Nat         -- previous captured edge, elapsed 1/16 ns
  stamp : Nat               -- latest capture minus DELAY, t16
  count : Nat
  seq : Nat
  dropped : Nat
  deriving DecidableEq, Repr

/-- Role states (R103, R120). -/
inductive RoleState where
  | absent | disqualified | qualifying | qualified
  deriving DecidableEq, Repr

/-- A received Lorterno message waiting to be judged (R96, R97). -/
structure LorMsg where
  fin : Nat                 -- instant of the end of its stop bit, t16
  bytes : Bytes
  deriving DecidableEq, Repr

/-- One PPS input (R99, R100). Instants in 1/16 ns. -/
structure PpsIn where
  expected : Option Nat
  recent : List Nat         -- edges of the last 1 s + 1 µs before an acquisition
  accepted : Option Nat     -- edge accepted in the current second
  missRun : Nat
  outRun : List Nat         -- out-of-window edges of consecutive seconds
  outSeen : Bool            -- the current second had an out-of-window edge
  msgs : List LorMsg
  rx : Bytes                -- a Lorterno message in progress, from its sync pair on (R537)
  deriving DecidableEq, Repr

/-- A reference candidate (R80 to R105). -/
structure Cand where
  presTime : Bool
  presFreq : Bool
  rxql : Nat
  raw : Nat
  srcClass : Nat
  tod : Bool
  traceable : Bool
  lastSec : Option Nat      -- TAI second of the last valid message
  noMsg : Nat               -- consecutive seconds without a valid message
  goodT : Nat
  goodF : Nat
  stT : RoleState
  stF : RoleState
  outT : Bool               -- outvoted in the time role (raised once per change)
  outF : Bool
  offset : Int              -- 1/16 ns
  fresh : Bool              -- a new offset since the previous update
  sum : Int                 -- offsets since the previous update (R85)
  cnt : Nat
  freq : Int                -- ppt, 16 s average
  leap61 : Bool
  leap59 : Bool
  utcOfs : Option Int
  osnma : Bool
  deriving DecidableEq, Repr

/-- REF (R80 to R109). -/
structure Ref where
  cands : Tab Cand
  pps : Tab PpsIn
  tsel : Nat                -- 7 = none
  lastSel : Nat             -- last candidate selected (R229)
  everSel : Bool
  bo : Int                  -- build-out, 1/16 ps (R109)
  pairAgree : Nat
  pairDisc : Bool
  deriving DecidableEq, Repr

/-- DPLL states (R112, R122). -/
inductive DpllState where
  | freerun | acquire | narrow | track | holdover
  deriving DecidableEq, Repr

/-- One Kaolin DPLL. -/
structure Dpll where
  st : DpllState
  sel : Nat
  freq : Int                -- ppt
  bo : Int                  -- held build-out, 1/16 ns
  excl : List (Nat × Nat)   -- candidates excluded after lock loss, with the seconds qualified since (R113)
  hist : List Int           -- frequency of each past second, newest first
  fEntry : Int              -- frequency at holdover entry (R117)
  deriving DecidableEq, Repr

/-- The HIST model in the units of R122. -/
structure HistModel where
  f0 : Int
  age : Int
  tc1 : Int
  tc2 : Int
  t0 : Int
  sigF : Int
  sigA : Int
  sigT : Int
  th : Nat
  deriving DecidableEq, Repr

/-- DPL (R110 to R119). -/
structure Dpl where
  d : Tab Dpll
  model : Option HistModel
  samples : List (Nat × Int × Int) -- TAI second, frequency, temperature; newest first
  hoErr : Nat
  hoT : Nat
  e0 : Nat
  tEntry : Int              -- temperature at the time selector's entry
  d0Sec : Nat               -- TAI second of DPLL0's entry to holdover (R117)
  d0Temp : Int
  temp : Int
  preload : Int
  deriving DecidableEq, Repr

/-- Channel states (R133). -/
inductive ChState where
  | idle | search | pullIn | track | lost
  deriving DecidableEq, Repr

/-- A GNSS channel. -/
structure Chan where
  st : ChState
  signal : Nat              -- firmware's assignment while MANUAL = 0
  sv : Nat
  used : Bool
  auth : Bool
  narrow : Bool
  spacing : Nat             -- 1/320 chip between early and late (R134)
  cn0 : BitVec 8
  slot : Nat
  doppler : Int
  elev : Int
  azim : Nat
  deriving DecidableEq, Repr

/-- A GNSS band (R129). -/
structure Band where
  lost : Bool
  meas : Nat                -- Hz
  deriving DecidableEq, Repr

/-- Front-end script sections (R131). -/
inductive Section where
  | init | sleep | wake
  deriving DecidableEq, Repr

/-- The inter-system offset state of a pair (R144, R145). -/
structure Isto where
  bcastAvail : Bool
  estAvail : Bool
  applEst : Bool
  avail : Bool
  bcast : Int
  est : Int
  sigma : Nat
  stamp : Nat
  deriving DecidableEq, Repr

/-- OSNMA states (R150). -/
inductive Osnma where
  | off | noRoot | timeUncertain | krootWait | auth | fail | unsupported
  deriving DecidableEq, Repr

/-- Start types (R153, R158). -/
inductive StartType where
  | none | hot | warm | cold
  deriving DecidableEq, Repr

/-- The TESLA chain of a verified root key: its newest verified key (R149). -/
structure Chain where
  key : Bytes
  gst : Nat
  alpha : Bytes
  sha3 : Bool
  cmac : Bool
  tagBits : Nat
  deriving DecidableEq, Repr

/-- The content of the GNSS record (R157); the almanacs are a class of their own. -/
structure GnRec where
  eph : List Eph
  pos : Option (Int × Int × Int)  -- mm
  posUnc : Nat              -- m
  iono : Bytes
  utc : Bytes
  isto : List (Option Int)  -- broadcast offsets by pair
  rootKey : Bytes           -- the last verified OSNMA root key
  deriving DecidableEq, Repr

/-- GN (R125 to R161). -/
structure Gn where
  bands : Tab Band
  chans : Tab Chan
  feBusy : Bool
  feScript : Option Section
  feHeld : Bool
  feRx : Bytes
  valid : Bool
  integrity : Bool
  posMismatch : Bool
  sats : Nat
  timeUnc : Nat
  singleFreq : Bool
  svinRunning : Bool
  ephChanged : Bool
  sound : Bool              -- the conditions of integrity other than OSNMA's hold at the latest epoch (R142)
  noPos : Bool              -- a cold start has discarded the kept position (R154)
  startUnc : Nat
  isto : Tab Isto
  osnma : Osnma
  osnmaCause : Nat
  authSats : Nat            -- bitmap E01 to E40
  kroot : Option Kroot      -- the DSM-KROOT under verification
  krootResult : Option Nat  -- RESULT of its PKE job
  chain : Option Chain
  kept : GnRec              -- what the GNSS record is written from (R157)
  almanac : Bytes
  lastCommit : Option Nat   -- tick of the record's last commit
  startType : StartType
  startWait : Bool          -- no valid message yet since the start
  startMs : Nat
  sleeping : Bool
  ppsSeq : Nat
  msg : Option (Nat × Int)  -- TAI second and correction of the next edge, received by REF
  msgSeen : Bool            -- the present second's message has come in time
  refreshing : Bool
  deriving DecidableEq, Repr

/-- What TS writes into a departing frame (R206). -/
inductive Insert where
  | none
  | ntp (off : Nat) (smear : Bool) (trailer : Option Nat)  -- offset of the Transmit Timestamp
  | syncOne (body : Nat) (trailer : Option Nat)            -- offset of the PTP message
  | pdelayOne (body : Nat) (t2 : Nat) (trailer : Option Nat)
  | syncTwo (prof stream seq : Nat)                        -- stamp to the scheduler
  | pdelayTwo (frame : Bytes) (t2 : Nat) (prof : Nat)      -- stamp to the lane; the request frame
  | delayReq                                             -- stamp to the time-receiver port (R239)
  deriving DecidableEq, Repr

/-- The kinds of reply that lanes build (R227, R231, R240, R256, R260, R261). -/
inductive RepKind where
  | served | unsync | kodRate | ptp | addr | nts | ntsn | ntsRate
  deriving DecidableEq, Repr

/-- Where a queued frame comes from. -/
inductive TxSrc where
  | host (ring idx : Nat) (stamp : Bool) (words : List Word)
  | reply (kind : RepKind)
  | sched
  | device                  -- ESMC and in-band frames, in their class's queue
  | pause                   -- PFC frames, ahead of the queues (R181)
  deriving DecidableEq, Repr

/-- A frame in a transmit queue, FCS not included. -/
structure TxItem where
  cls : Nat
  frame : Bytes
  src : TxSrc
  launch : Option Nat       -- egress stamp at or after, t16
  tol : Nat                 -- ns
  ins : Insert
  req : Nat                 -- receive stamp of the request, t16
  stamp : Nat               -- egress stamp once in transmission, t16
  deriving DecidableEq, Repr

/-- A logical port (R162 to R184). -/
structure LpPort where
  up : Bool
  holding : Bool
  everUp : Bool             -- the link has come up since start, enable or retrain
  fecTry : Nat              -- index in the AUTO order
  fecActive : Nat           -- LSTATUS encoding
  fecKept : Bool
  localFault : Bool
  remoteFault : Bool
  sgmii : Nat
  queue : List TxItem       -- all classes, oldest first
  sending : Option TxItem
  pauseCls : BitVec 8
  pausePort : Bool
  stormCls : BitVec 8
  stormPort : Bool
  occ : Tab Nat             -- receive bytes in use per class
  xoff : BitVec 8
  pauseDue : List (Nat × Nat) -- scopes (class, or 8 for the port) and quanta that wait for the frame being sent (R179)
  pauseEnd : Tab Nat        -- scope to the tick at which its pause time ends (R179)
  locks : Nat               -- alignment locks so far (R199)
  hostHeld : List (Nat × Nat) -- class and bytes of frames that leave the packet buffer at the next tick
  deriving DecidableEq, Repr

/-- MG (R185 to R189). -/
structure Mg where
  up : Bool
  speed : Nat
  queue : List TxItem
  sending : Option TxItem
  paused : Bool
  storm : Bool
  pauseEnd : Nat            -- tick at which the pause time ends
  lowSecs : Nat
  holdOff : Nat
  lowered : Bool
  deriving DecidableEq, Repr

/-- A timestamp unit (R199 to R202). -/
structure TsPort where
  degraded : Bool
  compTx : Int
  compRx : Int
  deriving DecidableEq, Repr

/-- TS (R194 to R216). -/
structure Ts where
  ports : Tab TsPort
  temps : List Int
  volts : List Nat
  cal : List (Nat × Nat)    -- sequence number, transmit stamp t16; oldest first
  calSum : Int
  calCount : Nat
  sumHi : Word              -- latch of R204
  draws : Nat
  deriving DecidableEq, Repr

/-- The words of a service profile. -/
structure Prof where
  ctl : Word
  ntp : Word
  rdelay : Word
  rdisp : Word
  ip : Word
  ptp : Word
  ptpint : Word
  grant : Word
  deriving DecidableEq, Repr

/-- A request that has passed stage 5, waiting for a lane or in one. -/
structure Req where
  j : Nat
  cls : Nat
  prof : Nat
  frame : Bytes             -- FCS not included
  stamp : Nat               -- receive stamp, t16
  kod : Bool
  deriving DecidableEq, Repr

/-- Key slot states (R264, R279). -/
inductive SlotState where
  | empty | current | accepted | pending
  deriving DecidableEq, Repr

/-- A KEYS slot (R264). -/
structure KeySlot where
  st : SlotState
  id : Word
  key : Bytes
  born : Nat
  deriving DecidableEq, Repr

/-- What NTS verification leaves for the reply (R252 to R260). -/
inductive NtsJob where
  | plain                               -- not an NTS request
  | seal (keys uid : Bytes) (n : Nat) (cur : KeySlot)
                                        -- verified: both keys, Unique Identifier field, cookies, the CURRENT generation
  | ntsn (uid : Bytes)                  -- KoD NTSN
  deriving DecidableEq, Repr

/-- A request in a lane, with what was sampled when its reply was started (R19, R221, R228, R255). -/
structure Job where
  req : Req
  tv : Bool
  prof : Prof
  hdr : Bytes               -- the NTP header, built when the reply starts; the transmit field is still 0
  nts : NtsJob
  deriving DecidableEq, Repr

/-- A responder lane (R242 to R244). -/
structure Lane where
  faulty : Bool
  testing : Bool
  jobs : List Job           -- oldest first, at most 8 (R242)
  deriving DecidableEq, Repr

/-- A unicast grant (R235). -/
structure Grant where
  live : Bool
  j : Nat
  prof : Nat
  peer : Bytes              -- destination address bytes: MAC then IP
  typ : Nat                 -- message type: 0 Sync, 9 Delay_Resp, 11 Announce
  log : Int
  expiry : Nat              -- TAI second
  deriving DecidableEq, Repr

/-- A foreign grandmaster (R238). -/
structure Foreign where
  port : Bytes              -- sourcePortIdentity, 10 bytes
  dataset : Bytes
  clockClass : Nat
  seen : Nat                -- Announce messages in a row, each within 4 announce intervals of the one before
  last : Nat                -- tick of the latest
  window : Nat              -- 4 announce intervals in ticks
  addr : Bytes
  utcOfs : Int
  leap61 : Bool
  leap59 : Bool
  deriving DecidableEq, Repr

/-- The delay exchange of the time-receiver port (R239), stamps in 1/16 ns. -/
structure PtpRx where
  syncT2 : Option Nat
  syncT1 : Option Nat
  syncCorr : Int
  syncSeq : Nat
  reqT3 : Option Nat
  reqSeq : Nat
  mpd : Option Int          -- meanPathDelay, 1/16 ns
  pdT4 : Option Nat         -- ingress of a Pdelay_Resp that awaits its Follow_Up
  pdT2 : Int
  pdCorr : Int
  deriving DecidableEq, Repr

/-- RSP (R217 to R250). -/
structure Rsp where
  ruleStage : Tab Word      -- 2 r for KEY, 2 r + 1 for MASK
  profStage : Tab (Nat × Word)
  waiting : List Req
  lanes : Tab Lane
  grants : Tab Grant
  foreign : List Foreign
  fsel : Option Nat
  rx : PtpRx
  syncSent : List (Nat × Nat × Nat × Nat × Nat)  -- port, profile, stream, sequenceId, egress stamp: Follow_Up due
  pdelaySent : List (Nat × Bytes × Nat × Nat × Nat)  -- port, request, t2, t3, profile: Follow_Up due
  seqs : Tab Nat            -- sequenceId per scheduled stream
  serving : Bool
  deriving DecidableEq, Repr

/-- Where a rotation stands (R266). -/
inductive RotPhase where
  | idle | draw | commit | mirror
  deriving DecidableEq, Repr

/-- A key command waiting for a rotation to end (R269), or running. -/
inductive KeyCmd where
  | rotateNow | authNew | acceptPrev | restorePeer (rec : MirrorRec)
  | invalid                 -- any other code, refused in its turn
  deriving DecidableEq, Repr

/-- NTS (R251 to R281). -/
structure Nts where
  slots : Tab KeySlot
  committed : Tab KeySlot   -- slot states of the record of step 3
  phase : RotPhase
  cmd : Option KeyCmd       -- the command that the rotation serves
  first : Bool              -- the generation being made is a first one
  held : List (Option KeyCmd) -- held rotations (none) and key commands
  dueHeld : Bool            -- a due rotation waits for TIME_VALID
  retry : Bool
  result : Nat
  busy : Bool
  conflict : Bool
  stale : Bool
  waitSerial : Nat          -- number of the mirrored record that step 4 waits for (R266)
  staleDown : Bool          -- a takeover with a stale mirror keeps NTS down (R424)
  pool : Nat
  poolEmpty : Bool
  servedOnce : Bool
  serving : Bool
  deriving DecidableEq, Repr

/-- GNT (R282 to R298). -/
structure Gnt where
  buckets : Tab (Nat × Nat) -- tokens, stamp
  fill : List (Nat × Nat × Nat × Nat) -- segments of the buckets that are not listed: from, to, tokens, stamp
  key : BitVec 128
  drbgKey : Bool
  rekey : Bool
  samples : Tab (Nat × Nat) -- fingerprint, TAI second of the last access
  occ : Nat
  kodWin : Tab (Nat × Nat)  -- port to TAI ms, replies
  addrWin : Tab (Nat × Nat)
  credit : Tab Nat
  filtSec : Tab Nat         -- filter to TAI second of its last event, plus 1
  deriving DecidableEq, Repr

/-- Ring states (R321, R330). -/
inductive RingState where
  | disabled | running | stopping | error
  deriving DecidableEq, Repr

/-- A completion that waits for its turn or for space (R308, R320). -/
structure Compl where
  idx : Nat
  status : Nat
  body : Bytes
  deriving DecidableEq, Repr

/-- A fetched descriptor that is not yet in use (R307). -/
structure Fetched where
  idx : Nat
  desc : Bytes
  data : Option Bytes
  tick : Nat
  token : Bool              -- its commit has its token (R375)
  deriving DecidableEq, Repr

/-- A ring pair (R303 to R323). -/
structure Ring where
  st : RingState
  cause : Nat
  p : BitVec 16
  f : BitVec 16
  q : BitVec 16
  c : BitVec 16
  phase : Bool
  armed : Bool
  fetched : List Fetched
  compl : List Compl
  deriving DecidableEq, Repr

/-- An MSI-X vector (R325, R326). -/
structure Vec where
  pending : Bool
  since : Nat               -- tick
  count : Nat
  pba : Bool
  deriving DecidableEq, Repr

/-- HIF (R299 to R331). -/
structure Hif where
  rings : Tab Ring
  vecs : Tab Vec
  linkUp : Bool
  speed : Nat
  width : Nat
  mps : Nat                 -- Max_Payload_Size in bytes, as honoured (R300)
  mrrs : Nat                -- Max_Read_Request_Size in bytes, as honoured
  tag10 : Bool
  funcMask : Bool           -- MSI-X Function Mask (R326)
  userSeq : Nat
  deriving DecidableEq, Repr

/-- Job stages of the PKE (R338, R347). -/
inductive PkeStage where
  | draw | ready | running (core : Nat)
  deriving DecidableEq, Repr

/-- A PKE job (R332 to R348). -/
structure PkeJob where
  ring : Nat
  idx : Nat
  desc : Bytes
  input : Option Bytes
  stage : PkeStage
  yielded : Bool
  abort : Bool
  slotKey : Bytes           -- copied when it starts (R342)
  rand : Nat                -- index of its random values
  core : Nat                -- the core it took last, 0xFF none (R335)
  time : Nat                -- core time used before its last yield, 0.1 us (R335)
  result : Nat
  output : Bytes
  faulty : Bool
  waited : Bool             -- its wait at the draw has been counted (R361)
  deriving DecidableEq, Repr

/-- A PKE core. -/
structure Core where
  faulty : Bool
  testing : Bool
  deriving DecidableEq, Repr

/-- PKE (R332 to R358). -/
structure Pke where
  slots : Tab Bytes         -- header and key material, empty = no key
  jobs : List PkeJob
  cores : Tab Core
  turnInt : Nat
  turnBulk : Nat
  wrapLock : Bool
  held : Bool               -- dispatch held by the memory test (R471)
  deriving DecidableEq, Repr

/-- ENT (R350 to R356). -/
structure Ent where
  started : Bool
  ready : Bool
  servingOld : Bool
  blocked : Bool
  katFail : Bool
  startFail : Bool
  failing : BitVec 4
  good : Tab (Nat × Nat)    -- good samples in a row, and the tick of that count
  reqs : Nat
  seedTick : Nat
  reseeding : Bool
  refused : Bool            -- a refusal since the last successful seed
  reseedNow : Bool
  drawn : Nat               -- random bytes delivered, index of `Config.drbgByte`
  deriving DecidableEq, Repr

/-- The payload of a Loam record (R365). -/
inductive Payload where
  | words (ws : List (Nat × Word))          -- CFG, TIME: register address and value
  | keys (slots : List (Nat × KeySlot)) (csig : Option Bytes)
  | hist (m : HistModel)
  | fwmeta (slot0 slot1 attempts elapsed trialStart : Nat) (schemas : List Nat)
  | gnss (r : GnRec)
  | bytes (b : Bytes)
  deriving DecidableEq, Repr

/-- One copy of a record in the array (R365, R366). -/
structure Copy where
  cls : Nat
  seg : Nat
  copy : Nat                -- 1 to 3
  gen : Nat
  schema : Nat
  line : Nat
  flags : Nat
  written : Nat
  page : Nat
  intact : Bool
  payload : Payload
  deriving DecidableEq, Repr

/-- Verdicts (R370, R401). -/
inductive Verdict where
  | absent | intact | repaired | single | rolledBack | conflicted | lost | unreadable | evicted
  deriving DecidableEq, Repr

/-- Why a commit was requested. -/
inductive CommitBy where
  | host (ring idx : Nat) (tag : Word) (op : Nat)
  | firmware | rewrite | pfail | keyRotation
  | mirror (serial : Nat)   -- the partner's record of that number (R420)
  | trial                   -- the log of a rollback (R396)
  deriving DecidableEq, Repr

/-- A requested commit: the class and the segments still to write (R373, R374). -/
structure Commit where
  by_ : CommitBy
  cls : Nat
  segs : List Nat
  payload : Option Payload  -- given at the request; none = the running values at start
  deriving DecidableEq, Repr

/-- The segment commit in progress (R376). -/
structure CurCommit where
  req : Commit
  seg : Nat
  gen : Nat
  payload : Payload
  rest : List (Nat × Payload) -- the segments still to write, with their snapshots (R374)
  written : Nat             -- segments written so far
  lastGen : Nat             -- generation of the last segment written
  deriving DecidableEq, Repr

/-- Firmware slot states (R390, R402). -/
inductive FwState where
  | empty | valid | pending | trial | committed | rejected
  deriving DecidableEq, Repr

/-- The tables of the system blocks (R364): the directory, the retired blocks, the page program counts and the
countersignature flag. -/
structure Tables where
  gen : Nat
  dir : List (Nat × Nat)
  retired : List Nat
  pgm : Tab Nat
  csigFlag : Bool
  deriving DecidableEq, Repr

/-- LOAM and firmware slots (R362 to R403). -/
structure Loam where
  copies : List Copy
  dir : List (Nat × Nat)
  csigFlag : Bool
  queue : List Commit
  cur : Option CurCommit
  tokens : Tab (Nat × Nat)  -- class to tokens in ticks of refill, tick of last use
  st : Nat
  spares : Nat
  sys : Tab Tables          -- the copies 1 to 3 of the tables that are left
  sysHome : Tab Nat         -- system block in use to the copy that it holds
  sysRetired : List Nat
  retired : List Nat
  evicted : List Nat
  pgm : Tab Nat
  pfail : Bool
  holdoff : Bool
  restored : Bool
  repair : List (Nat × Nat)
  verdict : Tab Verdict
  copiesAt : Tab Nat
  genUse : Tab Nat
  recUse : Tab Payload
  lineUse : Tab Nat
  prevKeys : Option Payload -- the agreeing previous KEYS record (R271)
  rtcBase : Nat             -- the RTC at `rtcTick`, in 1/32,768 s
  rtcTick : Nat
  rtcValid : Bool
  rtcAlign : Nat
  vbatLow : Bool
  vbatGone : Bool           -- VBAT was lost while the supplies stood
  rtcLost : Bool            -- both supplies were lost: LOAM_RTC_INVALID at the next start (R385)
  flash : Tab Byte          -- boot flash: image slot 0 then slot 1 (R388)
  slot0 : FwState
  slot1 : FwState
  runSlot : Nat
  runState : Nat
  attempts : Nat
  elapsed : Nat
  trialStart : Nat          -- TAI second of the RTC at which the trial started (R396)
  oldSlot : Option Nat      -- the slot that FW_COMMIT replaced, until it is rewritten (R395)
  csig : Option Bytes
  unreadable : BitVec 16
  deriving DecidableEq, Repr

/-- BRIM states (R428). -/
inductive BrimState where
  | off | search | ring | line | alone
  deriving DecidableEq, Repr

/-- A host message that waits for the token (R413, R417). -/
structure BrimTx where
  ring : Nat
  idx : Nat
  dest : Nat
  body : Bytes              -- of its completion
  data : Bytes
  deriving DecidableEq, Repr

/-- BRIM (R404 to R417). -/
structure Brim where
  st : BrimState
  en : Bool
  members : List (BitVec 64)
  prev : List (BitVec 64)
  eqls : List Nat
  leader : Option Nat       -- member number
  winner : Option Nat
  streak : Nat
  upE : Bool
  upW : Bool
  east : List (BitVec 64)   -- the members that BRIM_E reaches, nearest first
  west : List (BitVec 64)   -- the same for BRIM_W
  txq : List BrimTx
  delayE : Int
  delayW : Int
  hopE : Int
  hopW : Int
  offset : Int              -- 1/16 ns
  fresh : Bool
  tokenSeq : BitVec 16
  token : Bool              -- the token is known alive
  rotNs : Nat
  enumMs : Nat
  found : List (BitVec 64)
  searching : Bool
  discPulse : Bool
  discStuck : Bool
  restoreDue : Bool         -- the next RING restores a broken ring
  leadNew : Bool            -- the leader has changed: the next ring offset is judged by R108
  deriving DecidableEq, Repr

/-- MIT states (R418, R430). -/
inductive MitState where
  | solo | pairing | active | activeAlone | standby | ready | isolated
  deriving DecidableEq, Repr

/-- A mirrored record that the partner has not acknowledged; `late`: NTS_MIRROR_WAIT has passed (R420, R431). -/
structure MirrorOut where
  cls : Nat
  seg : Nat
  serial : Nat
  late : Bool
  deriving DecidableEq, Repr

/-- MIT (R418 to R425). -/
structure Mit where
  st : MitState
  en : Bool
  linkUp : Bool
  inbandUp : Bool
  witness : Bool
  since : Nat               -- entry to the serving state, ns
  serving : Bool            -- the unit served before it began to pair (R418)
  peerId : BitVec 64
  offset : Int
  delay : Int
  lock : Nat                -- consecutive updates within 2 ns (R421)
  lastTakeover : Nat
  toMirror : List MirrorOut -- mirrored records not yet acknowledged
  serial : Nat              -- number of the next mirrored record
  keysSerial : Nat          -- number of the current KEYS record
  eph : Bytes               -- the unit's secret of the X25519 exchange
  pairKey : Option Bytes    -- the pair key (R419)
  wasDown : Bool            -- the lane has gone down since it was enabled
  relinquish : Bool
  paired : Bool             -- roles have been assigned since pairing was enabled: a Mitten pair (R266, R418)
  gotMirror : List (Nat × Nat) -- a standby's mirrored segments that it has committed since it became one (R420)
  deriving DecidableEq, Repr

/-- The last access of one side of the exchange RAM (R441). -/
structure XAcc where
  word : Nat
  write : Bool
  tick : Nat
  data : Option Nat         -- of a read: the place of its data among the outputs, oldest first
  deriving DecidableEq, Repr

/-- An I2C controller (R442 to R444). -/
structure I2c where
  busy : Bool
  status : Nat
  tries : Nat
  waiting : Bool            -- waits for a free bus after lost arbitration
  rx : Bytes
  fw : List (Nat × Bytes × Nat) -- firmware's transfers that wait for the running one: address, bytes, bytes to read
  deriving DecidableEq, Repr

/-- BCP (R432 to R449). -/
structure Bcp where
  xram : Tab Byte
  mboxIn : Word
  mboxOut : Word
  inFull : Bool
  outFull : Bool
  collide : Bool
  busy : Bool               -- the BCP_BUSY pin (R441)
  lastBc : List XAcc        -- accesses of the last 8 CTRL cycles
  lastPcie : List XAcc
  i2c : Tab I2c
  deriving DecidableEq, Repr

/-- Where a domain clock comes from: the selections of R452 and the internal oscillator; `stopped`: its clock is lost
(R456); `hungMain`, `hungRoot`, `hungOsc`: a switch to that selection hangs and the mux watchdog is to force it;
`stuck`: the switch hung without the watchdog, and the domain stays stopped until a reset that reaches CLK (R458). -/
inductive ClkSrc where
  | main | root | osc | stopped | hungMain | hungRoot | hungOsc | stuck
  deriving DecidableEq, Repr

/-- The domain's clock runs. -/
def clkRuns (x : ClkSrc) : Bool := decide (x = .main ∨ x = .root ∨ x = .osc)

/-- CLK, PWR and MBT (R450 to R476). -/
structure Clk where
  xtal : Bool
  loin : Bool
  xtalTick : Nat            -- since when CORE_XTAL is present and in agreement
  loinTick : Nat            -- the same for LO_IN
  unified : Bool
  core : ClkSrc
  tbclk : ClkSrc
  pke : ClkSrc
  ctrl : ClkSrc
  loSel : BitVec 2
  units : Tab Nat           -- planner unit to power state code
  mbtRun : Bool
  mbtMode : Bool
  mbtPass : Bool
  mbtFail : Nat
  mbtRepaired : Nat
  mbtUnrep : Nat
  bufLost : Nat             -- packet-buffer sub-arrays withdrawn
  noPke : Bool              -- PKE and ENT not started (R470)
  deriving DecidableEq, Repr

/-- The Silt window of a source (R481). -/
structure Silt where
  summary : Bool
  win : Bool                -- a window is open
  start : Nat               -- tick
  raises : Nat
  undelivered : Nat
  deriving DecidableEq, Repr

/-- The pending count of a source (R483). -/
structure Pend where
  n : Nat
  first : Nat
  last : Nat
  deriving DecidableEq, Repr

/-- An alarm-table entry (R484). -/
structure Alarm where
  used : Bool
  id : Nat
  sev : Nat
  active : Bool
  unack : Bool
  count : Nat
  mask : Word
  first : Nat               -- counter instants
  last : Nat
  deriving DecidableEq, Repr

/-- EVT (R479 to R493). -/
structure Evt where
  silt : Tab Silt
  pend : Tab Pend
  ringDrop : Tab Nat        -- dropped or coalesced since the previous delivered record
  coal : Tab Bool           -- the ring is coalescing
  alarms : Tab Alarm
  lim : Tab Nat             -- limiter to tick of its previous raise, plus 1
  traceDue : Bool           -- a TRACE commit is due (R486)
  ovfDue : Nat              -- PMC_OVF raises that wait for the next tick (R490; log entry 129)
  run : Tab (Nat × Nat)     -- event ring to a tick and the event records written in it, no others since (R479)
  recent : Tab (List Bytes) -- event ring to its last 64 records, newest first (R486)
  deriving DecidableEq, Repr

/-- A performance counter (R490, R494). -/
structure PmcCnt where
  val : BitVec 48
  ovf : Bool
  hi : Word
  deriving DecidableEq, Repr

/-- A reset that waits for the commit in progress (R497). -/
inductive Deferred where
  | chip | warm (esc : Bool) (rollback : Bool)
  deriving DecidableEq, Repr

/-- GLB: reset and recovery (R495 to R508). -/
structure Glb where
  powered : Bool
  resetHeld : Bool
  step : Nat
  restoreMs : Nat
  recovery : Nat
  failCause : Nat
  failN : Bool              -- FAIL_N asserted
  ctrlTicks : List Nat
  escTicks : List Nat
  deferred : Option Deferred
  ctrlUntil : Nat           -- tick until which a CTRL restart runs; 0 while none runs (R17)
  qspi4b : Bool             -- strap QSPI_4B as sampled: the boot flash takes 4-byte addresses (R523, R525)
  deriving DecidableEq, Repr

/-- The state of the block. -/
structure State where
  pending : List Instr
  out : List Out
  fuse : Fuse
  regs : Tab Word           -- registers whose content is stored, by BAR0 address
  stat : Tab (BitVec 64)    -- statistics counters, by address of the low word
  statHi : Tab Word         -- high-word latches by block base (R488)
  glb : Glb
  tb : Tb
  ttOut : Tab TtOut
  ttIn : Tab TtIn
  ref : Ref
  dpl : Dpl
  gn : Gn
  lp : Tab LpPort
  mg : Mg
  ts : Ts
  rsp : Rsp
  nts : Nts
  gnt : Gnt
  hif : Hif
  pke : Pke
  ent : Ent
  loam : Loam
  brim : Brim
  mit : Mit
  bcp : Bcp
  clk : Clk
  evt : Evt
  pmc : Tab PmcCnt
  deriving DecidableEq, Repr

def Fuse.cold : Fuse :=
  { variant := 0, port23Absent := false, gnssAbsent := false, clockId := 0, brimId := 0, unitMac := 0,
    gntKey := 0, deviceKey := 0, identityKey := 0 }

def Tb.cold : Tb :=
  { counter := 0, ticks := 0, dco := 0, dcoLo := none, dcoNext := none, stepNext := none, integ := 0, offset := 0,
    timeValid := false, everValid := false, forceInvalid := false, stepArmed := true, holdover := false, good := 0,
    bad := 0, stepCnt := 0, anchorNs := 0, anchorSec := 0, anchorStep := 0, nowLatch := 0, ppsOut := false,
    flagLeap := none, lastLeap := none, leapExpired := false, mismatch := [], lastUpdate := 0 }

def TtOut.cold : TtOut :=
  { running := false, next := 0, lastFired := none, pulse := false, emitted := 0, staged := [], update := false,
    startKept := [], seq := 0, dropped := 0 }

def TtIn.cold : TtIn := { last := none, stamp := 0, count := 0, seq := 0, dropped := 0 }

def PpsIn.cold : PpsIn :=
  { expected := none, recent := [], accepted := none, missRun := 0, outRun := [], outSeen := false, msgs := [],
    rx := [] }

def Cand.cold : Cand :=
  { presTime := false, presFreq := false, rxql := 15, raw := 0, srcClass := 0, tod := false, traceable := false,
    lastSec := none, noMsg := 0, goodT := 0, goodF := 0, stT := .absent, stF := .absent, outT := false,
    outF := false, offset := 0, fresh := false, sum := 0, cnt := 0, freq := 0, leap61 := false, leap59 := false,
    utcOfs := none, osnma := false }

def Ref.cold : Ref :=
  { cands := [], pps := [], tsel := 7, lastSel := 7, everSel := false, bo := 0, pairAgree := 0, pairDisc := false }

def Dpll.cold : Dpll :=
  { st := .freerun, sel := 7, freq := 0, bo := 0, excl := [], hist := [], fEntry := 0 }

def Dpl.cold : Dpl :=
  { d := [], model := none, samples := [], hoErr := 0xFFFFFFFF, hoT := 0, e0 := 0, tEntry := 0,
    d0Sec := 0, d0Temp := 0, temp := 0, preload := 0 }

def Chan.cold : Chan :=
  { st := .idle, signal := 0, sv := 0, used := false, auth := false, narrow := false, spacing := 320,
    cn0 := 0, slot := 0,
    doppler := 0, elev := 0, azim := 0 }

def Band.cold : Band := { lost := false, meas := 0 }

def Isto.cold : Isto :=
  { bcastAvail := false, estAvail := false, applEst := false, avail := false, bcast := 0, est := 0, sigma := 0,
    stamp := 0 }

/-- A GNSS record with nothing in it. -/
def GnRec.none : GnRec :=
  { eph := [], pos := Option.none, posUnc := 0, iono := [], utc := [], isto := [], rootKey := [] }

def Gn.cold : Gn :=
  { bands := [], chans := [], feBusy := false, feScript := none, feHeld := false, feRx := [], valid := false,
    integrity := false, posMismatch := false, sats := 0, timeUnc := 0, singleFreq := false, svinRunning := false,
    ephChanged := false, sound := false, noPos := false, startUnc := 0, isto := [], osnma := .off, osnmaCause := 0, authSats := 0,
    kroot := none, krootResult := none, chain := none, kept := GnRec.none, almanac := [], lastCommit := none,
    startType := .none, startWait := false, startMs := 0, sleeping := false, ppsSeq := 0,
    msg := none, msgSeen := false, refreshing := false }

def LpPort.cold : LpPort :=
  { up := false, holding := false, everUp := false, fecTry := 0, fecActive := 3, fecKept := false,
    localFault := false, remoteFault := false, sgmii := 0, hostHeld := [], queue := [], sending := none, pauseCls := 0,
    pausePort := false, stormCls := 0, stormPort := false, occ := [], xoff := 0, pauseDue := [], pauseEnd := [], locks := 0 }

def Mg.cold : Mg :=
  { up := false, speed := 0, queue := [], sending := none, paused := false, storm := false, pauseEnd := 0, lowSecs := 0,
    holdOff := 0, lowered := false }

def TsPort.cold : TsPort := { degraded := false, compTx := 0, compRx := 0 }

def Ts.cold : Ts :=
  { ports := [], temps := [], volts := [], cal := [], calSum := 0, calCount := 0, sumHi := 0, draws := 0 }

def Lane.cold : Lane := { faulty := false, testing := false, jobs := [] }

def Grant.cold : Grant := { live := false, j := 0, prof := 0, peer := [], typ := 0, log := 0, expiry := 0 }

def PtpRx.cold : PtpRx :=
  { syncT2 := none, syncT1 := none, syncCorr := 0, syncSeq := 0, reqT3 := none, reqSeq := 0, mpd := none,
    pdT4 := none, pdT2 := 0, pdCorr := 0 }

def Rsp.cold : Rsp :=
  { ruleStage := [], profStage := [], waiting := [], lanes := [], grants := [], foreign := [], fsel := none,
    rx := PtpRx.cold, syncSent := [], pdelaySent := [], seqs := [], serving := false }

def KeySlot.cold : KeySlot := { st := .empty, id := 0, key := [], born := 0 }

def Nts.cold : Nts :=
  { slots := [], committed := [], phase := .idle, cmd := none, first := false, held := [], dueHeld := false,
    retry := false, result := 0, busy := false, conflict := false, stale := false, waitSerial := 0, staleDown := false, pool := 0, poolEmpty := true,
    servedOnce := false, serving := false }

def Gnt.cold : Gnt :=
  { buckets := [], fill := [(0, 4194304, 8192, 0)], key := 0, drbgKey := false, rekey := false, samples := [], occ := 0, kodWin := [],
    addrWin := [], credit := [], filtSec := [] }

def Ring.cold : Ring :=
  { st := .disabled, cause := 0, p := 0, f := 0, q := 0, c := 0, phase := true, armed := false, fetched := [],
    compl := [] }

def Vec.cold : Vec := { pending := false, since := 0, count := 0, pba := false }

def Hif.cold : Hif :=
  { rings := [], vecs := [], linkUp := false, speed := 0, width := 0, mps := 128, mrrs := 512, tag10 := false, funcMask := false, userSeq := 0 }

def Core.cold : Core := { faulty := false, testing := false }

def Pke.cold : Pke :=
  { slots := [], jobs := [], cores := [], turnInt := 0, turnBulk := 0, wrapLock := false, held := false }

def Ent.cold : Ent :=
  { started := false, ready := false, servingOld := false, blocked := false, katFail := false, startFail := false,
    failing := 0, good := [], reqs := 0, seedTick := 0, reseeding := false, refused := false, reseedNow := false,
    drawn := 0 }

def Tables.cold : Tables := { gen := 0, dir := [], retired := [], pgm := [], csigFlag := false }

def Loam.cold : Loam :=
  { copies := [], dir := [], csigFlag := false, queue := [], cur := none, tokens := [], st := 0, spares := 32,
    sys := [(1, Tables.cold), (2, Tables.cold), (3, Tables.cold)],
    sysHome := [(0, 1), (1, 1), (2, 2), (3, 2), (4, 3), (5, 3)], sysRetired := [], retired := [], evicted := [], pgm := [], pfail := false, holdoff := false, restored := false,
    repair := [], verdict := [], copiesAt := [], genUse := [], recUse := [], lineUse := [], prevKeys := none,
    rtcBase := 0, rtcTick := 0, rtcValid := false, rtcAlign := 0, vbatLow := false, vbatGone := false, rtcLost := false,
    flash := [], slot0 := .empty, slot1 := .empty, trialStart := 0, runSlot := 0, runState := 0, attempts := 0, elapsed := 0, oldSlot := none, csig := none, unreadable := 0 }

def Brim.cold : Brim :=
  { st := .off, en := false, members := [], prev := [], eqls := [], leader := none, winner := none, streak := 0,
    upE := false, upW := false, east := [], west := [], txq := [], delayE := 0, delayW := 0, hopE := 0, hopW := 0,
    offset := 0, fresh := false, tokenSeq := 0, token := false, rotNs := 0, enumMs := 0, found := [],
    searching := false, discPulse := false, discStuck := false, restoreDue := false,
    leadNew := false }

def Mit.cold : Mit :=
  { st := .solo, en := false, linkUp := false, inbandUp := false, witness := false, since := 0, serving := false, peerId := 0,
    offset := 0, delay := 0, lock := 0, lastTakeover := 0, toMirror := [], serial := 0, keysSerial := 0, eph := [],
    pairKey := none, wasDown := false, relinquish := false, paired := false, gotMirror := [] }

def I2c.cold : I2c := { busy := false, status := 0, tries := 0, waiting := false, rx := [], fw := [] }

def Bcp.cold : Bcp :=
  { xram := [], mboxIn := 0, mboxOut := 0, inFull := false, outFull := false, collide := false, busy := false, lastBc := [],
    lastPcie := [], i2c := [] }

def Clk.cold : Clk :=
  { xtal := true, loin := true, xtalTick := 0, loinTick := 0, unified := false, core := .main, tbclk := .main, pke := .main,
    ctrl := .main, loSel := 0, units := [], mbtRun := false, mbtMode := true, mbtPass := false, mbtFail := 0,
    mbtRepaired := 0, mbtUnrep := 0, bufLost := 0, noPke := false }

def Silt.cold : Silt := { summary := false, win := false, start := 0, raises := 0, undelivered := 0 }

def Pend.cold : Pend := { n := 0, first := 0, last := 0 }

def Alarm.cold : Alarm :=
  { used := false, id := 0, sev := 0, active := false, unack := false, count := 0, mask := 0, first := 0, last := 0 }

def Evt.cold : Evt :=
  { silt := [], pend := [], ringDrop := [], coal := [], alarms := [], lim := [], traceDue := false, ovfDue := 0, run := [], recent := [] }

def PmcCnt.cold : PmcCnt := { val := 0, ovf := false, hi := 0 }

def Glb.cold : Glb :=
  { powered := false, resetHeld := false, step := 0, restoreMs := 0, recovery := 0, failCause := 0, failN := true,
    ctrlTicks := [], escTicks := [], deferred := none, ctrlUntil := 0, qspi4b := false }

/-- The machine right after power-on reset, before the start-up timeline runs: every field at its Cold value (R12),
an empty command queue, FAIL_N low (R501). -/
def State.reset : State :=
  { pending := [], out := [], fuse := Fuse.cold, regs := [], stat := [], statHi := [], glb := Glb.cold,
    tb := Tb.cold, ttOut := [], ttIn := [], ref := Ref.cold, dpl := Dpl.cold, gn := Gn.cold, lp := [],
    mg := Mg.cold, ts := Ts.cold, rsp := Rsp.cold, nts := Nts.cold, gnt := Gnt.cold, hif := Hif.cold,
    pke := Pke.cold, ent := Ent.cold, loam := Loam.cold, brim := Brim.cold, mit := Mit.cold, bcp := Bcp.cold,
    clk := Clk.cold, evt := Evt.cold, pmc := [] }

end Sys2Proof.Machine
end

