-- ==== Sys2Proof/Machine/Operands.lean ====
section
/-! DEFINITION. The operand forms: bit fields, two's complement, byte order (R8), CRCs (R94, R367) and checksums. -/

namespace Sys2Proof.Machine

/-- Bits [lo + len - 1 : lo] of a number. -/
def bitsOf (x lo len : Nat) : Nat := x / 2 ^ lo % 2 ^ len

/-- A field of a register word. -/
def fld (w : Word) (lo len : Nat) : Nat := bitsOf w.toNat lo len

/-- A single bit of a register word. -/
def flag (w : Word) (i : Nat) : Bool := w.getLsbD i

/-- A number written into a field of a word. -/
def putFld (w : Word) (lo len v : Nat) : Word :=
  let m : Word := BitVec.ofNat 32 ((2 ^ len - 1) * 2 ^ lo)
  (w &&& ~~~m) ||| (BitVec.ofNat 32 (v % 2 ^ len * 2 ^ lo))

/-- The signed reading of a `len`-bit number. -/
def signed (len x : Nat) : Int := if x < 2 ^ (len - 1) then x else (x : Int) - 2 ^ len

/-- A signed field of a word. -/
def sfld (w : Word) (lo len : Nat) : Int := signed len (fld w lo len)

/-- Two's complement of an integer in `len` bits. -/
def twos (len : Nat) (x : Int) : Nat := (x % (2 ^ len : Int)).toNat

/-- An integer as a register word. -/
def wordOfInt (x : Int) : Word := BitVec.ofNat 32 (twos 32 x)

def clampInt (lo hi x : Int) : Int := max lo (min hi x)

/-- A saturating signed 32-bit register value. -/
def satWord (x : Int) : Word := wordOfInt (clampInt (-(2 ^ 31) + 1) (2 ^ 31 - 1) x)

/-- Division rounding to the nearest, an exact half away from zero (R47). -/
def roundDiv (a : Int) (b : Nat) : Int :=
  if 0 ≤ a then (2 * a + b) / (2 * b) else -((2 * (-a) + b) / (2 * b))

/-- Division rounding up. -/
def ceilDiv (a b : Nat) : Nat := (a + b - 1) / b

def boolBit (b : Bool) (i : Nat) : Nat := if b then 2 ^ i else 0

/-- The bytes of a number, least significant first. -/
def leBytes : Nat → Nat → Bytes
  | 0, _ => []
  | n + 1, x => BitVec.ofNat 8 x :: leBytes n (x / 256)

/-- The bytes of a number, most significant first (network order, R8). -/
def beBytes (n x : Nat) : Bytes := (leBytes n x).reverse

def leNat : Bytes → Nat
  | [] => 0
  | b :: bs => b.toNat + 256 * leNat bs

def beNat (bs : Bytes) : Nat := leNat bs.reverse

/-- `n` bytes from offset `o`, short where the string ends. -/
def sub (bs : Bytes) (o n : Nat) : Bytes := (bs.drop o).take n

/-- `n` bytes from offset `o`, zeros past the end. -/
def subPad (bs : Bytes) (o n : Nat) : Bytes :=
  let x := sub bs o n
  x ++ List.replicate (n - x.length) 0

def byteAt (bs : Bytes) (o : Nat) : Nat := (bs.getD o 0).toNat
def be16 (bs : Bytes) (o : Nat) : Nat := beNat (subPad bs o 2)
def be32 (bs : Bytes) (o : Nat) : Nat := beNat (subPad bs o 4)
def be64 (bs : Bytes) (o : Nat) : Nat := beNat (subPad bs o 8)
def le16 (bs : Bytes) (o : Nat) : Nat := leNat (subPad bs o 2)
def le32 (bs : Bytes) (o : Nat) : Nat := leNat (subPad bs o 4)

/-- A byte string with the bytes from offset `o` replaced. -/
def putBytes (bs : Bytes) (o : Nat) (v : Bytes) : Bytes := bs.take o ++ v ++ bs.drop (o + v.length)

/-- Word `k` of a descriptor (R310). -/
def descWord (d : Bytes) (k : Nat) : Word := BitVec.ofNat 32 (le32 d (4 * k))

/-- One step of a CRC whose register shifts left. -/
def crcLeftStep (w poly : Nat) (c : Nat) : Nat :=
  if c / 2 ^ (w - 1) % 2 = 1 then (c * 2 % 2 ^ w) ^^^ poly else c * 2 % 2 ^ w

/-- CRC-16/CCITT-FALSE (R94). -/
def crc16 (bs : Bytes) : Nat :=
  bs.foldl (fun c b => Nat.repeat (crcLeftStep 16 0x1021) 8 (c ^^^ (b.toNat * 256))) 0xFFFF

/-- One step of a reflected CRC. -/
def crcRightStep (poly : Nat) (c : Nat) : Nat := if c % 2 = 1 then (c / 2) ^^^ poly else c / 2

def crcReflected (poly : Nat) (bs : Bytes) : Nat :=
  (bs.foldl (fun c b => Nat.repeat (crcRightStep poly) 8 (c ^^^ b.toNat)) 0xFFFFFFFF) ^^^ 0xFFFFFFFF

/-- CRC-32C (R367): the reflection of 0x1EDC6F41. -/
def crc32c (bs : Bytes) : Nat := crcReflected 0x82F63B78 bs

/-- The frame check sequence of IEEE 802.3 (log entry 20). -/
def fcs (bs : Bytes) : Bytes := leBytes 4 (crcReflected 0xEDB88320 bs)

/-- CRC-24Q (R125). -/
def crc24q (bs : Bytes) : Nat :=
  bs.foldl (fun c b => Nat.repeat (crcLeftStep 24 0x864CFB) 8 (c ^^^ (b.toNat * 65536))) 0

/-- Ones'-complement sum of 16-bit words (R209). -/
def onesSum : Bytes → Nat
  | a :: b :: rest =>
    let t := a.toNat * 256 + b.toNat + onesSum rest
    t % 65536 + t / 65536
  | [a] => a.toNat * 256
  | [] => 0

/-- Ones'-complement addition. -/
def onesAdd (a b : Nat) : Nat := (a + b) % 65536 + (a + b) / 65536

/-- The Internet checksum of a byte string. -/
def inetSum (bs : Bytes) : Nat := 65535 - onesSum bs % 65536

/-- One second in counter units. -/
def secUnits : Nat := 10 ^ 9 * 2 ^ 64

/-- TAI seconds of a counter value (R36, R39). -/
def secOf (c : Nat) : Nat := c / secUnits % 2 ^ 48

/-- NS32 of a counter value. -/
def nsOf (c : Nat) : Nat := c / 2 ^ 64 % 10 ^ 9

/-- FNS16 of a counter value. -/
def fnsOf (c : Nat) : Nat := c / 2 ^ 48 % 2 ^ 16

/-- A counter value as a stamp in 1/16 ns (R37). -/
def t16Of (c : Nat) : Nat := c / 2 ^ 60

/-- A stamp as a counter value. -/
def ofT16 (t : Nat) : Nat := t * 2 ^ 60

/-- The counter value of a full stamp given by its three words (R39). -/
def ofWords (ns sec hi : Nat) : Nat :=
  ((sec + bitsOf hi 0 16 * 2 ^ 32) * 10 ^ 9 + ns) * 2 ^ 64 + bitsOf hi 16 16 * 2 ^ 48

/-- The three words of a full stamp (R39). -/
def stampWords (c : Nat) : List Nat :=
  [nsOf c, secOf c % 2 ^ 32, secOf c / 2 ^ 32 + fnsOf c * 2 ^ 16]

/-- A full stamp as 12 little-endian bytes. -/
def stampBytes (c : Nat) : Bytes := (stampWords c).flatMap (leBytes 4)

/-- The short stamp (R40). -/
def shortOf (c : Nat) : Nat := (secOf c * 10 ^ 9 + nsOf c) % 2 ^ 32

/-- A word list as little-endian bytes. -/
def wordsLe (ws : List Nat) : Bytes := ws.flatMap (leBytes 4)

end Sys2Proof.Machine
end

