-- ==== Sys2Proof/Machine/Tables.lean ====
section
/-! DEFINITION. Sparse tables in their one canonical form: rising keys, no entry equal to its key's default. -/

namespace Sys2Proof.Machine

variable {α : Type}

/-- The value at a key; an unlisted key reads as its default. -/
def tget (d : Nat → α) : Tab α → Nat → α
  | [], k => d k
  | (a, v) :: t, k => if k = a then v else tget d t k

/-- The table without an entry at a key. -/
def tdel : Tab α → Nat → Tab α
  | [], _ => []
  | (a, v) :: t, k => if k = a then tdel t k else (a, v) :: tdel t k

/-- The table with an entry placed at a key, in key order. -/
def tput : Tab α → Nat → α → Tab α
  | [], k, x => [(k, x)]
  | (a, v) :: t, k, x =>
    if k = a then (k, x) :: t
    else if k < a then (k, x) :: (a, v) :: t
    else (a, v) :: tput t k x

/-- Writing the default removes the entry. -/
def tset [DecidableEq α] (d : Nat → α) (t : Tab α) (k : Nat) (x : α) : Tab α :=
  if x = d k then tdel t k else tput t k x

/-- Keys rising strictly from a bound. -/
def trising : Nat → Tab α → Bool
  | _, [] => true
  | lo, (a, _) :: t => decide (lo ≤ a) && trising (a + 1) t

/-- The canonical form. -/
def twf [DecidableEq α] (d : Nat → α) (t : Tab α) : Bool :=
  trising 0 t && t.all (fun e => decide (e.2 ≠ d e.1))

end Sys2Proof.Machine
end

