-- ==== Sys2Proof/Machine/Regs.lean ====
section
/-! DEFINITION. The register table of BAR0 as data: addresses, Cold values, access masks, "L" masks and the
stored-as rules of every register that a table of the spec defines (R10 to R14, R510). -/

namespace Sys2Proof.Machine

/-- How a written field is stored: saturated, signed saturated, not changed by some values, or mapped (R11 and the
Meaning columns). `lo` and `len` name the field. -/
inductive Rule where
  | clamp (lo len min max : Nat)
  | sclamp (lo len : Nat) (min max : Int)
  | skip (lo len : Nat) (vals : List Nat)
  | map (lo len src dst : Nat)
  deriving DecidableEq, Repr

/-- A register, or a two-dimensional array of registers, of a block. `rw` are the bits a plain host write stores,
`w1c` the sticky bits a written 1 clears, `loam` the bits marked "L", `cold` the Cold value, `colds` the Cold
values of single elements, `count32` a drop and error counter (R487). -/
structure RegDef where
  base : Nat
  stride : Nat := 4
  count : Nat := 1
  stride2 : Nat := 0x1000000
  count2 : Nat := 1
  rw : Nat := 0
  w1c : Nat := 0
  loam : Nat := 0
  cold : Nat := 0
  colds : List (Nat × Nat) := []
  rules : List Rule := []
  count32 : Bool := false
  deriving Repr

/-- The index of an element of a register array that lies at an offset. -/
def RegDef.index? (r : RegDef) (off : Nat) : Option Nat :=
  if off < r.base then none else
  let d := off - r.base
  let i2 := d / r.stride2
  let e := d % r.stride2
  if i2 < r.count2 ∧ e % r.stride = 0 ∧ e / r.stride < r.count then some (i2 * r.count + e / r.stride) else none

def RegDef.coldAt (r : RegDef) (i : Nat) : Nat := (r.colds.lookup i).getD r.cold

def full : Nat := 0xFFFFFFFF

/-- An RW register of 32 bits marked L. -/
def regL (base cold : Nat) (rules : List Rule := []) : RegDef :=
  { base := base, rw := full, loam := full, cold := cold, rules := rules }

/-- `n` drop and error counters from an offset. -/
def counters (base n : Nat) : RegDef := { base := base, count := n, count32 := true }

def glbDefs : List RegDef :=
  [ { base := 0x010, w1c := 0x3FF, cold := 1 },
    { base := 0x040, rw := 0xFF01, loam := 0xFF00, cold := 0x1E00, rules := [.clamp 8 8 1 240] } ]

def clkDefs : List RegDef :=
  [ { base := 0x000, rw := 0x1C, loam := 0x1C, cold := 0x18 },
    { base := 0x010, count := 3, rw := 0x3F0F, loam := 0x3F0F, cold := 0x2000,
      rules := [.clamp 0 4 0 10, .clamp 8 6 30 63] },
    counters 0x100 2 ]

def pwrDefs : List RegDef :=
  [ { base := 0x000, rw := 0x1FF1, loam := 0x1FF1, cold := 0x441, rules := [.clamp 4 5 1 16, .clamp 9 4 1 8] },
    counters 0x100 1,
    { base := 0x8000, rw := 0xE, cold := 0xA, rules := [.skip 2 2 [3]] },
    { base := 0x8004, w1c := 0x2 } ]

def tbDefs : List RegDef :=
  [ { base := 0x000, rw := 0xF3F, loam := 0xF3F, cold := 0x401,
      rules := [.skip 0 2 [3], .sclamp 2 4 (-4) 4, .map 8 4 0 1] },
    { base := 0x008, w1c := 0x10080 },
    regL 0x040 0x8000, regL 0x044 0x1000, regL 0x048 500000 [.clamp 0 32 0 500000],
    regL 0x04C 1000, regL 0x050 100, regL 0x054 1000, regL 0x058 1000,
    { base := 0x070, count := 3, rw := full },
    { base := 0x080, rw := 0xFFFF, loam := 0xFFFF, cold := 37 },
    regL 0x084 0,
    { base := 0x100, stride := 8, count := 64, rw := full, loam := full },
    { base := 0x104, stride := 8, count := 64, rw := 0xFFFF, loam := 0xFFFF } ]

/-- REF (R120). DESIGN CHOICE (log entry 115): the nibble of ID 7 in REF_TPRIO and DPL_DPLLd_PRIO reads 0. -/
def refDefs : List RegDef :=
  [ { base := 0x000, rw := 0xF3F, loam := 0xF01, cold := 0xB38 },
    { base := 0x004, rw := 0xFFFFFFF, loam := 0xFFFFFFF, cold := 0x4321 },
    regL 0x014 10000 [.clamp 0 32 1000 100000000],
    regL 0x018 1000, regL 0x01C 1000, regL 0x020 1000,
    { base := 0x028, rw := 0x3FFF0003, loam := 0x3FFF0003, cold := 0x640000, rules := [.clamp 16 14 10 10000] },
    { base := 0x040, stride := 0x20, count := 6, rw := 0x3FF03FF, loam := 0x3FF03FF, cold := 0xA0001,
      rules := [.map 16 10 0 1] },
    { base := 0x044, stride := 0x20, count := 6, rw := full, loam := full,
      rules := [.sclamp 0 32 (-1048575) 1048575] },
    { base := 0x048, stride := 0x20, count := 6, rw := full, loam := full,
      colds := [(0, 50), (1, 50), (2, 16), (3, 100)] },
    { base := 0x04C, stride := 0x20, count := 6, rw := full, loam := full, cold := 1000,
      rules := [.clamp 0 32 10 100000] },
    { base := 0x200, rw := 0xF, loam := 0xF },
    { base := 0x204, rw := 0xF, loam := 0xF, cold := 1 },
    { base := 0x210, rw := 0x7FF, loam := 0x7FF },
    counters 0x2F0 1,
    { base := 0x300, stride := 4, count := 4, stride2 := 0x10, count2 := 6, count32 := true } ]

def dplDefs : List RegDef :=
  [ { base := 0x000, rw := 0x1FF, loam := 0xFF, cold := 0x91, rules := [.clamp 1 6 0 48] },
    { base := 0x040, stride := 0x40, count := 2, rw := 0x17F, loam := 0x7F, colds := [(0, 0x48), (1, 0x40)],
      rules := [.clamp 1 6 0 48] },
    { base := 0x004, stride := 0x40, count := 3, rw := 0xFFFFFFF, loam := 0xFFFFFFF,
      colds := [(0, 0x540321), (1, 0x3210000), (2, 0x1000000)] },
    { base := 0x140, rw := 1, loam := 1 },
    regL 0x144 60 [.clamp 0 32 1 1440] ]

def gnDefs : List RegDef :=
  [ { base := 0x000, rw := 0x1FFFF, loam := 0x1FFFF, cold := 0x1FF23, rules := [.skip 1 2 [3]] },
    { base := 0x004, w1c := 0x200 },
    { base := 0x010, count := 2, rw := 0xF, loam := 0xF, cold := 1 },
    { base := 0x018, count := 2, rw := full, loam := full, cold := 102300, rules := [.clamp 0 32 1000 102300] },
    { base := 0x020, count := 2, rw := full, loam := full, colds := [(0, 1590000), (1, 1176450)] },
    { base := 0x030, rw := 0xFF78, w1c := 0x4, loam := 0xFF00, cold := 0x1708,
      rules := [.clamp 3 4 1 8, .clamp 8 8 11 255] },
    { base := 0x034, count := 2, rw := full },
    { base := 0x044, rw := 0xFFFF, loam := 0xFFFF, cold := 0x9632 },
    regL 0x048 10 [.clamp 0 32 0 90], regL 0x04C 30, regL 0x050 3600, regL 0x054 2000, regL 0x058 50,
    regL 0x05C 30, regL 0x060 50,
    { base := 0x064, count := 3, rw := full, loam := full },
    { base := 0x070, rw := 0xF1, loam := 0xF1, cold := 0x30 },
    regL 0x074 120 [.clamp 0 32 10 1440], regL 0x078 50,
    { base := 0x080, rw := 3, loam := 3 },
    { base := 0x090, rw := 3, loam := 3, cold := 1 },
    { base := 0x0C0, count := 8, rw := full, loam := full },
    { base := 0x400, count := 64, rw := 0xFFF, loam := 0xFFF },
    { base := 0x1000, stride := 0x10, count := 128, rw := 0x3F7FF, loam := 0x3F7FF, cold := 0x8000,
      rules := [.skip 1 4 [9, 10, 11, 12, 13, 14, 15], .clamp 12 6 0 61] } ]

/-- TT (R77, R79). DESIGN CHOICE (log entry 105): TT_INm_DELAY is stored saturated to ±256,000 as the output's DELAY is;
R76 states the limits and not what a write beyond them stores. -/
def ttDefs : List RegDef :=
  [ { base := 0x000, stride := 0x40, count := 16, rw := 0xFF, loam := 0xFF, cold := 0x8 },
    { base := 0x004, stride := 4, count := 4, stride2 := 0x40, count2 := 16, rw := full, loam := full },
    { base := 0x014, stride := 0x40, count := 16, rw := 0xFFFF, loam := 0xFFFF },
    { base := 0x018, stride := 0x40, count := 16, rw := full, loam := full, cold := 1000 },
    { base := 0x01C, stride := 0x40, count := 16, rw := full, loam := full },
    { base := 0x020, stride := 0x40, count := 16, rw := full, loam := full,
      rules := [.sclamp 0 32 (-256000) 256000] },
    { base := 0x024, stride := 0x40, count := 16, w1c := 0x1E },
    { base := 0x400, stride := 0x20, count := 16, rw := 0x7F, loam := 0x7F, cold := 0xA },
    { base := 0x404, stride := 0x20, count := 16, rw := full, loam := full,
      rules := [.sclamp 0 32 (-256000) 256000] },
    { base := 0x414, stride := 0x20, count := 16, w1c := 0x3 } ]

/-- The four line ports share one table: the second dimension of each entry runs over n. -/
def lpDefs : List RegDef :=
  let a (off rw cold : Nat) (rules : List Rule) : List RegDef :=
    [0, 1, 2, 3].map fun n =>
      ({ base := 0x40000 * n + 0x100 + off, stride := 0x100, count := 4, rw := rw,
         loam := rw, cold := cold, rules := rules } : RegDef)
  [ { base := 0x000, stride := 0x40000, count := 4, loam := 3 },
    { base := 0x008, stride := 0x40000, count := 4, rw := 0xFF, loam := 0xFF } ]
  ++ ([0, 1, 2, 3].map fun n =>
      ({ base := 0x40000 * n + 0x100, stride := 0x100, count := 4, rw := 0x3FFFC0,
         loam := 0x3FFFFF, cold := 0x3FA01, rules := [.skip 1 3 [4, 5, 6, 7], .skip 6 2 [3]] } : RegDef))
  ++ a 0x04 full 1522 [.clamp 0 32 1518 9216]
  ++ a 0x0C full 2000 []
  ++ a 0x10 full 100 [.clamp 0 32 1 10000]
  ++ a 0x14 full 1000 [.clamp 0 32 0 100000]
  ++ a 0x18 full 500 [.clamp 0 32 10 100000]
  ++ a 0x1C full 0 [.clamp 0 32 0 1000000]
  ++ a 0x20 0xFFFFFF 0x53977 []
  ++ a 0x24 0xFFFF 0x5AF []
  ++ a 0x28 full 256 []
  ++ a 0x2C full 128 []
  ++ ([0, 1, 2, 3].map fun n =>
      ({ base := 0x40000 * n + 0x1020, stride := 4, count := 14, stride2 := 0x100,
         count2 := 4, count32 := true } : RegDef))
  ++ ([0, 1, 2, 3].map fun n =>
      ({ base := 0x40000 * n + 0x1060, stride := 4, count := 8, stride2 := 0x100,
         count2 := 4, count32 := true } : RegDef))

def mgDefs : List RegDef :=
  [ { base := 0x000, rw := 0x1FF, loam := 0x1FF, cold := 0xFD },
    regL 0x004 1522 [.clamp 0 32 1518 9216],
    regL 0x00C 0,
    { base := 0x010, rw := 0xFFFF, loam := 0xFFFF },
    regL 0x014 2000, regL 0x018 100 [.clamp 0 32 1 10000],
    { base := 0x020, rw := 0xFF, loam := 0xFF },
    { base := 0x024 },
    { base := 0x028, rw := 0x7FFFFF, loam := 0x7FFFFF, cold := 0x563C14 },
    { base := 0x100, stride := 4, count := 4, stride2 := 0x20, count2 := 8, rw := full, loam := full },
    { base := 0x110, stride := 0x20, count := 8, rw := 0xFFFF, loam := 0xFFFF },
    counters 0x1020 14, counters 0x1060 8 ]

def tsDefs : List RegDef :=
  [ { base := 0x000, stride := 0x40, count := 16, rw := 0xF, loam := 0xF, cold := 1,
      rules := [.skip 0 2 [3], .skip 2 2 [1, 3]] },
    { base := 0x004, stride := 4, count := 2, stride2 := 0x40, count2 := 16, rw := full, loam := full,
      rules := [.sclamp 0 32 (-65535) 65535] },
    { base := 0x01C, stride := 0x40, count := 16, w1c := 0x2 },
    { base := 0x020, stride := 0x40, count := 16, count32 := true },
    { base := 0x820, rw := 0xFFFF, cold := 0x190F, rules := [.clamp 0 8 0 15, .clamp 8 8 0 25] },
    { base := 0x900, rw := 0xFF1 },
    { base := 0x904, rw := 0xFFFF, cold := 0x88B5 },
    counters 0x914 1 ]

/-- Rule keys, masks and profile words are staged registers: only their own commands write them (R220, R221). -/
def rspDefs : List RegDef :=
  [ { base := 0x000, rw := 1, loam := 1 },
    { base := 0x008, rw := 0xFFFF, cold := 0xFFFF },
    { base := 0x00C, w1c := 0xFFFF0000 },
    regL 0x010 0, regL 0x014 0,
    { base := 0x020, count := 4, rw := full, loam := full,
      colds := [(0, 0x52454641), (1, 0x52454642), (2, 0x474E5353), (3, 0x50545000)] },
    { base := 0x040, rw := 0xFFF },
    { base := 0x100, stride := 8, count := 16, rw := full, loam := full },
    { base := 0x104, stride := 8, count := 16, rw := 0xFFFF, loam := 0xFFFF },
    { base := 0x1000, stride := 0x10, count := 256, loam := full },
    { base := 0x1004, stride := 0x10, count := 256, loam := 0xFFFF3FFF, cold := 0x1000,
      rules := [] },
    { base := 0x1008, stride := 0x10, count := 256, loam := 0xFFFF, cold := 0xFFFF },
    { base := 0x2000, stride := 0x20, count := 64, loam := 0x7FFF, cold := 0x10 },
    { base := 0x2004, stride := 0x20, count := 64, loam := full, cold := 0x06110401,
      rules := [.clamp 0 8 1 15, .sclamp 24 8 (-4) 17] },
    { base := 0x2008, stride := 4, count := 2, stride2 := 0x20, count2 := 64, loam := full },
    { base := 0x2010, stride := 0x20, count := 64, loam := 0x3FFF, cold := 0x2E40, rules := [.map 0 8 0 1] },
    { base := 0x2014, stride := 0x20, count := 64, loam := full, cold := 0x80800000, rules := [.skip 8 3 [6, 7]] },
    { base := 0x2018, stride := 0x20, count := 64, loam := full, cold := 0x07000100,
      rules := [.sclamp 0 8 (-7) 4, .sclamp 8 8 (-3) 4, .sclamp 16 8 (-7) 6] },
    { base := 0x201C, stride := 0x20, count := 64, loam := 0xFFFFFFF, cold := 0x3012CF9,
      rules := [.clamp 24 4 2 15] } ]
  ++ ([0, 1, 2, 3].flatMap fun n =>
      [ { base := 0x4000 + 0x1000 * n, stride := 8, count := 64, rw := full, loam := full },
        { base := 0x4004 + 0x1000 * n, stride := 8, count := 64, rw := 0x1F, loam := 0x1F },
        { base := 0x4400 + 0x1000 * n, stride := 4, count := 4, stride2 := 0x20, count2 := 64, rw := full,
          loam := full },
        { base := 0x4410 + 0x1000 * n, stride := 0x20, count := 64, rw := 0x1F, loam := 0x1F } ])
  ++ [ counters 0x8040 11 ]

def ntsDefs : List RegDef :=
  [ { base := 0x000, rw := 7, loam := 7, cold := 6 },
    regL 0x010 86400 [.clamp 0 32 3600 604800],
    regL 0x014 4000 [.clamp 0 32 2000 100000],
    regL 0x018 1000 [.clamp 0 32 0 100000],
    regL 0x01C 10000 [.clamp 0 32 10 60000],
    counters 0x140 10 ]

def gntDefs : List RegDef :=
  [ { base := 0x000, rw := 1, loam := 1, cold := 1 },
    { base := 0x004, rw := 0x7F, loam := 0x7F, cold := 0x7F },
    { base := 0x008, rw := 0xFF3F, loam := 0xFF3F, cold := 0x4020, rules := [.clamp 0 6 8 32, .clamp 8 8 32 128] },
    regL 0x010 1000 [.clamp 0 32 0 100000],
    regL 0x014 100 [.clamp 0 32 1 10000],
    { base := 0x040, count := 16, rw := 0x1FFFF, loam := 0x1FFFF,
      colds := [(0, 0x10007), (1, 0x10011), (2, 0x10013), (3, 0x10035), (4, 0x1006F), (5, 0x10089), (6, 0x100A1),
        (7, 0x10185), (8, 0x1076C), (9, 0x12BCB)] },
    { base := 0x100, stride := 4, count := 4, stride2 := 0x20, count2 := 16, rw := full, loam := full },
    { base := 0x110, stride := 0x20, count := 16, rw := 0xFF03, loam := 0xFF03 },
    { base := 0x400, stride := 8, count := 64, loam := 0xFFFFFCFF, cold := 0x52, colds := [(0, 0xB3)] },
    { base := 0x404, stride := 8, count := 64, rw := full, loam := full, cold := 0x08080100,
      rules := [.clamp 0 16 256 65535, .clamp 16 8 1 63, .sclamp 24 8 4 17] },
    { base := 0x1000, stride := 0x10, count := 16, loam := 0x7FF7F, cold := 0x4014,
      rules := [.clamp 0 7 16 64, .clamp 8 11 1 1024] },
    { base := 0x1008, stride := 0x10, count := 16, count32 := true },
    counters 0x2040 11 ]

def hifDefs : List RegDef :=
  [ counters 0x004 2,
    { base := 0x040, count := 16, rw := 0x3F3F3F3F, loam := 0x3F3F3F3F, cold := 0x03020100 },
    { base := 0x100, count := 64, rw := full, cold := 0x00200028, rules := [.map 16 16 0 1] },
    { base := 0x1000, stride := 4, count := 4, stride2 := 0x20, count2 := 256, rw := full },
    { base := 0x1010, stride := 0x20, count := 256, rw := 0xFFE, cold := 0xC },
    { base := 0x101C, stride := 0x20, count := 256, count32 := true },
    { base := 0x8000, stride := 4, count := 3, stride2 := 0x10, count2 := 64, rw := full },
    { base := 0x800C, stride := 0x10, count := 64, rw := 1, cold := 1 } ]

def pkeDefs : List RegDef :=
  [ { base := 0x000, rw := 0xF0, loam := 0xF0, cold := 0x20, rules := [.clamp 4 4 0 11] },
    { base := 0x008, rw := 0xFFF, cold := 0xFFF },
    { base := 0x010, rw := 0xFF },
    counters 0x140 5 ]

def entDefs : List RegDef :=
  [ { base := 0x004, w1c := 0xF00 },
    regL 0x008 4096 [.clamp 0 32 1 65536],
    regL 0x00C 10 [.clamp 0 32 1 1000],
    { base := 0x100, stride := 4, count := 8, count32 := true },
    counters 0x148 2 ]

def loamDefs : List RegDef :=
  [ { base := 0x000, rw := 1, loam := 1, cold := 1 },
    { base := 0x008, rw := 0x1FF },
    counters 0x040 3,
    { base := 0x10C, w1c := 0x2 },
    { base := 0x114, rw := 1, loam := 1, cold := 1 },
    { base := 0x200, count := 48, rw := full },
    { base := 0x2C0, count := 16 } ]

def brimDefs : List RegDef :=
  [ { base := 0x000, rw := 0x2, loam := 0x3, cold := 0x2 },
    { base := 0x088, count := 2, rw := full, loam := full, rules := [.sclamp 0 32 (-16000) 16000] },
    counters 0x0A0 4 ]

def mitDefs : List RegDef :=
  [ { base := 0x000, rw := 0x6, loam := 0x7 },
    regL 0x008 0,
    regL 0x010 10 [.clamp 0 32 1 1000],
    { base := 0x014, rw := 0x1FFFF, loam := 0x1FFFF },
    regL 0x020 0 [.sclamp 0 32 (-16000) 16000],
    counters 0x040 4 ]

def bcpDefs : List RegDef :=
  [ { base := 0x000, rw := 3 },
    { base := 0x004, w1c := 1 },
    { base := 0x010, rw := 0x7F, loam := 0x7F, cold := 0x4A },
    regL 0x014 25 [.clamp 0 32 1 100],
    { base := 0x100, stride := 0x20, count := 2, rw := 0x3F, w1c := 0x800, loam := 0x3F, cold := 0xD,
      rules := [.skip 0 2 [3]] },
    { base := 0x104, stride := 0x20, count := 2, rw := 0xFF7F, rules := [.clamp 8 4 0 8, .clamp 12 4 0 8] },
    { base := 0x108, stride := 4, count := 2, stride2 := 0x20, count2 := 2, rw := full },
    counters 0x200 13 ]

def evtDefs : List RegDef :=
  [ { base := 0x000, rw := 0xFF, loam := 0xFF, cold := 16 },
    { base := 0x010, rw := 3, loam := 3, cold := 1, rules := [.map 0 2 0 1] },
    { base := 0x018, rw := 0x7F },
    { base := 0x040, w1c := 0x7FFFFF },
    counters 0x044 1,
    { base := 0x1000, count := 384, rw := 0xFFFFFF0F, loam := 0xFFFFFF0F, cold := 0x03E81008,
      colds := [84, 119, 239, 260, 376, 377, 378, 379, 380, 381, 382, 383].map (fun i => (i, 0x03E81000)),
      rules := [.map 8 8 0 1, .clamp 16 16 1 60000] } ]

def pmcDefs : List RegDef :=
  [ { base := 0x100, stride := 0x10, count := 64, cold := 0x1F0000 } ]

/-- Block bases, sizes and tables in the order of R510; the index is the block's EVT_SAT bit. -/
def blocks : List (Nat × Nat × List RegDef) :=
  [ (0x000000, 0x100000, glbDefs), (0x100000, 0x100000, clkDefs), (0x200000, 0x100000, pwrDefs),
    (0x300000, 0x100000, tbDefs), (0x400000, 0x80000, refDefs), (0x480000, 0x80000, dplDefs),
    (0x500000, 0x100000, gnDefs), (0x600000, 0x100000, ttDefs), (0x800000, 0x100000, lpDefs),
    (0x900000, 0x100000, mgDefs), (0xA00000, 0x100000, tsDefs), (0xB00000, 0x100000, rspDefs),
    (0xC00000, 0x100000, ntsDefs), (0xD00000, 0x100000, gntDefs), (0xE00000, 0x100000, hifDefs),
    (0xF00000, 0x100000, pkeDefs), (0x1000000, 0x100000, entDefs), (0x1100000, 0x100000, loamDefs),
    (0x1200000, 0x100000, brimDefs), (0x1300000, 0x100000, mitDefs), (0x1400000, 0x100000, bcpDefs),
    (0x1500000, 0x100000, evtDefs), (0x1600000, 0x100000, pmcDefs) ]

/-- The block of an address and its EVT_SAT bit; none in the gaps of R511. -/
def blockOf (a : Nat) : Option Nat :=
  blocks.findIdx? fun b => decide (b.1 ≤ a ∧ a < b.1 + b.2.1)

/-- The base of the block whose high-word latch an address uses; LP0 to LP3 are a block each (R190, R488, R510). -/
def latchOf (a : Nat) : Option Nat :=
  (blockOf a).map fun b => if b = 8 then a / 0x40000 * 0x40000 else (blocks.getD b (0, 0, [])).1

/-- The table entry of a register address, with the element's index. -/
def regAt (a : Nat) : Option (RegDef × Nat) :=
  match blocks.find? (fun b => decide (b.1 ≤ a ∧ a < b.1 + b.2.1)) with
  | none => none
  | some (base, _, defs) => defs.findSome? fun r => (r.index? (a - base)).map fun i => (r, i)

/-- The Cold value of the stored part of a register (R12); 0 where none is defined. -/
def coldWord (a : Nat) : Word :=
  match regAt a with
  | some (r, i) => BitVec.ofNat 32 (r.coldAt i)
  | none => 0

/-- The stored value after the stored-as rules, given the previous value. -/
def Rule.apply (old : Word) (w : Word) : Rule → Word
  | .clamp lo len mn mx => putFld w lo len (max mn (min mx (fld w lo len)))
  | .sclamp lo len mn mx => putFld w lo len (twos len (clampInt mn mx (sfld w lo len)))
  | .skip lo len vals => if vals.contains (fld w lo len) then putFld w lo len (fld old lo len) else w
  | .map lo len src dst => if fld w lo len = src then putFld w lo len dst else w

/-- The word a register holds after a write through a mask, its rules applied. -/
def storedWord (r : RegDef) (mask : Nat) (old value : Word) : Word :=
  let m : Word := BitVec.ofNat 32 mask
  let merged := (old &&& ~~~m) ||| (value &&& m)
  r.rules.foldl (fun w rule => rule.apply old w) merged

/-- The number of elements of a register array that lie below an offset. -/
def RegDef.below (r : RegDef) (off : Nat) : Nat :=
  if off ≤ r.base then 0 else
  let d := off - r.base
  let i2 := d / r.stride2
  if r.count2 ≤ i2 then r.count2 * r.count
  else i2 * r.count + min r.count (ceilDiv (d % r.stride2) r.stride)

/-- The rank of an "L" register among all "L" registers in address order: its place in the CFG records
(log entry 21). -/
def loamRank (a : Nat) : Nat :=
  blocks.foldl (fun n b =>
    n + (b.2.2.filter (fun r => r.loam ≠ 0)).foldl (fun m r =>
      m + (if a < b.1 then 0 else r.below (a - b.1))) 0) 0

/-- The CFG segment that holds an "L" register: 508 words of 8 bytes fill the 4,064 bytes of a payload (R365; log entry 21). -/
def cfgSegment (a : Nat) : Nat := loamRank a / 508

/-- The TIME class holds the leap table, TB_UTC_OFS and TB_LEAP_EXPIRY (R365). -/
def isTimeReg (a : Nat) : Bool := decide ((0x300080 ≤ a ∧ a ≤ 0x300084) ∨ (0x300100 ≤ a ∧ a < 0x300300))

/-- The "L" mask of a register address. -/
def loamMask (a : Nat) : Word :=
  match regAt a with
  | some (r, _) => BitVec.ofNat 32 r.loam
  | none => 0

/-! ## What a reset reaches (R496) -/

/-- Registers of the keep-alive domain: LOAM_RTC_STATUS and the backup registers (R385). -/
def keepAliveReg (a : Nat) : Bool := decide (a = 0x110010C) || decide (0x1100200 ≤ a ∧ a < 0x1100300)

/-- Registers that POR reaches; GLB_RST_CAUSE returns to its Cold value, POR alone. -/
def porReaches (a : Nat) : Bool := !keepAliveReg a

/-- Registers that PIN and CHIP reach. -/
def chipReaches (a : Nat) : Bool := porReaches a && decide (a ≠ 0x10)

/-- Registers that WARM reaches: CLK, TB, REF, DPL, GN, TT and BRIM stay. -/
def warmReaches (a : Nat) : Bool :=
  chipReaches a && !(decide (0x100000 ≤ a ∧ a < 0x200000) || decide (0x300000 ≤ a ∧ a < 0x700000)
    || decide (0x1200000 ≤ a ∧ a < 0x1300000))

end Sys2Proof.Machine
end

