-- ==== Sys2Proof/Machine/Flags.lean ====
section
/-! DEFINITION. The event sources as data: class, severity, one-shot alarms (R477 to R485), and the values of the
status codes that completions carry (R317). -/

namespace Sys2Proof.Machine

/-- The trace sources. -/
def isTrace (id : Nat) : Bool := [84, 119, 239, 260].contains id || decide (376 ≤ id ∧ id ≤ 383)

/-- The alarm severity of a source (R485): 1 minor, 2 major, 3 critical; none for the other classes. LOAM_STATE
carries the severity of the state it reports (R383), so its entry here is the least. -/
def severity? (id : Nat) : Option Nat :=
  if [2, 16, 17, 38].contains id then some 3
  else if [20, 49, 232, 251, 304, 324, 326, 328, 330, 341, 353, 354, 357].contains id then some 2
  else if [57, 60, 64, 86, 112, 163, 179, 195, 211, 272, 321, 332, 367].contains id then some 1
  else none

/-- The class code of EVT_SRCi_STATUS.CLASS (R493). -/
def classOf (id : Nat) : Nat := if (severity? id).isSome then 1 else if isTrace id then 2 else 0

/-- The one-shot alarm sources (R485). -/
def oneShot (id : Nat) : Bool := [20, 60, 354, 357].contains id

/-- TBCLK ticks in one second of elapsed time (R536). -/
def ticksPerSec : Nat := 500000000

/-- TBCLK ticks in one millisecond. -/
def ticksPerMs : Nat := 500000

def stOk : Nat := 0
def stLenErr : Nat := 1
def stLinkDown : Nat := 2
def stPortAbsent : Nat := 3
def stLaunchBad : Nat := 4
def stLaunchLate : Nat := 5
def stNotReady : Nat := 6
def stThrottled : Nat := 7
def stNoSpace : Nat := 8
def stDmaErr : Nat := 9
def stDescErr : Nat := 10
def stFlushed : Nat := 11

end Sys2Proof.Machine
end

