-- ==== Sys2Proof/Machine/Ops.lean ====
section
/-! DEFINITION. The named operations over the state: registers and counters, rings and completions, MSI-X vectors,
events with the limiter, Silt and the alarm table. -/

namespace Sys2Proof.Machine

/-! ## Registers -/

/-- The stored word of a register. -/
def rd (s : State) (a : Nat) : Word := tget coldWord s.regs a

/-- A field of a stored register. -/
def rf (s : State) (a lo len : Nat) : Nat := fld (rd s a) lo len

/-- A signed field of a stored register. -/
def rsf (s : State) (a lo len : Nat) : Int := sfld (rd s a) lo len

/-- A bit of a stored register. -/
def rb (s : State) (a i : Nat) : Bool := flag (rd s a) i

/-- A stored register given a word. -/
def wr (s : State) (a : Nat) (v : Word) : State := { s with regs := tset coldWord s.regs a v }

/-- A field of a stored register given a value. -/
def wrf (s : State) (a lo len v : Nat) : State := wr s a (putFld (rd s a) lo len v)

/-- The bits of a mask set in a stored register: sticky bits. -/
def orReg (s : State) (a m : Nat) : State := wr s a (rd s a ||| BitVec.ofNat 32 m)

/-- A plain host write to a register: the writable bits are stored under the stored-as rules, sticky bits written 1
clear, and a 32-bit counter written 0 clears (R10, R11, R489). -/
def store (s : State) (a : Nat) (v : Word) : State :=
  match regAt a with
  | none => s
  | some (r, _) =>
    if r.count32 then (if v = 0 then wr s a 0 else s)
    else
      let kept := storedWord r r.rw (rd s a) v
      wr s a (kept &&& ~~~(v &&& BitVec.ofNat 32 r.w1c))

/-- A write by a command of its own: every bit of a mask is stored under the stored-as rules. -/
def storeMask (s : State) (a mask : Nat) (v : Word) : State :=
  match regAt a with
  | none => s
  | some (r, _) => wr s a (storedWord r mask (rd s a) v)

/-- A 32-bit drop and error counter grows, saturating, with the SAT bit of its block (R487, R489). -/
def bump (s : State) (a n : Nat) : State :=
  let v := min full ((rd s a).toNat + n)
  let s1 := wr s a (BitVec.ofNat 32 v)
  if v = full then
    match blockOf a with
    | some b => orReg s1 0x1500040 (2 ^ b)
    | none => s1
  else s1

/-- A 64-bit statistics counter grows and wraps (R487); the counter is named by the address of its low word. -/
def statInc (s : State) (a n : Nat) : State :=
  { s with stat := tset (fun _ => 0) s.stat a (tget (fun _ => 0) s.stat a + BitVec.ofNat 64 n) }

def statGet (s : State) (a : Nat) : BitVec 64 := tget (fun _ => 0) s.stat a

/-- An output is recorded. -/
def emit (s : State) (o : Out) : State := { s with out := o :: s.out }

/-- The TAI second of the counter. -/
def nowSec (s : State) : Nat := secOf s.tb.counter

/-- The stamp of the present instant in 1/16 ns. -/
def nowT16 (s : State) : Nat := t16Of s.tb.counter

/-- The short stamp of the present instant (R40). -/
def nowShort (s : State) : Nat := shortOf s.tb.counter

/-! ## Rings (R303 to R309) -/

def ringA (r : Nat) : Nat := 0xE01000 + 0x20 * r

def ringOf (s : State) (r : Nat) : Ring := tget (fun _ => Ring.cold) s.hif.rings r

def setRing (s : State) (r : Nat) (g : Ring) : State :=
  { s with hif := { s.hif with rings := tset (fun _ => Ring.cold) s.hif.rings r g } }

/-- Entries of a ring (R304). -/
def ringSize (s : State) (r : Nat) : Nat := 2 ^ rf s (ringA r + 0x10) 1 5

/-- The MSI-X vector of a ring (R325). -/
def ringVec (s : State) (r : Nat) : Nat := rf s (ringA r + 0x10) 6 6

/-- Written completions that the host has not read. -/
def ringUsed (g : Ring) : Nat := (g.q - g.c).toNat

/-- Completions that may be written now (R308). -/
def ringFree (s : State) (r : Nat) : Nat :=
  let g := ringOf s r
  if g.st = .running then ringSize s r - 1 - ringUsed g else 0

/-- The rings that take no descriptors. -/
def isRecordRing (r : Nat) : Bool := decide (156 ≤ r ∧ r ≤ 175)

/-! ## Host memory (R300) -/

/-- The requests that move n bytes at an address, none longer than `most` or across a multiple of it. -/
def splitTlps (most : Nat) (relaxed : Bool) : Nat → Nat → Nat → List Tlp
  | 0, _, _ => []
  | fuel + 1, addr, n =>
    if n = 0 then []
    else
      let k := min n (most - addr % most)
      { addr := addr % 2 ^ 64, len := k, relaxed := relaxed } :: splitTlps most relaxed fuel (addr + k) (n - k)

/-- The host address in a descriptor at a byte offset. -/
def descAddr (d : Bytes) (o : Nat) : Nat := leNat (subPad d o 8)

/-- The address that two registers hold. -/
def addrPair (s : State) (a : Nat) : Nat := (rd s a).toNat + (rd s (a + 4)).toNat * 2 ^ 32

/-- The request that writes the completion at Q: never with Relaxed Ordering (R300, R304). -/
def complTlp (s : State) (r : Nat) : Tlp :=
  { addr := addrPair s (ringA r + 8) + 32 * ((ringOf s r).q.toNat % ringSize s r), len := 32, relaxed := false }

/-- The request of an MSI-X message: never with Relaxed Ordering (R300, R329). -/
def msixTlp (s : State) (v : Nat) : Tlp := { addr := addrPair s (0xE08000 + 0x10 * v), len := 4, relaxed := false }

/-- The data word of an MSI-X message. -/
def msixData (s : State) (v : Nat) : Word := rd s (0xE08008 + 0x10 * v)

/-! ## MSI-X (R325, R326) -/

def vecOf (s : State) (v : Nat) : Vec := tget (fun _ => Vec.cold) s.hif.vecs v

def setVec (s : State) (v : Nat) (x : Vec) : State :=
  { s with hif := { s.hif with vecs := tset (fun _ => Vec.cold) s.hif.vecs v x } }

/-- The vector is masked: by its bit in the MSI-X table or by the Function Mask (R326). -/
def vecMasked (s : State) (v : Nat) : Bool := s.hif.funcMask || rb s (0xE0800C + 0x10 * v) 0

/-- An armed ring of the vector holds a completion beyond its C. -/
def vecDue (s : State) (v : Nat) : Bool :=
  s.hif.rings.any fun e => e.2.armed && decide (ringVec s e.1 = v) && decide (e.2.q ≠ e.2.c)

/-- The vector fires: the message goes out and every ring mapped to it is disarmed; a masked vector sets its pending
bit instead. -/
def vecFire (s : State) (v : Nat) : State :=
  if vecMasked s v then setVec s v { vecOf s v with pba := true }
  else
    let rings := s.hif.rings.map fun e =>
      if ringVec s e.1 = v then (e.1, { e.2 with armed := false }) else e
    let s1 := { s with hif := { s.hif with rings := rings } }
    emit (setVec s1 v Vec.cold) (.msix v (msixTlp s v) (msixData s v))

/-- The vector becomes pending, and fires at once where TIME is 0 or COUNT is reached. -/
def vecRaise (s : State) (v n : Nat) : State :=
  let x := vecOf s v
  let x1 : Vec := if x.pending then { x with count := x.count + n }
    else { pending := true, since := s.tb.ticks, count := n, pba := x.pba }
  let s1 := setVec s v x1
  let mod := rd s (0xE00100 + 4 * v)
  if fld mod 0 16 = 0 ∨ fld mod 16 16 ≤ x1.count then vecFire s1 v else s1

/-- A pending vector none of whose armed rings holds a completion any more is pending no longer, and its count ends
(R325, R326). -/
def vecSettle (s : State) (v : Nat) : State :=
  if (vecOf s v).pending && !vecDue s v then setVec s v { vecOf s v with pending := false, count := 0 } else s

/-- A completion was written to a ring: its vector hears of it if the ring is armed. -/
def noteCompl (s : State) (r : Nat) : State :=
  if (ringOf s r).armed then vecRaise s (ringVec s r) 1 else s

/-! ## Performance counters (R490) -/

def pmcOf (s : State) (k : Nat) : PmcCnt := tget (fun _ => PmcCnt.cold) s.pmc k

def setPmc (s : State) (k : Nat) (p : PmcCnt) : State :=
  { s with pmc := tset (fun _ => PmcCnt.cold) s.pmc k p }

/-- The signals whose qualifier is ignored (R490). -/
def qualIgnored (signal : Nat) : Bool := [0x201, 0x202, 0x205, 0x206, 0x207].contains signal

/-- The counters that an occurrence of a signal at a qualifier advances: enabled, edge mode, not frozen. -/
def pmcCounting (s : State) (signal qual : Nat) : List Nat :=
  if rb s 0x1600000 0 then [] else
  s.regs.filterMap fun e =>
    if 0x1600100 ≤ e.1 ∧ e.1 < 0x1600500 ∧ e.1 % 16 = 0 ∧ fld e.2 0 10 = signal ∧ flag e.2 11 = true
        ∧ flag e.2 10 = false ∧ (signal < 384 ∨ qualIgnored signal = true ∨ fld e.2 16 5 = 31 ∨ fld e.2 16 5 = qual) then
      some ((e.1 - 0x1600100) / 16)
    else none

/-- A counter advances; the flag says that it wrapped with OVF_EVT set. -/
def pmcAdd (s : State) (k n : Nat) : State × Bool :=
  let p := pmcOf s k
  let t := p.val.toNat + n
  let wraps := decide (2 ^ 48 ≤ t)
  (setPmc s k { p with val := BitVec.ofNat 48 t, ovf := p.ovf || wraps },
   wraps && rb s (0x1600100 + 0x10 * k) 13)

/-- Counters advance in turn; the list names those that raise PMC_OVF. -/
def pmcAddAll (n : Nat) : List Nat → State → State × List Nat
  | [], s => (s, [])
  | k :: ks, s =>
    let (s1, o) := pmcAdd s k n
    let (s2, os) := pmcAddAll n ks s1
    (s2, if o then k :: os else os)

/-- A completion moved n bytes of host DMA (R490). A wrap sets OVF; its PMC_OVF is raised with the next tick, since a raise
is itself delivered by a completion (log entry 129). -/
def dmaBytes (s : State) (n : Nat) : State :=
  let (s1, ovfs) := pmcAddAll n (pmcCounting s 0x207 31) s
  { s1 with evt := { s1.evt with ovfDue := s1.evt.ovfDue + ovfs.length } }

/-! ## Completions (R308, R309, R315, R320) -/

/-- A completion is written at Q: index, status, phase and body. -/
def writeCompl (s : State) (r idx status : Nat) (body : Bytes) : State :=
  let g := ringOf s r
  let size := ringSize s r
  let lastSlot := decide (g.q.toNat % size = size - 1)
  let s1 := setRing s r { g with q := g.q + 1, phase := if lastSlot then !g.phase else g.phase }
  noteCompl (emit (dmaBytes s1 32) (.completion r idx status g.phase (subPad body 0 24) (complTlp s r))) r

/-- The completions of PKE, mint and Loam commands wait for the control cluster, while it restarts or has no clock (R17,
R456). -/
def ctrlHolds (s : State) (r : Nat) : Bool :=
  decide (128 ≤ r ∧ r ≤ 155) && (decide (s.glb.ctrlUntil ≠ 0) || !clkRuns s.clk.ctrl)

/-- The finished completions of a descriptor ring are written in index order while the ring has space; those that need the
control cluster wait for it. -/
def flushCompl : Nat → State → Nat → State
  | 0, s, _ => s
  | n + 1, s, r =>
    let g := ringOf s r
    if (g.st = .running ∨ g.st = .stopping) ∧ ringUsed g < ringSize s r - 1 ∧ ctrlHolds s r = false then
      match g.compl.find? (fun c => decide (c.idx = g.q.toNat)) with
      | none => s
      | some c =>
        let s1 := setRing s r { g with compl := g.compl.filter (fun d => decide (d.idx ≠ c.idx)) }
        flushCompl n (writeCompl s1 r c.idx c.status c.body) r
    else s

/-- A descriptor of a ring is completed: its completion takes its turn (R308, R320). -/
def complete (s : State) (r idx status : Nat) (body : Bytes) : State :=
  let g := ringOf s r
  if g.st = .running ∨ g.st = .stopping then
    let compl := g.compl ++ [{ idx := idx, status := status, body := body : Compl }]
    let g1 := { g with compl := compl, fetched := g.fetched.filter (fun f => decide (f.idx ≠ idx)) }
    flushCompl compl.length (setRing s r g1) r
  else s

/-- A record of a record ring that is not an event ring; a full ring drops it and counts it (R308). -/
def writeRecord (s : State) (r : Nat) (body : Bytes) : State :=
  let g := ringOf s r
  if g.st = .running then
    if 1 ≤ ringFree s r then writeCompl s r g.q.toNat stOk body else bump s (ringA r + 0x1C) 1
  else s

/-- Whether a record ring takes a record now. -/
def recordFits (s : State) (r : Nat) : Bool := decide ((ringOf s r).st = .running) && decide (1 ≤ ringFree s r)

/-! ## Event records (R479, R480, R483) -/

def srcCfg (s : State) (id : Nat) : Word := rd s (0x1501000 + 4 * id)
def srcRing (s : State) (id : Nat) : Nat := 160 + fld (srcCfg s id) 0 3
def srcEn (s : State) (id : Nat) : Bool := flag (srcCfg s id) 3
def siltN (s : State) (id : Nat) : Nat := fld (srcCfg s id) 8 8
def siltW (s : State) (id : Nat) : Nat := fld (srcCfg s id) 16 16

/-- The 24 body bytes of one event record (R480). -/
def eventBody (typ id sev part parts drops stamp : Nat) (payload : Bytes) : Bytes :=
  leBytes 2 typ ++ leBytes 2 id
  ++ [BitVec.ofNat 8 (classOf id + 4 * (if classOf id = 1 then sev else 0) + 16 * part), BitVec.ofNat 8 (parts - 1)]
  ++ leBytes 2 drops ++ leBytes 4 stamp ++ subPad payload 0 12

def ringDropOf (s : State) (r : Nat) : Nat := tget (fun _ => 0) s.evt.ringDrop r

def setRingDrop (s : State) (r n : Nat) : State :=
  { s with evt := { s.evt with ringDrop := tset (fun _ => 0) s.evt.ringDrop r (min 0xFFFF n) } }

def setCoal (s : State) (r : Nat) (b : Bool) : State :=
  { s with evt := { s.evt with coal := tset (fun _ => false) s.evt.coal r b } }

/-- The last 64 records of each event ring stay at hand for the TRACE record (R486). -/
def noteRecent (s : State) (r : Nat) (body : Bytes) : State :=
  let l := (body :: tget (fun _ => []) s.evt.recent r).take 64
  { s with evt := { s.evt with recent := tset (fun _ => []) s.evt.recent r l } }

def setRun (s : State) (r : Nat) (x : Nat × Nat) : State :=
  { s with evt := { s.evt with run := tset (fun _ => (0, 0)) s.evt.run r x } }

/-- One event record is written: it carries the ring's drop count, which starts again. -/
def writeEvent (s : State) (r typ id sev part parts stamp : Nat) (payload : Bytes) : State :=
  let body := eventBody typ id sev part parts (ringDropOf s r) stamp payload
  let s1 := noteRecent (setCoal (setRingDrop s r 0) r false) r body
  writeCompl (if typ = 0x71 then s1 else setRun s1 r (0, 0)) r (ringOf s r).q.toNat stOk body

/-- The parts of one event are written together. -/
def writeParts (r typ id sev parts stamp : Nat) : Nat → State → Bytes → State
  | 0, s, _ => s
  | n + 1, s, payload =>
    writeParts r typ id sev parts stamp n
      (writeEvent s r typ id sev (parts - 1 - n) parts stamp payload) (payload.drop 12)

/-- The bodies of a ring's last n completions among the outputs, newest first. -/
def lastBodies : Nat → Nat → List Out → List Bytes
  | 0, _, _ => []
  | _, _, [] => []
  | n + 1, r, .completion q _ _ _ b _ :: rest => if q = r then b :: lastBodies n r rest else lastBodies (n + 1) r rest
  | n + 1, r, _ :: rest => lastBodies (n + 1) r rest

/-- A ring's last completions take other bodies, newest first. -/
def putBodies (r : Nat) : List Bytes → List Out → List Out
  | [], os => os
  | _, [] => []
  | b :: bs, .completion q i st ph c t :: rest =>
    if q = r then .completion q i st ph b t :: putBodies r bs rest else .completion q i st ph c t :: putBodies r (b :: bs) rest
  | bs, o :: rest => o :: putBodies r bs rest

/-- A record's place among records of ascending ID, behind those of its own ID. -/
def insertRec (x : Bytes) : List Bytes → List Bytes
  | [] => [x]
  | y :: ys => if leNat (sub x 2 2) < leNat (sub y 2 2) then x :: y :: ys else y :: insertRec x ys

/-- Records in ascending order of their IDs; the drop count of bytes 6 and 7 stays in its place. -/
def sortRecs (bs : List Bytes) : List Bytes :=
  (bs.zip (bs.foldl (fun l x => insertRec x l) [])).map fun e => e.2.take 6 ++ sub e.1 6 2 ++ e.2.drop 8

/-- The event records that a ring has taken in one tick stand in ascending ID order (R479). -/
def tickOrder (s : State) (r parts : Nat) : State :=
  let (t, n) := tget (fun _ => (0, 0)) s.evt.run r
  let m := if t = s.tb.ticks then n + parts else parts
  let s1 := setRun s r (s.tb.ticks, m)
  if m = parts then s1
  else
    let new := (sortRecs (lastBodies m r s.out).reverse).reverse
    let l := new ++ (tget (fun _ => []) s.evt.recent r).drop m
    { s1 with out := putBodies r new s.out, evt := { s1.evt with recent := tset (fun _ => []) s1.evt.recent r (l.take 64) } }

/-- The parts of one raise are written together; those of one tick in ascending ID order. -/
def writeTogether (s : State) (r typ id sev parts stamp : Nat) (payload : Bytes) : State :=
  let s1 := writeParts r typ id sev parts stamp parts s payload
  if typ = 0x71 then tickOrder s1 r parts else s1

/-- The key of a ring's pending count of a source. -/
def pendKey (r id : Nat) : Nat := r * 512 + id

def pendingOn (s : State) (r : Nat) : List (Nat × Pend) := s.evt.pend.filter fun e => decide (e.1 / 512 = r)

def severityNow (id : Nat) : Nat := (severity? id).getD 0

/-- Freed slots first take the pending counts, in ascending ID order (R483). -/
def flushPend : Nat → State → Nat → State
  | 0, s, _ => s
  | n + 1, s, r =>
    if 1 ≤ ringFree s r then
      match pendingOn s r with
      | [] => s
      | (k, p) :: _ =>
        let s1 := { s with evt := { s.evt with pend := tdel s.evt.pend k } }
        let body := leBytes 2 p.n ++ leBytes 4 p.first ++ leBytes 4 p.last
        flushPend n (writeEvent s1 r 0x73 (k % 512) (severityNow (k % 512)) 0 1 (nowShort s) body) r
    else s

/-- The pending counts of a ring that leaves RUNNING are discarded into EVT_DISCARD (R483). -/
def dropPend (s : State) (r : Nat) : State :=
  let n := (pendingOn s r).foldl (fun m e => m + e.2.n) 0
  let s1 := setRun { s with evt := { s.evt with pend := s.evt.pend.filter (fun e => decide (e.1 / 512 ≠ r)) } } r (0, 0)
  if n = 0 then s1 else bump s1 0x1500044 n

/-- An event or summary waits as a count (R483). -/
def coalesce (s : State) (r id stamp : Nat) : State :=
  let p := tget (fun _ => Pend.cold) s.evt.pend (pendKey r id)
  let p1 : Pend := if p.n = 0 then { n := 1, first := stamp, last := stamp }
    else { p with n := min 0xFFFF (p.n + 1), last := stamp }
  setRingDrop { s with evt := { s.evt with pend := tset (fun _ => Pend.cold) s.evt.pend (pendKey r id) p1 } } r
    (ringDropOf s r + 1)

/-- What became of a record offered to an event ring. -/
structure Delivery where
  s : State
  startsCoalescing : Bool
  ring : Nat

/-- Delivery of the records of one raise or window (R479, R483). -/
def deliver (s : State) (typ id sev stamp : Nat) (payload : Bytes) : Delivery :=
  let r := srcRing s id
  if srcEn s id = false ∨ (ringOf s r).st ≠ .running then
    { s := bump s 0x1500044 1, startsCoalescing := false, ring := r }
  else
    let s1 := flushPend (pendingOn s r).length s r
    let parts := max 1 (ceilDiv payload.length 12)
    let free := ringFree s1 r
    let waiting := !(pendingOn s1 r).isEmpty
    if classOf id = 2 then
      if waiting ∨ free < parts + rf s1 0x1500000 0 8 then
        let s2 := setRingDrop s1 r (ringDropOf s1 r + 1)
        { s := if free = 0 then bump s2 (ringA r + 0x1C) 1 else s2, startsCoalescing := false, ring := r }
      else { s := writeTogether s1 r typ id sev parts stamp payload, startsCoalescing := false, ring := r }
    else if waiting ∨ free < parts then
      { s := setCoal (coalesce s1 r id stamp) r true,
        startsCoalescing := !(tget (fun _ => false) s1.evt.coal r), ring := r }
    else { s := writeTogether s1 r typ id sev parts stamp payload, startsCoalescing := false, ring := r }

/-! ## Silt (R481, R482) -/

def siltOf (s : State) (id : Nat) : Silt := tget (fun _ => Silt.cold) s.evt.silt id

def setSilt (s : State) (id : Nat) (x : Silt) : State :=
  { s with evt := { s.evt with silt := tset (fun _ => Silt.cold) s.evt.silt id x } }

/-- The window of a source after one more raise; in normal mode an expired window gives way to a new one. -/
def siltRaise (s : State) (id : Nat) : Silt :=
  let x := siltOf s id
  let live := x.summary || (x.win && decide (s.tb.ticks < x.start + siltW s id * ticksPerMs))
  let y : Silt := if live then { x with raises := x.raises + 1 }
    else { summary := false, win := true, start := s.tb.ticks, raises := 1, undelivered := 0 }
  if id ≠ 48 ∧ (y.summary = true ∨ siltN s id < y.raises) then
    { y with summary := true, undelivered := y.undelivered + 1 }
  else y

/-! ## The alarm table (R484 to R486) -/

def alarmOf (s : State) (e : Nat) : Alarm := tget (fun _ => Alarm.cold) s.evt.alarms e

def setAlarm (s : State) (e : Nat) (a : Alarm) : State :=
  let a1 := if a.active = false ∧ a.unack = false then Alarm.cold else a
  { s with evt := { s.evt with alarms := tset (fun _ => Alarm.cold) s.evt.alarms e a1 } }

/-- The entry that holds an alarm source. -/
def alarmEntry? (s : State) (id : Nat) : Option Nat :=
  (s.evt.alarms.find? fun e => e.2.used && decide (e.2.id = id)).map (·.1)

/-- The lowest free entry. -/
def alarmFree (s : State) : Nat :=
  ((List.range 128).find? fun e => !(alarmOf s e).used).getD 127

/-- The table entry follows a raise: severity, ACTIVE, UNACK, count, mask and stamps. -/
def alarmRaise (s : State) (id inst sev : Nat) : State :=
  let bit : Word := BitVec.ofNat 32 (2 ^ (inst % 32))
  let act := !oneShot id
  let s1 := match alarmEntry? s id with
    | some e =>
      let a := alarmOf s e
      setAlarm s e { a with sev := max a.sev sev, active := a.active || act, unack := true,
                            count := min 0xFFFF (a.count + 1), mask := a.mask ||| bit, last := s.tb.counter }
    | none =>
      setAlarm s (alarmFree s) { used := true, id := id, sev := sev, active := act, unack := true, count := 1,
                                 mask := bit, first := s.tb.counter, last := s.tb.counter }
  if 2 ≤ sev then { s1 with evt := { s1.evt with traceDue := true } } else s1

/-- The condition of an alarm source has ended (R485). -/
def alarmClear (s : State) (id : Nat) : State :=
  match alarmEntry? s id with
  | some e => setAlarm s e { alarmOf s e with active := false }
  | none => s

/-- ALARM_N is asserted (R486). -/
def alarmLow (s : State) : Bool :=
  s.evt.alarms.any fun e =>
    e.2.used && (e.2.active || e.2.unack) && decide (rf s 0x1500010 0 2 ≤ e.2.sev)

/-! ## Raising an event -/

/-- A raise: performance counters, alarm table, Silt window and delivery; then EVT_COALESCE and PMC_OVF where it
caused them. The depth bounds that chain: a PMC_OVF raise wraps a counter at most once more. -/
def raiseFuel : Nat → State → Nat → Nat → Nat → Bytes → State
  | 0, s, _, _, _, _ => s
  | n + 1, s, id, inst, sev, payload =>
    let (s1, ovfs) := pmcAddAll 1 (pmcCounting s id 31) s
    let s2 := if classOf id = 1 ∧ sev ≠ 0 then alarmRaise s1 id inst sev else s1
    let y := siltRaise s2 id
    let s3 := setSilt s2 id y
    let d : Delivery := if y.summary then { s := s3, startsCoalescing := false, ring := 0 }
      else deliver s3 0x71 id sev (nowShort s3) payload
    let s4 := if d.startsCoalescing then raiseFuel n d.s 368 0 0 [] else d.s
    ovfs.foldl (fun t _ => raiseFuel n t 369 0 0 []) s4

/-- A raised event of a source with the instance it carries, a severity and its payload; a raise of severity 0 of an alarm
source is no alarm (R485). Nothing but the event
machinery, the performance counters, the event rings and the outputs can change. -/
def raiseSev (s : State) (id inst sev : Nat) (payload : Bytes) : State :=
  let t := raiseFuel 4 s id inst sev payload
  { s with evt := t.evt, pmc := t.pmc, hif := t.hif, out := t.out, regs := t.regs }

/-- A raise at the severity of R485. -/
def raise (s : State) (id inst : Nat) (payload : Bytes) : State :=
  raiseSev s id inst (severityNow id) payload

/-- A raise whose payload is numbers, each in a 32-bit word, in the order in which the chapter lists them. -/
def raiseN (s : State) (id inst : Nat) (nums : List Nat) : State := raise s id inst (wordsLe nums)

/-- A raise limited to once per second of elapsed time for each limiter (R536). -/
def raiseLim (s : State) (id inst lim : Nat) (nums : List Nat) : State :=
  let k := id * 4096 + lim
  let prev := tget (fun _ => 0) s.evt.lim k
  if prev ≠ 0 ∧ s.tb.ticks + 1 < prev + ticksPerSec then s
  else raiseN { s with evt := { s.evt with lim := tset (fun _ => 0) s.evt.lim k (s.tb.ticks + 1) } } id inst nums

/-- A signal other than an event raise occurs n times (R490). -/
def pmcSignal (s : State) (signal qual n : Nat) : State :=
  let (s1, ovfs) := pmcAddAll n (pmcCounting s signal qual) s
  ovfs.foldl (fun t _ => raiseN t 369 0 []) s1

/-! ## Host memory (R300, R490) -/

/-- Bytes go to a host buffer, in requests of at most Max_Payload_Size. -/
def hostWrite (s : State) (r idx addr : Nat) (b : Bytes) : State :=
  pmcSignal (emit s (.hostWrite r idx
    (splitTlps s.hif.mps (Config.relaxedWrite s.tb.ticks) (b.length / s.hif.mps + 2) addr b.length) b)) 0x207 31 b.length

/-- Host memory is read, in requests of at most Max_Read_Request_Size. -/
def hostRead (s : State) (r idx addr n : Nat) : State :=
  pmcSignal (emit s (.hostRead r idx (splitTlps s.hif.mrrs false (n / s.hif.mrrs + 2) addr n) s.hif.tag10)) 0x207 31 n

/-- The wraps of counters of host DMA bytes that completions brought about raise PMC_OVF (R490; log entry 129). -/
def raiseOvf (s : State) : State :=
  (List.replicate s.evt.ovfDue 0).foldl (fun t _ => raiseN t 369 0 []) { s with evt := { s.evt with ovfDue := 0 } }

/-! ## Ring errors (R321) -/

/-- A ring enters ERROR: no completions, its queued frames are flushed, HIF_RING_ERROR is raised. -/
def ringError (s : State) (r cause : Nat) : State :=
  let g := ringOf s r
  let s0 := dropPend s r
  let s1 := setRing s0 r { g with st := .error, cause := cause, fetched := [], compl := [] }
  let purge := fun (q : List TxItem) => q.filter fun i =>
    match i.src with
    | .host ring _ _ _ => decide (ring ≠ r)
    | _ => true
  let s2 := { s1 with lp := s1.lp.map (fun e => (e.1, { e.2 with queue := purge e.2.queue })),
                      mg := { s1.mg with queue := purge s1.mg.queue } }
  raiseN s2 272 r [r, cause]

/-- An access error of the host interface (R9, R305). -/
def accessError (s : State) : State := raiseLim (bump s 0xE00004 1) 276 0 0 []

/-- A failed host-memory access (R331). -/
def dmaError (s : State) (r : Nat) : State := raiseLim (bump s 0xE00008 1) 275 0 r []

end Sys2Proof.Machine
end

