-- ==== Sys2Proof/Machine/Serving.lean ====
section
/-! DEFINITION. TIME_VALID and what hangs on it: the serve states of RSP and NTS, held rotations, the user counter
page, and phase steps of the counter with their anchor and events (R43, R53 to R55, R72, R99, R109). -/

namespace Sys2Proof.Machine

/-- The user counter page is updated: SEQ moves by two (R327). -/
def userTouch (s : State) : State := { s with hif := { s.hif with userSeq := (s.hif.userSeq + 2) % 2 ^ 32 } }

def laneOf (s : State) (k : Nat) : Lane := tget (fun _ => Lane.cold) s.rsp.lanes k

def setLane (s : State) (k : Nat) (x : Lane) : State :=
  { s with rsp := { s.rsp with lanes := tset (fun _ => Lane.cold) s.rsp.lanes k x } }

/-- The keep-alive RTC in 1/32,768 s: it counts on from its last setting, whatever supplies the domain (R385). -/
def rtcNow (s : State) : Nat :=
  (s.loam.rtcBase + (s.tb.ticks - s.loam.rtcTick) * 32768 / ticksPerSec) % (2 ^ 48 * 32768)

/-- A lane is healthy: enabled in RSP_LANE_EN, not faulty (R243, R244). -/
def laneHealthy (s : State) (k : Nat) : Bool := rb s 0xB00008 k && !(laneOf s k).faulty

/-- The log of a rollback is still to be written: nothing serves before it is (R396). -/
def rollbackPending (s : State) : Bool :=
  s.loam.queue.any (fun c => decide (c.by_ = .trial)) || (s.loam.cur.map fun c => decide (c.req.by_ = .trial)).getD false

/-- The responder is held: a class is UNREADABLE or the image runs on fallback defaults, and START_ON_DEFAULTS is 0
(R394, R395); or a rollback is not over (R396). -/
def fwHeld (s : State) : Bool :=
  ((decide (s.loam.unreadable ≠ 0) || decide (s.loam.runState = 2)) && !rb s 0x40 0) || rollbackPending s

/-- A Mitten unit that does not serve (R418). -/
def mitHeld (s : State) : Bool :=
  match s.mit.st with
  | .standby | .ready | .isolated => true
  | .pairing => !s.mit.serving
  | _ => false

/-- The responder, scheduler, address answering and NTS lanes are held, whatever their settings (R394, R418, R505); CORE
stands where its clock is lost, or its switch hung without the mux watchdog (R456, R458). -/
def held (s : State) : Bool :=
  fwHeld s || mitHeld s || decide (s.glb.recovery = 2) || decide (s.clk.core = .stopped ∨ s.clk.core = .stuck)

/-- The responder runs: RSP_CTL.EN, and nothing holds it. -/
def rspEn (s : State) : Bool := rb s 0xB00000 0 && !held s

/-- A step of the start-up timeline is reached (R508). -/
def noteStep (s : State) (n : Nat) : State :=
  if 4 ≤ s.glb.step then { s with glb := { s.glb with step := max s.glb.step n } } else s

/-- RSP_STATUS.SERVING (R244). -/
def rspServes (s : State) : Bool := rspEn s && (List.range 16).any (laneHealthy s)

/-- A planner unit takes a state. -/
def setUnit (s : State) (k st : Nat) : State :=
  { s with clk := { s.clk with units := tset (fun _ => 0) s.clk.units k st } }

def slotOf (s : State) (k : Nat) : KeySlot := tget (fun _ => KeySlot.cold) s.nts.slots k

/-- The slot of the CURRENT generation. -/
def curSlot? (s : State) : Option Nat := (List.range 8).find? fun k => decide ((slotOf s k).st = .current)

/-- NTS_STATUS.SERVING (R272). -/
def ntsServes (s : State) : Bool :=
  rb s 0xC00000 0 && s.ent.ready && (curSlot? s).isSome && !s.nts.conflict && s.tb.timeValid && !held s && !s.nts.staleDown

/-- The serve states are looked at again; each change raises its event (R250, R281). -/
def refreshServing (s : State) : State :=
  let a := rspServes s
  let s1 := if a = s.rsp.serving then s
    else raiseN { s with rsp := { s.rsp with serving := a } } 238 0 []
  let b := ntsServes s1
  if b = s1.nts.serving then s1
  else raiseN { s1 with nts := { s1.nts with serving := b } } 248 0 []

/-- A rotation starts, or is held while another rotation or key command runs (R269). -/
def beginRotation (s : State) (cmd : Option KeyCmd) (first : Bool) : State :=
  if s.nts.phase = .idle then
    { s with nts := { s.nts with phase := .draw, cmd := cmd, first := first } }
  else { s with nts := { s.nts with held := s.nts.held ++ [cmd] } }

/-- The device takes its offset from the Mitten active unit (R86, R421). -/
def mitStandby (s : State) : Bool := decide (s.mit.st = .standby ∨ s.mit.st = .ready ∨ s.mit.st = .isolated)

/-- The Mitten standby is READY while its conditions hold (R421). A READY unit whose lane goes down stays READY until R423
decides. -/
def mitReadyCheck (s : State) : State :=
  let ok := !s.nts.stale && s.tb.timeValid && decide (16 ≤ s.mit.lock)
  if (s.mit.st = .standby ∨ s.mit.st = .isolated) ∧ s.mit.linkUp = true ∧ ok = true then
    alarmClear (raiseN { s with mit := { s.mit with st := .ready } } 352 0 []) 353
  else if s.mit.st = .ready ∧ ok = false then
    raiseN { s with mit := { s.mit with st := .standby } } 352 0 []
  else s

/-- TIME_VALID takes a value: the pin and the user page follow, a fall clears the build-out, a rise releases a held
rotation of a unit that is no standby, a standby's READY follows, and the event is raised; only a fall is an alarm (R54,
R55, R109, R268, R274, R421, R485). -/
def setValid (s : State) (v : Bool) : State :=
  if s.tb.timeValid = v then s else
  let s1 : State := { s with tb := { s.tb with timeValid := v, everValid := s.tb.everValid || v } }
  let s2 := if v then s1 else { s1 with ref := { s1.ref with bo := 0 } }
  let s3 := if v then alarmClear (raiseSev s2 49 0 0 []) 49 else raiseN s2 49 0 []
  let s4 := mitReadyCheck (refreshServing (userTouch (if v && s.ent.ready then noteStep s3 8 else s3)))
  if v ∧ s4.nts.dueHeld = true ∧ mitStandby s4 = false then
    beginRotation { s4 with nts := { s4.nts with dueHeld := false } } none false
  else s4

/-- The servo mode codes (R67). -/
def tbMode (s : State) : Nat := rf s 0x300000 0 2

/-- The device is a Brim member other than the leader: its servo follows the ring (R86, R407). -/
def brimMember (s : State) : Bool :=
  decide (s.brim.st = .ring ∨ s.brim.st = .line) &&
  match s.brim.leader with
  | some l => decide (s.brim.members.getD l 0 ≠ s.fuse.brimId)
  | none => false

/-- The leader has a reference of its own: its eQL is not 15, and it is this member that the ring reaches (R22, R412). -/
def leaderRefs (s : State) : Bool := (s.brim.leader.map fun l => decide (s.brim.eqls.getD l 15 < 15)).getD false

/-- The source of the servo's offset: a candidate ID, 8 for the ring, 9 for the pair, 7 for none. A standby without its
lane, and a member that no ring offset reaches or whose leader has no reference, have none and run in holdover (R22, R407,
R416, R421). -/
def servoSource (s : State) : Nat :=
  if mitStandby s then (if s.mit.linkUp then 9 else 7)
  else if brimMember s then (if s.brim.fresh && leaderRefs s then 8 else 7)
  else s.ref.tsel

def candOf (s : State) (i : Nat) : Cand := tget (fun _ => Cand.cold) s.ref.cands i

def setCand (s : State) (i : Nat) (c : Cand) : State :=
  { s with ref := { s.ref with cands := tset (fun _ => Cand.cold) s.ref.cands i c } }

/-- REF reports a qualified time reference (R53, R68, R103). -/
def refQualified (s : State) : Bool := (List.range 4).any fun i => decide ((candOf s i).stT = .qualified)

/-- The first criterion of R53; for a Brim member and a Mitten standby it reads as the offset of the ring or the pair
being available (R407, R421). -/
def timeReference (s : State) : Bool :=
  if mitStandby s || brimMember s then decide (servoSource s ≠ 7) else refQualified s

/-- R53: TIME_VALID rises when the last of its criteria is met. -/
def tryRise (s : State) : State :=
  if s.tb.timeValid = false ∧ timeReference s = true ∧ s.tb.forceInvalid = false
      ∧ ¬(tbMode s = 2 ∧ s.tb.stepArmed = true) ∧ rf s 0x300000 8 4 ≤ s.tb.good then setValid s true
  else s

/-- The anchor registers take the present counter value (R41, R43). -/
def latchAnchor (s : State) : State :=
  { s with tb := { s.tb with anchorNs := nsOf s.tb.counter, anchorSec := secOf s.tb.counter,
                             anchorStep := s.tb.stepCnt } }

/-- The anchor's payload (R41). -/
def anchorPayload (s : State) : Bytes :=
  leBytes 4 s.tb.anchorNs ++ leBytes 4 (s.tb.anchorSec % 2 ^ 32) ++ leBytes 2 (s.tb.anchorSec / 2 ^ 32)
  ++ leBytes 1 s.tb.anchorStep.toNat ++ [0]

/-- TB_UTC_OFS (R57). -/
def utcOfs (s : State) : Int := rsf s 0x300080 0 16

/-- The UTC seconds since 1970 of the present instant. -/
def utcSec (s : State) : Int := (nowSec s : Int) - utcOfs s

/-- LEAP_EXPIRED is evaluated; a change to 1 raises TB_LEAP_EXPIRED (R59). -/
def checkExpiry (s : State) : State :=
  let e := decide (((rd s 0x300084).toNat : Int) ≤ utcSec s)
  if e = s.tb.leapExpired then s
  else
    let s1 : State := { s with tb := { s.tb with leapExpired := e } }
    if e then raiseN s1 55 0 [] else s1

def ppsOf (s : State) (p : Nat) : PpsIn := tget (fun _ => PpsIn.cold) s.ref.pps p

def setPps (s : State) (p : Nat) (x : PpsIn) : State :=
  { s with ref := { s.ref with pps := tset (fun _ => PpsIn.cold) s.ref.pps p x } }

/-! ## Civil dates (R59: the end of the current UTC month) -/

/-- The end of the UTC month of an instant, in UTC seconds since 1970. -/
def monthEndFrom (utc : Nat) : Nat :=
  let days := utc / 86400
  let z := days + 719468
  let doe := z % 146097
  let yoe := (doe - doe / 1460 + doe / 36524 - doe / 146096) / 365
  let doy := doe - (365 * yoe + yoe / 4 - yoe / 100)
  let mp := (5 * doy + 2) / 153
  let y1 := yoe + 1
  let yearLen := if y1 % 4 = 0 ∧ (y1 % 100 ≠ 0 ∨ y1 % 400 = 0) then 366 else 365
  let next := if mp < 11 then (153 * (mp + 1) + 2) / 5 else yearLen
  (days + (next - doy)) * 86400

/-- The end of the current UTC month of an instant of any sign: an offset before the epoch lies in December 1969. -/
def monthEnd (utc : Int) : Nat := if utc < 0 then 0 else monthEndFrom utc.toNat

/-! ## The leap schedule (R57 to R61) -/

/-- The leap table in use (R58): up to the first entry that is 0 or not later than the one before. -/
def leapTable (s : State) : Nat → Nat → Nat → List (Nat × Int)
  | 0, _, _ => []
  | n + 1, k, prev =>
    let at_ := (rd s (0x300100 + 8 * k)).toNat
    if at_ ≤ prev then [] else (at_, rsf s (0x300104 + 8 * k) 0 16) :: leapTable s n (k + 1) at_

/-- TAI second at which an offset change takes effect: L − 1 s for a positive leap, else L (R57). -/
def applySec (at_ : Nat) (old new : Int) : Int := (at_ : Int) + if new = old + 1 then old else new

/-- The next change of TB_UTC_OFS: the first table entry not yet past that lies before TB_LEAP_EXPIRY, else the leap
that flags scheduled (R57 to R59). DESIGN CHOICE (log entry 83): an entry whose instant a set, a step or a power-off has
jumped over is past and is never applied. -/
def nextChange (s : State) : Option (Nat × Int) :=
  let expiry := (rd s 0x300084).toNat
  let due := fun (e : Nat × Int) => decide (e.1 < expiry ∧ e.2 ≠ utcOfs s ∧ (nowSec s : Int) ≤ applySec e.1 (utcOfs s) e.2)
  match (leapTable s 64 0 0).find? due with
  | some e => some e
  | none => (s.tb.flagLeap.filter fun l => decide (expiry ≤ l.at_)).map fun l => (l.at_, l.new)

/-- The scheduled leap: a change by exactly one second. -/
def scheduledLeap (s : State) : Option Leap :=
  match nextChange s with
  | some (a, n) =>
    if n = utcOfs s + 1 ∨ n = utcOfs s - 1 then some { at_ := a, old := utcOfs s, new := n } else none
  | none => none

/-- The TAI instant L of a leap in 1/16 ns (R57). -/
def leapT16 (l : Leap) : Int := ((l.at_ : Int) + l.new) * (16 * 10 ^ 9)

/-- The TAI instant in 1/16 ns at which the offset of a leap changes (R57). -/
def changeT16 (l : Leap) : Int := applySec l.at_ l.old l.new * (16 * 10 ^ 9)

/-- The leap that an instant T belongs to: the one applied last where T lies before its instant L, else the scheduled
one (R61, R63). -/
def leapAt (s : State) (t : Nat) : Option Leap :=
  match s.tb.lastLeap with
  | some l => if (t : Int) < leapT16 l then some l else scheduledLeap s
  | none => scheduledLeap s

/-- The leap whose window is open now (R61). -/
def leapInForce (s : State) : Option Leap := leapAt s (nowT16 s)

/-- The TAI−UTC offset at an instant: the old one before the change applied last, the new one from a scheduled change
on (R57). -/
def utcOfsAt (s : State) (t : Nat) : Int :=
  match s.tb.lastLeap, scheduledLeap s with
  | some l, n => if (t : Int) < changeT16 l then l.old else (n.map fun m => if changeT16 m ≤ t then m.new else m.old).getD (utcOfs s)
  | none, some m => if changeT16 m ≤ t then m.new else m.old
  | none, none => utcOfs s

/-- A leap falls within the current UTC month (TB_STATUS.LEAP_PENDING, R68). -/
def leapPending (s : State) : Option Leap :=
  match leapInForce s with
  | some l => if l.at_ ≤ monthEnd (utcSec s) then some l else none
  | none => none

/-- The two leap bits of the user page and of TB_STATUS (R68, R327). -/
def leapBits (s : State) : Option Bool := (leapPending s).map fun l => decide (l.new < l.old)

/-- The user page follows a change of its leap bits (R328). -/
def touchLeap (before s : State) : State := if leapBits before = leapBits s then s else userTouch s

/-- The leap that the flags of the selected reference give at the end of the current UTC month; flags that clear before
23:59:00 of the last day withdraw it (R59). A leap already applied at that month's end is not scheduled again. -/
def leapOfFlags (s : State) (c : Cand) : Option Leap :=
  let l := monthEnd (utcSec s)
  let o := utcOfs s
  if (s.tb.lastLeap.map fun x => decide (x.at_ = l)).getD false then none
  else if c.leap61 then some { at_ := l, old := o, new := o + 1 }
  else if c.leap59 then some { at_ := l, old := o, new := o - 1 }
  else if utcSec s < (l : Int) - 60 then none else s.tb.flagLeap

/-- The flags of the selected time reference schedule or withdraw a leap (R59). DESIGN CHOICE (log entry 82): they do so
from the present instant on that has reached TB_LEAP_EXPIRY, not earlier for a leap that itself lies at or after it. -/
def leapSchedule (s : State) : State :=
  if s.tb.leapExpired = false ∨ 4 ≤ s.ref.tsel then s
  else touchLeap s { s with tb := { s.tb with flagLeap := leapOfFlags s (candOf s s.ref.tsel) } }

/-- After a step or a load of the counter: a leap that flags scheduled for the end of another month is dropped, a leap
applied at an instant that now lies ahead is forgotten, and the flags are read for the month now current (R59).
DESIGN CHOICE (log entry 106): TB_UTC_OFS keeps its value. -/
def leapAfterStep (s : State) : State :=
  leapSchedule { s with tb := { s.tb with
    flagLeap := s.tb.flagLeap.filter fun l => decide (l.at_ = monthEnd (utcSec s))
    lastLeap := s.tb.lastLeap.filter fun l => decide (changeT16 l ≤ nowT16 s) } }

/-! ## Trigger schedules under a step (R72, R78, R79) -/

def ttOutOf (s : State) (n : Nat) : TtOut := tget (fun _ => TtOut.cold) s.ttOut n

def setTtOut (s : State) (n : Nat) (x : TtOut) : State := { s with ttOut := tset (fun _ => TtOut.cold) s.ttOut n x }

def ttOutA (n : Nat) : Nat := 0x600000 + 0x40 * n

/-- Units of a trigger instant: 2^-16 ns. -/
def fineSec : Nat := 10 ^ 9 * 2 ^ 16

/-- A trigger instant, in 2^-16 ns, as the counter value of its stamp. -/
def fineCounter (t : Int) : Nat := t.toNat * 2 ^ 48

/-- The instant at which a pulse of a nominal instant starts: DELAY is subtracted, and the result is rounded to
1/16 ns, an exact half to the later instant (R69). -/
def fireInstant (s : State) (n : Nat) (nominal : Int) : Int :=
  let t := nominal - rsf s (ttOutA n + 0x20) 0 32 * 4096
  (t + 2048) / 4096

/-- A trigger or capture record, or its drop (R78, R79). -/
def ttBody (typ num flags : Nat) (stamp : Bytes) (seq dropped : Nat) : Bytes :=
  leBytes 2 typ ++ [BitVec.ofNat 8 num, BitVec.ofNat 8 flags] ++ stamp ++ leBytes 4 seq ++ leBytes 4 dropped

/-- A trigger record of output n is written to its ring or dropped. DESIGN CHOICE (log entry 84): the TIME_VALID flag of
a type 0x0003 record whose instant is already past shows TIME_VALID at the moment of the record. -/
def ttRecord (s : State) (n typ : Nat) (t16 : Int) : State :=
  let x := ttOutOf s n
  let r := 168 + rf s (ttOutA n) 5 3
  let edge := if typ = 2 then (if rb s (ttOutA n) 1 then 2 else 1) else 0
  let body := ttBody typ n (edge + boolBit s.tb.timeValid 2) (stampBytes (ofT16 t16.toNat)) x.seq x.dropped
  let seq := (x.seq + 1) % 2 ^ 32
  if recordFits s r then
    writeRecord (setTtOut s n { x with seq := seq, dropped := 0 }) r body
  else
    let s1 := setTtOut s n { x with seq := seq, dropped := x.dropped + 1 }
    let s2 := if (ringOf s r).st = .running then bump s1 (ringA r + 0x1C) 1 else s1
    raiseLim s2 149 n (r - 168) [n]

/-- SKIPPED is set, with its event and its record (R71 to R73). -/
def ttSkip (s : State) (n : Nat) (t16 : Int) : State :=
  ttRecord (raiseLim (orReg s (ttOutA n + 0x24) 4) 145 n n [n]) n 3 t16

/-- A period in 2^-16 ns from its two words; PERIOD_NS = 0 selects a one-shot (R69). -/
def periodOf (ns fns : Word) : Nat := if ns = 0 then 0 else ns.toNat * 2 ^ 16 + fld fns 0 16

/-- The period of an output in 2^-16 ns, 0 for a one-shot. -/
def ttPeriod (s : State) (n : Nat) : Nat := periodOf (rd s (ttOutA n + 0x10)) (rd s (ttOutA n + 0x14))

/-- The start instant of an output in 2^-16 ns. -/
def ttStart (s : State) (n : Nat) : Int :=
  (ofWords (rd s (ttOutA n + 4)).toNat (rd s (ttOutA n + 8)).toNat (rd s (ttOutA n + 12)).toNat / 2 ^ 48 : Nat)

/-- The stop of a running output that has no further instant. -/
def ttFinish (s : State) (n : Nat) : State := setTtOut s n { ttOutOf s n with running := false }

/-- The schedule of one output after a phase step to the present counter (R72): a forward step skips the instants
passed over, a backward step goes back to the first instant after the last fired one. -/
def ttStepOne (s : State) (n : Nat) (before : Nat) : State :=
  let x := ttOutOf s n
  if x.running = false then s else
  let per : Int := ttPeriod s n
  let now := nowT16 s
  if before < s.tb.counter then
    let first := fireInstant s n x.next
    if first < now then
      if per = 0 then ttSkip (ttFinish s n) n first
      else
        let k := ((now : Int) * 4096 - x.next + rsf s (ttOutA n + 0x20) 0 32 * 4096) / per
        let cand := x.next + k * per
        let nxt := if fireInstant s n cand < now then cand + per else cand
        ttSkip (setTtOut s n { x with next := nxt }) n first
    else s
  else if per = 0 then s
  else
    let back := (x.next - (now : Int) * 4096 - rsf s (ttOutA n + 0x20) 0 32 * 4096) / per
    let cand := x.next - (max 0 back) * per
    let lo := match x.lastFired with
      | some l => l + per
      | none => ttStart s n
    setTtOut s n { x with next := max cand (min lo x.next) }

def ttStepAll (before : Nat) : List Nat → State → State
  | [], s => s
  | n :: ns, s => ttStepAll before ns (ttStepOne s n before)

/-- A phase step takes effect: STEPCNT, the extra anchor, TB_STEP, the build-out, the expected PPS instants and the
trigger schedules follow (R43, R72, R99, R109). `before` is the counter at the last tick before the step tick, `would`
what the step tick would have given without the step, `after` what it gives. -/
def phaseStep (s : State) (before would after : Nat) : State :=
  let shift : Int := (t16Of after : Int) - (t16Of would : Int)
  let pps := s.ref.pps.map fun e => (e.1, { e.2 with
    expected := e.2.expected.map (fun t => ((t : Int) + shift).toNat),
    recent := e.2.recent.map (fun t => ((t : Int) + shift).toNat),
    msgs := e.2.msgs.map (fun m => { m with fin := ((m.fin : Int) + shift).toNat }) })
  let s1 : State := { s with
    tb := { s.tb with counter := after, stepCnt := s.tb.stepCnt + 1, good := 0 },
    ref := { s.ref with bo := 0, pps := pps } }
  let s2 := userTouch (latchAnchor s1)
  let s3 := raise (raise s2 48 0 (anchorPayload s2)) 50 0 (stampBytes before ++ stampBytes after)
  leapAfterStep (checkExpiry (ttStepAll would (s.ttOut.map (·.1)) s3))

/-- The counter after one tick at a DCO word (R45): 2 ns × (1 + F × 10^-15), rounded to 2^-64 ns. -/
def tickInc (f : Int) : Nat :=
  (roundDiv (2 * 2 ^ 64 * (10 ^ 15 + f)) (10 ^ 15)).toNat

/-- The word that paces the counter: in unified clocking the frequency correction of DPLL0, in ppt, is added to the DCO
word (R454). -/
def paceWord (s : State) (dco : Int) : Int :=
  if s.clk.unified then dco + (tget (fun _ => Dpll.cold) s.dpl.d 0).freq * 1000 else dco

/-- One TBCLK tick: a staged DCO word and a staged load or step take effect (R46, R49, R52). -/
def tickOn (s : State) : State :=
  let dco := s.tb.dcoNext.getD s.tb.dco
  let c := s.tb.counter + tickInc (paceWord s dco)
  let s1 : State := { s with tb := { s.tb with dco := dco, dcoNext := none, stepNext := none, counter := c,
                                               ticks := s.tb.ticks + 1 } }
  match s.tb.stepNext with
  | none => s1
  | some (.load v) => phaseStep s1 s.tb.counter c v
  | some (.add d) => phaseStep s1 s.tb.counter c (((c : Int) + d * 2 ^ 60).toNat)

/-- A tick; where TBCLK has stopped, the time passes and the counter stands (R456; log entry 2). -/
def tick (s : State) : State :=
  if clkRuns s.clk.tbclk then tickOn s else { s with tb := { s.tb with ticks := s.tb.ticks + 1 } }

end Sys2Proof.Machine
end

