-- ==== Sys2Proof/Machine/Timebase.lean ====
section
/-! DEFINITION. The TB commands: second boundary, servo, DCO word, set and step, leap seconds (R36 to R68). -/

namespace Sys2Proof.Machine

/-! ## Leap seconds (R57 to R62) -/

/-- A reference states a TAI−UTC offset: TB_UTCOFS_MISMATCH once per reference and hour, except within 2 s of a
leap (R60). -/
def statedOffset (s : State) (i : Nat) (o : Int) : State :=
  let near := fun (l : Leap) =>
    decide (((nowT16 s : Int) - leapT16 l).natAbs ≤ 2 * (16 * 10 ^ 9) ∧ (o = l.old ∨ o = l.new))
  let excused := (s.tb.lastLeap.map near).getD false || ((scheduledLeap s).map near).getD false
  if o = utcOfs s ∨ excused then s else
  let prev := tget (fun _ => 0) s.tb.mismatch i
  if prev ≠ 0 ∧ s.tb.ticks + 1 < prev + 3600 * ticksPerSec then s
  else raiseN { s with tb := { s.tb with mismatch := tset (fun _ => 0) s.tb.mismatch i (s.tb.ticks + 1) } } 53 0 []

/-- LEAP_APPLY: at its instant the offset changes; a change by other than one second is a plain change that raises
TB_UTCOFS_MISMATCH (R57). -/
def execLeapApply (s : State) : Host.Outcome State Fault Refusal :=
  .next <|
    match nextChange s with
    | none => s
    | some (a, n) =>
      let old := utcOfs s
      if (nowSec s : Int) ≠ applySec a old n ∨ n = old then s
      else
        let s1 := wrf s 0x300080 0 16 (twos 16 n)
        if n = old + 1 ∨ n = old - 1 then
          userTouch { s1 with tb := { s1.tb with lastLeap := some { at_ := a, old := old, new := n },
                                                 flagLeap := none } }
        else userTouch (raiseN s1 53 0 [])

/-- TB_LEAP_EXPIRED: the instant reaches TB_LEAP_EXPIRY (R59). -/
def execTbLeapExpired (s : State) : Host.Outcome State Fault Refusal := .next (leapSchedule (checkExpiry s))

/-! ## The passing of time -/

def portOf (s : State) (j : Nat) : LpPort := tget (fun _ => LpPort.cold) s.lp j

def setPort (s : State) (j : Nat) (p : LpPort) : State := { s with lp := tset (fun _ => LpPort.cold) s.lp j p }

/-- Bytes of the packet buffer in use: received frames held and frames queued for transmission. -/
def bufferBytes (s : State) : Nat :=
  s.lp.foldl (fun n e => n + e.2.occ.foldl (fun m o => m + o.2) 0
    + e.2.queue.foldl (fun m i => m + i.frame.length) 0) 0

/-- Instances of a level signal that are true now (R490). -/
def levelNow (s : State) (signal qual : Nat) : Nat :=
  if signal = 0x201 then s.rsp.lanes.foldl (fun n e => n + e.2.jobs.length) 0
  else if signal = 0x204 then
    (s.lp.filter fun e => e.2.queue.any (fun i => decide (i.cls = 0)) && decide (qual = 31 ∨ qual = e.1)).length
  else if signal = 0x205 then
    (s.pke.jobs.filter fun j => match j.stage with | .running _ => true | _ => false).length
  else if signal = 0x206 then min 24576 (bufferBytes s / 1024 - 24576)
  else 0

/-- The counters in level mode: counter, signal and qualifier. -/
def levelCounters (s : State) : List (Nat × Nat × Nat) :=
  if rb s 0x1600000 0 then [] else
  s.regs.filterMap fun e =>
    if 0x1600100 ≤ e.1 ∧ e.1 < 0x1600500 ∧ e.1 % 16 = 0 ∧ flag e.2 11 = true ∧ flag e.2 10 = true then
      some ((e.1 - 0x1600100) / 16, fld e.2 0 10, fld e.2 16 5)
    else none

/-- Counters in level mode over n ticks. -/
def levelCount (n : Nat) (s : State) : State :=
  (levelCounters s).foldl (fun t c =>
    let r := pmcAdd t c.1 (n * levelNow s c.2.1 c.2.2)
    if r.2 then raiseN r.1 369 0 [] else r.1) s

/-- The counter moves, tick by tick, to the first tick at or after the next second boundary. -/
def toBoundary (s : State) : State :=
  if s.tb.anchorSec < nowSec s then s else
  let s0 := tick (levelCount 1 s)
  if s0.tb.anchorSec < nowSec s0 then s0 else
  let target := (s0.tb.counter / secUnits + 1) * secUnits
  let inc := tickInc (paceWord s0 s0.tb.dco)
  let n := ceilDiv (target - s0.tb.counter) inc
  let s1 := levelCount n s0
  { s1 with tb := { s1.tb with counter := s1.tb.counter + n * inc, ticks := s1.tb.ticks + n } }

/-- PPS_OUT_FALL (R56). -/
def execPpsOutFall (s : State) : Host.Outcome State Fault Refusal :=
  .next { s with tb := { s.tb with ppsOut := false } }

/-! ## DCO word (R45, R46) -/

/-- TB_DCO_LO_WRITE: staged in MANUAL mode, ignored in the servo modes. -/
def execTbDcoLoWrite (value : Word) (s : State) : Host.Outcome State Fault Refusal :=
  .next (if tbMode s = 0 then { s with tb := { s.tb with dcoLo := some value } } else s)

/-- TB_DCO_HI_WRITE: both words apply at the next tick, in MANUAL mode only. Without a staged low word the low word
last applied stands. -/
def execTbDcoHiWrite (value : Word) (s : State) : Host.Outcome State Fault Refusal :=
  .next <|
    if tbMode s = 0 then
      let lo := match s.tb.dcoLo with
        | some w => w.toNat
        | none => twos 40 s.tb.dco % 2 ^ 32
      { s with tb := { s.tb with dcoNext := some (signed 40 (fld value 0 8 * 2 ^ 32 + lo)), dcoLo := none } }
    else s

/-! ## TB_CTL (R50, R52, R54) -/

/-- A write is refused while MODE is MANUAL without FORCE_INVALID. -/
def setRefusable (s : State) : Bool := decide (tbMode s = 0) && !s.tb.forceInvalid

def setRefused (s : State) : State := orReg s 0x300008 0x10000

/-- SET_TIME (R52). -/
def execSetTime (alsoStepNow : Bool) (s : State) : Host.Outcome State Fault Refusal :=
  .next <|
    if alsoStepNow || setRefusable s || decide (10 ^ 9 ≤ (rd s 0x300070).toNat) then setRefused s
    else
      let s1 := setValid s false
      let v := ofWords (rd s 0x300070).toNat (rd s 0x300074).toNat (rd s 0x300078).toNat
      tick { s1 with tb := { s1.tb with stepNext := some (.load v) } }

/-- STEP_NOW (R52). -/
def execStepNow (alsoSetTime : Bool) (s : State) : Host.Outcome State Fault Refusal :=
  .next <|
    if alsoSetTime || setRefusable s then setRefused s
    else
      let s1 := setValid s false
      tick { s1 with tb := { s1.tb with stepNext := some (.add (-(s1.tb.offset * 16))) } }

/-- RESTEP arms the step (R50). -/
def execRestep (s : State) : Host.Outcome State Fault Refusal :=
  .next { s with tb := { s.tb with stepArmed := true } }

/-- FORCE_INVALID holds TIME_VALID false, or releases it (R53, R54). -/
def execForceInvalid (hold : Bool) (s : State) : Host.Outcome State Fault Refusal :=
  .next <|
    let s1 : State := { s with tb := { s.tb with forceInvalid := hold } }
    if hold then setValid s1 false else tryRise s1

/-- TB_NOW_READ latches the counter for TB_NOW_SEC and TB_NOW_HI and returns NS32 (R66). -/
def execTbNowRead (s : State) : Host.Outcome State Fault Refusal :=
  .next (emit { s with tb := { s.tb with nowLatch := s.tb.counter } }
    (.readData 0 (BitVec.ofNat 32 (nsOf s.tb.counter))))

/-! ## Servo (R47 to R54) -/

/-- The interval exponent of R47. -/
def tbInterval (s : State) : Int := rsf s 0x300000 2 4

/-- The clamp of the mode in 2^-24 ppb (R48). -/
def servoLim (s : State) : Int :=
  (if tbMode s = 1 then 549755 else ((rd s 0x300048).toNat : Int)) * 2 ^ 24

/-- A number of 2^-24 ppb as a DCO word (R47). -/
def dcoOf (f : Int) : Int := roundDiv (f * 1000000) (2 ^ 24)

/-- A gain Q16.16 times e / T, with e in 1/16 ns: 2^-24 ppb. -/
def gainTerm (gain : Nat) (e16 : Int) (interval : Int) : Int := gain * (e16 * 2 ^ (4 - interval).toNat)

/-- The mean offset that waits for the servo at its source, in 1/16 ns (R47, R85, R407). DESIGN CHOICE (log entry 85): the
mean and the build-out taken from it are each rounded to 1/16 ns before the law. -/
def servoOffset (s : State) : Option Int :=
  let src := servoSource s
  let c := candOf s src
  if src = 7 ∨ c.cnt = 0 then none
  else if src < 6 ∨ src = 8 then some (roundDiv c.sum c.cnt - roundDiv s.ref.bo 1000)
  else some (roundDiv c.sum c.cnt)

/-- The offsets received so far are consumed. -/
def clearOffsets (s : State) : State :=
  { s with ref := { s.ref with cands := s.ref.cands.filterMap fun e =>
      let c : Cand := { e.2 with fresh := false, sum := 0, cnt := 0 }
      if c = Cand.cold then none else some (e.1, c) } }

/-- The build-out moves towards 0 by REF_BO_BLEED × T (R109). -/
def bleed (s : State) : State :=
  let d : Int := ((rd s 0x400020).toNat : Int) * 2 ^ (tbInterval s + 4).toNat
  let b := s.ref.bo
  { s with ref := { s.ref with bo := if 0 ≤ b then max 0 (b - d) else min 0 (b + d) } }

/-- The PI law (R47, R48). -/
def piLaw (s : State) (e16 : Int) : State :=
  let lim := servoLim s
  let integ := clampInt (-lim) lim (s.tb.integ + gainTerm (rd s 0x300044).toNat e16 (tbInterval s))
  let raw := -(gainTerm (rd s 0x300040).toNat e16 (tbInterval s) + integ)
  let f := clampInt (-lim) lim raw
  let s1 : State := { s with tb := { s.tb with integ := integ, dcoNext := some (dcoOf f) } }
  if f = raw then s1 else raiseN (orReg s1 0x300008 0x80) 54 0 []

/-- TIME_VALID after an update with an offset (R53, R54). -/
def judge (s : State) (e16 : Int) (stepped : Bool) : State :=
  let a := e16.natAbs
  let bad := if (rd s 0x300054).toNat * 16 < a then s.tb.bad + 1 else 0
  let good := if stepped ∨ (rd s 0x300050).toNat * 16 < a then 0 else s.tb.good + 1
  let s1 : State := { s with tb := { s.tb with bad := bad, good := min 15 good } }
  if s1.tb.timeValid then (if 2 ≤ bad then setValid s1 false else s1)
  else if stepped then s1 else tryRise s1

/-- The hold of the servo starts: E runs from its present value (R51, R119). -/
def enterHold (s : State) : State :=
  if s.tb.holdover then s
  else userTouch { s with tb := { s.tb with holdover := true },
                          dpl := { s.dpl with hoT := 0, e0 := s.dpl.hoErr, tEntry := s.dpl.temp } }

/-- A reference ends the hold of the servo (R51, R106). -/
def endHold (s : State) : State :=
  if s.tb.holdover then
    userTouch { s with tb := { s.tb with holdover := false }, dpl := { s.dpl with hoT := 0 } }
  else s

/-- The servo holds: the DCO word is that of R47 with y = 0 (R51). -/
def servoHold (s : State) : State :=
  let lim := servoLim s
  let s1 := enterHold s
  if tbMode s = 0 then s1
  else { s1 with tb := { s1.tb with dcoNext := some (dcoOf (clampInt (-lim) lim (-s.tb.integ))) } }

/-- The update with an offset e: step or PI law, then TIME_VALID (R49). DESIGN CHOICE (log entry 86): a step in SERVO
mode applies an armed step and disarms it; SET_TIME and STEP_NOW leave it armed. -/
def servoWith (s : State) (e16 : Int) : State :=
  let s1 : State := { s with tb := { s.tb with offset := clampInt (-(2 ^ 31) + 1) (2 ^ 31 - 1) (roundDiv e16 16) } }
  let big := decide ((rd s1 0x30004C).toNat * 16 < e16.natAbs)
  let steps := !s1.tb.timeValid &&
    ((decide (tbMode s1 = 1) && big) || (decide (tbMode s1 = 2) && s1.tb.stepArmed))
  let s2 := if steps then
      tick { s1 with tb := { s1.tb with stepNext := some (.add (-e16)), stepArmed := false } }
    else if tbMode s1 = 0 then s1 else piLaw s1 e16
  judge s2 e16 steps

/-- SERVO_UPDATE (R47 to R54, R85, R109, R421). The offsets of the interval are consumed whether or not the servo uses
them, so that the next update takes those of its own interval alone (R85). -/
def execServoUpdate (s : State) : Host.Outcome State Fault Refusal :=
  .next <|
    let src := servoSource s
    if src = 7 then servoHold (clearOffsets s) else
    let s0 := endHold s
    let s1 : State := { s0 with tb := { s0.tb with
      lastUpdate := if src < 6 then s.tb.counter else s.tb.lastUpdate } }
    let s2 := match servoOffset s1 with
      | none => clearOffsets s1
      | some e => servoWith (clearOffsets s1) e
    let s3 := bleed s2
    if src = 9 then
      let lock := if s3.mit.offset.natAbs ≤ 32 then min 16 (s3.mit.lock + 1) else 0
      mitReadyCheck { s3 with mit := { s3.mit with lock := lock } }
    else s3

end Sys2Proof.Machine
end

