-- ==== Sys2Proof/Machine/Frames.lean ====
section
/-! DEFINITION. Frames as bytes: tags, IP and UDP headers, checksums (R168 to R171, R209, R219, R224, R311, R535),
the builders of reply frames (R226), and the NTP time of an instant (R63, R65). -/

namespace Sys2Proof.Machine

/-! ## Ethernet and its tags -/

/-- What the tags of a frame show. `l3` is the offset of the payload, `etype` its EtherType. -/
structure Eth where
  sTci : Option Nat
  cTci : Option Nat
  etype : Nat
  l3 : Nat
  deriving DecidableEq, Repr

/-- An S-tag, then a C-tag, as far as they are there (R171, R219). -/
def parseEth (f : Bytes) : Eth :=
  if be16 f 12 = 0x88A8 then
    if be16 f 16 = 0x8100 then { sTci := some (be16 f 14), cTci := some (be16 f 18), etype := be16 f 20, l3 := 22 }
    else { sTci := some (be16 f 14), cTci := none, etype := be16 f 16, l3 := 18 }
  else if be16 f 12 = 0x8100 then { sTci := none, cTci := some (be16 f 14), etype := be16 f 16, l3 := 18 }
  else { sTci := none, cTci := none, etype := be16 f 12, l3 := 14 }

/-- The PCP of R173: of the C-tag, else of the S-tag, else 0. -/
def pcpOf (f : Bytes) : Nat :=
  let e := parseEth f
  match e.cTci, e.sTci with
  | some t, _ => t / 8192 % 8
  | none, some t => t / 8192 % 8
  | none, none => 0

/-- The bytes of the tags of a frame. -/
def tagBytes (f : Bytes) : Bytes := sub f 12 ((parseEth f).l3 - 14)

/-! ## IP and UDP -/

/-- The headers of an IP packet. Offsets are from the start of the frame. -/
structure Pkt where
  v6 : Bool
  src : Bytes
  dst : Bytes
  ihl : Nat                 -- IPv4 header words, 10 for IPv6
  ipLen : Nat               -- bytes of the IP packet as its header states
  options : Bool
  ext : Bool                -- IPv6 extension headers
  frag : Bool
  firstFrag : Bool
  proto : Nat
  l4 : Nat
  l4Len : Nat               -- bytes of the IP payload from l4 on
  hop : Nat
  deriving DecidableEq, Repr

/-- The IPv6 extension headers that are walked. -/
def isExt (h : Nat) : Bool := [0, 43, 44, 51, 60, 135, 139, 140].contains h

/-- The walk over IPv6 extension headers: final header, its offset, a Fragment header seen, a non-zero offset. -/
def walkExt (f : Bytes) : Nat → Nat → Nat → Bool → Bool → Nat × Nat × Bool × Bool
  | 0, h, o, fr, nz => (h, o, fr, nz)
  | n + 1, h, o, fr, nz =>
    if isExt h then
      let len := if h = 44 then 8 else if h = 51 then (byteAt f (o + 1) + 2) * 4 else (byteAt f (o + 1) + 1) * 8
      walkExt f n (byteAt f o) (o + len) (fr || decide (h = 44))
        (nz || (decide (h = 44) && decide (be16 f (o + 2) / 8 ≠ 0)))
    else (h, o, fr, nz)

/-- The IP packet of a frame, none where the EtherType is not IP. -/
def parseIp (f : Bytes) : Option Pkt :=
  let e := parseEth f
  if e.etype = 0x0800 then
    let ihl := byteAt f e.l3 % 16
    let len := be16 f (e.l3 + 2)
    let fo := be16 f (e.l3 + 6)
    some { v6 := false, src := subPad f (e.l3 + 12) 4, dst := subPad f (e.l3 + 16) 4, ihl := ihl, ipLen := len,
           options := decide (5 < ihl), ext := false,
           frag := decide (fo / 8192 % 2 = 1 ∨ fo % 8192 ≠ 0), firstFrag := decide (fo % 8192 = 0),
           proto := byteAt f (e.l3 + 9), l4 := e.l3 + 4 * ihl, l4Len := len - 4 * ihl, hop := byteAt f (e.l3 + 8) }
  else if e.etype = 0x86DD then
    let plen := be16 f (e.l3 + 4)
    let h := byteAt f (e.l3 + 6)
    let (p, o, fr, nz) := walkExt f 8 h (e.l3 + 40) false false
    some { v6 := true, src := subPad f (e.l3 + 8) 16, dst := subPad f (e.l3 + 24) 16, ihl := 10, ipLen := plen + 40,
           options := false, ext := isExt h, frag := fr, firstFrag := !nz, proto := p, l4 := o,
           l4Len := plen + e.l3 + 40 - o, hop := byteAt f (e.l3 + 7) }
  else none

/-- The pseudo-header of a transport checksum. -/
def pseudo (v6 : Bool) (src dst : Bytes) (proto len : Nat) : Bytes :=
  if v6 then src ++ dst ++ beBytes 4 len ++ [0, 0, 0, BitVec.ofNat 8 proto]
  else src ++ dst ++ [0, BitVec.ofNat 8 proto] ++ beBytes 2 len

/-- The transport bytes with their pseudo-header sum to 0xFFFF. -/
def l4SumGood (p : Pkt) (seg : Bytes) : Bool :=
  decide (onesSum (pseudo p.v6 p.src p.dst p.proto seg.length ++ seg) = 65535)

/-- The UDP datagram of a packet, as long as its UDP length states. -/
def udpSeg (f : Bytes) (p : Pkt) : Bytes := sub f p.l4 (be16 f (p.l4 + 4))

/-- The packet carries a UDP header that can be read (R535). -/
def hasUdp (p : Pkt) : Bool := decide (p.proto = 17) && p.firstFrag

/-- The first row of R224: a bad IPv4 header checksum, or a bad UDP checksum of an unfragmented datagram. -/
def checksumBad (f : Bytes) (p : Pkt) : Bool :=
  let e := parseEth f
  (!p.v6 && decide (onesSum (sub f e.l3 (4 * p.ihl)) ≠ 65535)) ||
  (!p.frag && decide (p.proto = 17) &&
    (if be16 f (p.l4 + 6) = 0 then p.v6 else !(l4SumGood p (udpSeg f p))))

/-- The IPv4 header lies in the frame and is one: no other byte is taken for its checksum (R311). -/
def ipFits (f : Bytes) (p : Pkt) : Bool := p.v6 || (decide (5 ≤ p.ihl) && decide ((parseEth f).l3 + 4 * p.ihl ≤ f.length))

/-- The UDP or TCP header and its segment lie in the frame (R311). -/
def l4Fits (f : Bytes) (p : Pkt) : Bool :=
  decide ((p.proto = 17 ∧ 8 ≤ p.l4Len) ∨ (p.proto = 6 ∧ 20 ≤ p.l4Len)) && decide (p.l4 + p.l4Len ≤ f.length)

/-- R311: the IPv4 header checksum and the UDP or TCP checksum of a host frame; fragments and IPv6 packets with
extension headers stay unchanged, and so does what is no whole header (DESIGN CHOICE, log entry 109). -/
def fillChecksums (f : Bytes) : Bytes :=
  match parseIp f with
  | none => f
  | some p =>
    if p.frag ∨ p.ext ∨ ipFits f p = false then f else
    let e := parseEth f
    let f1 := if p.v6 then f else
      let h := putBytes f (e.l3 + 10) [0, 0]
      putBytes h (e.l3 + 10) (beBytes 2 (inetSum (sub h e.l3 (4 * p.ihl))))
    if l4Fits f p then
      let at_ := if p.proto = 17 then p.l4 + 6 else p.l4 + 16
      let g := putBytes f1 at_ [0, 0]
      let seg := sub g p.l4 p.l4Len
      let c := inetSum (pseudo p.v6 p.src p.dst p.proto seg.length ++ seg)
      putBytes g at_ (beBytes 2 (if p.proto = 17 ∧ c = 0 then 65535 else c))
    else f1

/-! ## Builders (R226) -/

/-- An IPv4 header without options: identification 0, DF = 1, ECN 0. -/
def ip4Header (src dst : Bytes) (ttl dscp proto len : Nat) : Bytes :=
  let h : Bytes := [0x45, BitVec.ofNat 8 (dscp * 4)] ++ beBytes 2 (20 + len) ++ [0, 0, 0x40, 0]
    ++ [BitVec.ofNat 8 ttl, BitVec.ofNat 8 proto, 0, 0] ++ src ++ dst
  putBytes h 10 (beBytes 2 (inetSum h))

def ip6Header (src dst : Bytes) (hop dscp proto len : Nat) : Bytes :=
  beBytes 4 (0x60000000 + dscp * 4 * 2 ^ 20) ++ beBytes 2 len
  ++ [BitVec.ofNat 8 proto, BitVec.ofNat 8 hop] ++ src ++ dst

/-- How the UDP checksum of a built frame is sent (R208). -/
inductive Csum where
  | full | zero | pad
  deriving DecidableEq, Repr

/-- A UDP datagram in IP; the PAD trailer of two zero bytes is part of `body` where the method is `pad`. -/
def udpIp (src dst : Bytes) (sport dport ttl dscp : Nat) (m : Csum) (body : Bytes) : Bytes :=
  let v6 := decide (src.length = 16)
  let len := 8 + body.length
  let seg := beBytes 2 sport ++ beBytes 2 dport ++ beBytes 2 len ++ [0, 0] ++ body
  let c := inetSum (pseudo v6 src dst 17 len ++ seg)
  let seg1 := match m with
    | .zero => seg
    | _ => putBytes seg 6 (beBytes 2 (if c = 0 then 65535 else c))
  (if v6 then ip6Header src dst ttl dscp 17 len else ip4Header src dst ttl dscp 17 len) ++ seg1

/-- Ethernet around a payload: destination, source, tags, EtherType. -/
def ethFrame (dst src tags : Bytes) (etype : Nat) (payload : Bytes) : Bytes :=
  dst ++ src ++ tags ++ beBytes 2 etype ++ payload

/-- The IP EtherType of an address. -/
def ipEtype (a : Bytes) : Nat := if a.length = 16 then 0x86DD else 0x0800

/-- A frame padded to the 60 bytes of the smallest frame without FCS (R169). -/
def padFrame (f : Bytes) : Bytes := f ++ List.replicate (60 - f.length) 0

/-! ## NTP time (R63, R65) -/

/-- The UTC of a TAI instant in 2^-16 ns, the resolution of NS32 and FNS16, smeared where asked and the instant lies in
the window of R63; the offset is that of the instant itself. -/
def utcFine (s : State) (smear : Bool) (t : Nat) : Int :=
  let plain := (t : Int) - utcOfsAt s (t / 4096) * fineSec
  if smear then
    match leapAt s (t / 4096) with
    | some l =>
      let fin : Int := ((l.at_ : Int) + l.new) * fineSec
      let w0 := fin - 86400 * fineSec
      if w0 ≤ t ∧ (t : Int) < fin then
        (t : Int) - l.old * fineSec - 2 ^ 16 * (((l.new - l.old) * ((t : Int) - w0)) / (2 ^ 16 * 86400))
      else plain
    | none => plain
  else plain

/-- The 64-bit NTP timestamp of an instant in 2^-16 ns (R65). -/
def ntpFine (s : State) (smear : Bool) (t : Nat) : Nat :=
  let u := utcFine s smear t
  let secs := ((u / fineSec + 2208988800) % 2 ^ 32).toNat
  let frac := (u % fineSec).toNat * 2 ^ 32 / fineSec
  secs * 2 ^ 32 + frac

/-- The 64-bit NTP timestamp of a stamp in 1/16 ns. -/
def ntpStamp (s : State) (smear : Bool) (t : Nat) : Nat := ntpFine s smear (t * 4096)

/-- FNS16 of a stamp. -/
def fnsT16 (t : Nat) : Nat := t % 16 * 4096

/-- The ten bytes of a PTP timestamp: SEC[47:0] and NS32. -/
def ptpStamp (t : Nat) : Bytes := beBytes 6 (t / (16 * 10 ^ 9)) ++ beBytes 4 (t / 16 % 10 ^ 9)

/-- A correctionField with an amount added, saturating (R207). -/
def corrAdd (c : Nat) (d : Int) : Nat := twos 64 (clampInt (-(2 ^ 63)) (2 ^ 63 - 1) (signed 64 c + d))

end Sys2Proof.Machine
end

