-- ==== Sys2Proof/Machine/Triggers.lean ====
section
/-! DEFINITION. Trigger outputs and capture inputs (R69 to R79). -/

namespace Sys2Proof.Machine

/-- The register of a staged word (R76). -/
def ttWordA (n : Nat) : TtWord → Nat
  | .startNs => ttOutA n + 0x04
  | .startSec => ttOutA n + 0x08
  | .startHi => ttOutA n + 0x0C
  | .periodNs => ttOutA n + 0x10
  | .periodFns => ttOutA n + 0x14
  | .width => ttOutA n + 0x18
  | .count => ttOutA n + 0x1C
  | .delay => ttOutA n + 0x20

def isStartWord : TtWord → Bool
  | .startNs | .startSec | .startHi => true
  | _ => false

/-- The words of a list are stored. -/
def ttApply (n : Nat) : List (TtWord × Word) → State → State
  | [], s => s
  | (w, v) :: ws, s => ttApply n ws (storeMask s (ttWordA n w) full v)

/-- The configuration that a list of staged words would give is refused (R70). -/
def ttBad (s : State) (n : Nat) : Bool :=
  let per := ttPeriod s n
  let width := (rd s (ttOutA n + 0x18)).toNat
  (decide (per ≠ 0) && decide (per < 16 * 2 ^ 16)) || decide (width < 8)
  || (decide (per ≠ 0) && decide (per ≤ width * 2 ^ 16)) || decide (10 ^ 9 ≤ (rd s (ttOutA n + 4)).toNat)

def ttCfgErr (s : State) (n : Nat) : State := raiseN (orReg s (ttOutA n + 0x24) 8) 146 n [n]

/-- DONE is set and RUNNING clears (R69). -/
def ttDone (s : State) (n : Nat) : State := raiseN (ttFinish (orReg s (ttOutA n + 0x24) 16) n) 147 n [n]

/-- The limit of COUNT is reached. -/
def ttCountReached (s : State) (n : Nat) : Bool :=
  let c := (rd s (ttOutA n + 0x1C)).toNat
  decide (c ≠ 0) && decide (c ≤ (ttOutOf s n).emitted)

/-- The start of a schedule at enable (R71). DESIGN CHOICE (log entry 92): staged words that no UPDATE has taken, and those
of an UPDATE still waiting for a pulse, are discarded at the next enable, but for START, which replaces one written
while EN = 0. -/
def ttBegin (s : State) (n : Nat) : State :=
  let start := ttStart s n
  let per : Int := ttPeriod s n
  let soon : Int := (nowT16 s : Int) + 32000
  let s1 := setTtOut s n { ttOutOf s n with
    running := true, next := start, lastFired := none, emitted := 0, staged := [], update := false, startKept := [] }
  let first := fireInstant s1 n start
  if soon ≤ first then s1
  else if per = 0 then
    let s2 := raiseN (orReg (ttFinish s1 n) (ttOutA n + 0x24) 2) 144 n [n]
    ttRecord s2 n 3 first
  else
    let k := (soon * 4096 - start + rsf s (ttOutA n + 0x20) 0 32 * 4096) / per
    let cand := start + k * per
    let nxt := if fireInstant s1 n cand < soon then cand + per else cand
    ttSkip (setTtOut s1 n { ttOutOf s1 n with next := nxt }) n first

/-- TT_OUT_ENABLE: a CTL write with EN = 1 (R70, R71, R74). -/
def execTtOutEnable (n : Fin 16) (ctl : Word) (s : State) : Host.Outcome State Fault Refusal :=
  .next <|
    let a := ttOutA n
    if rb s a 0 then storeMask s a 0xFE ctl else
    let s1 := ttApply n ((ttOutOf s n).startKept.filter fun w => isStartWord w.1) (storeMask s a 0xFE ctl)
    if ttBad s1 n then ttCfgErr (setTtOut s1 n { ttOutOf s1 n with startKept := [], staged := [] }) n
    else ttBegin (wrf s1 a 0 1 1) n

/-- TT_OUT_STAGED_WRITE: while EN = 1 the word is staged, otherwise it is stored (R74). -/
def execTtOutStagedWrite (n : Fin 16) (w : TtWord) (value : Word) (s : State) : Host.Outcome State Fault Refusal :=
  .next <|
    if rb s (ttOutA n) 0 then
      let x := ttOutOf s n
      setTtOut s n { x with staged := x.staged.filter (fun e => decide (e.1 ≠ w)) ++ [(w, value)] }
    else store s (ttWordA n w) value

/-- TT_OUT_UPDATE: the staged values are checked on top of those of an earlier UPDATE still waiting, then applied after
the next pulse; a new COUNT is a new limit at once (R69, R74). DESIGN CHOICE (log entry 107): an enabled output that no
longer runs has no next pulse and takes the values at once, START apart. -/
def execTtOutUpdate (n : Fin 16) (s : State) : Host.Outcome State Fault Refusal :=
  .next <|
    let x := ttOutOf s n
    if ttBad (ttApply n x.staged (ttApply n x.startKept s)) n then ttCfgErr (setTtOut s n { x with staged := [] }) n
    else
      let counts := x.staged.filter fun e => decide (e.1 = .count)
      let kept := x.startKept.filter (fun e => !(x.staged.any fun f => decide (f.1 = e.1)))
        ++ x.staged.filter fun e => decide (e.1 ≠ .count)
      let s1 := ttApply n counts (setTtOut s n { x with staged := [], startKept := kept, update := true })
      if x.running then (if counts ≠ [] ∧ ttCountReached s1 n = true then ttDone s1 n else s1)
      else
        let s2 := ttApply n (kept.filter fun e => !isStartWord e.1) s1
        setTtOut s2 n { ttOutOf s2 n with update := false, startKept := kept.filter fun e => isStartWord e.1 }

/-- The schedule after a fired pulse of a nominal instant (R69, R74). DESIGN CHOICE (log entry 108): an UPDATE that makes
a periodic output a one-shot leaves it no further instant, and it is DONE at that pulse. -/
def ttAdvance (s : State) (n : Nat) (nominal : Int) : State :=
  let x := ttOutOf s n
  let s1 := if x.update then
      let s2 := ttApply n (x.startKept.filter fun e => !isStartWord e.1) s
      setTtOut s2 n { x with update := false, startKept := x.startKept.filter fun e => isStartWord e.1 }
    else s
  let per : Int := ttPeriod s1 n
  if per = 0 then ttDone s1 n else setTtOut s1 n { ttOutOf s1 n with next := nominal + per }

/-- TT_PULSE_FIRE (R69, R73). -/
def execTtPulseFire (n : Fin 16) (s : State) : Host.Outcome State Fault Refusal :=
  .next <|
    let x := ttOutOf s n
    if x.running = false then s else
    let nominal := x.next
    let t := fireInstant s n nominal
    let per : Int := ttPeriod s n
    if rb s (ttOutA n) 3 = true ∧ s.tb.timeValid = false then
      let s1 := if per = 0 then ttFinish s n else setTtOut s n { x with next := nominal + per }
      ttSkip s1 n t
    else
      let s1 := setTtOut s n { x with emitted := x.emitted + 1, lastFired := some nominal, pulse := true }
      let s2 := wr s1 (ttOutA n + 0x28) (rd s1 (ttOutA n + 0x28) + 1)
      let s3 := if rb s2 (ttOutA n) 4 then ttRecord s2 n 2 t else s2
      if per = 0 ∨ ttCountReached s3 n = true then ttDone s3 n else ttAdvance s3 n nominal

/-- The level of the TT_OUTn ball: while EN = 0 high impedance or, with DRIVE = 1, the idle level; else the idle level or
the pulse, inverted by POL (R77). -/
def ttLevel (s : State) (n : Nat) : Option Bool :=
  let a := ttOutA n
  if rb s a 0 then some (xor (ttOutOf s n).pulse (rb s a 1))
  else if rb s a 2 then some (rb s a 1) else none

/-- TT_PULSE_END (R69). -/
def execTtPulseEnd (n : Fin 16) (s : State) : Host.Outcome State Fault Refusal :=
  .next (setTtOut s n { ttOutOf s n with pulse := false })

def ttInOf (s : State) (m : Nat) : TtIn := tget (fun _ => TtIn.cold) s.ttIn m

def setTtIn (s : State) (m : Nat) (x : TtIn) : State := { s with ttIn := tset (fun _ => TtIn.cold) s.ttIn m x }

def ttInA (m : Nat) : Nat := 0x600400 + 0x20 * m

/-- The edge is selected by EDGE (R77). -/
def ttEdgeSelected (s : State) (m : Nat) (rising : Bool) : Bool :=
  rb s (ttInA m) 0 && (if rising then rb s (ttInA m) 1 else rb s (ttInA m) 2)

/-- The record of a capture, or its drop (R78, R79). -/
def ttInRecord (s : State) (m : Nat) (rising : Bool) : State :=
  let x := ttInOf s m
  let r := 168 + rf s (ttInA m) 4 3
  let flags := (if rising then 1 else 2) + boolBit s.tb.timeValid 2
  let body := ttBody 1 m flags (stampBytes (ofT16 x.stamp)) x.seq x.dropped
  let seq := (x.seq + 1) % 2 ^ 32
  if recordFits s r then writeRecord (setTtIn s m { x with seq := seq, dropped := 0 }) r body
  else
    let s1 := orReg (setTtIn s m { x with seq := seq, dropped := x.dropped + 1 }) (ttInA m + 0x14) 2
    let s2 := if (ringOf s r).st = .running then bump s1 (ringA r + 0x1C) 1 else s1
    raiseLim s2 149 m (r - 168) [m]

/-- TT_CAPTURE: the edge lies `sub` sixteenths of a ns after the latest tick; one within 16 ns of the previous captured
edge is lost (R75). -/
def execTtCapture (m : Fin 16) (rising : Bool) (sub : Fin 32) (s : State) : Host.Outcome State Fault Refusal :=
  .next <|
    if ttEdgeSelected s m rising = false then s else
    let x := ttInOf s m
    let at_ := s.tb.ticks * 32 + sub.val
    let lost := match x.last with
      | some t => decide (at_ < t + 256)
      | none => false
    if lost then raiseLim (orReg s (ttInA m + 0x14) 1) 148 m m [m]
    else
      let stamp := ((nowT16 s : Int) + sub.val - rsf s (ttInA m + 4) 0 32).toNat
      let s1 := setTtIn s m { x with last := some at_, stamp := stamp, count := (x.count + 1) % 2 ^ 32 }
      if rb s1 (ttInA m) 3 then ttInRecord s1 m rising else s1

end Sys2Proof.Machine
end

