-- ==== Sys2Proof/Machine/Kaolin.lean ====
section
/-! DEFINITION. Candidate quality, selection, and the Kaolin DPLLs with holdover (R87 to R92, R103 to R119). -/

namespace Sys2Proof.Machine

/-! ## Candidates (R80, R92, R103) -/

def candA (i : Nat) : Nat := 0x400040 + 0x20 * i

/-- The PPS inputs are paired (R101). -/
def paired (s : State) : Bool := rb s 0x400028 0

/-- The primary channel of the pair. -/
def primary (s : State) : Nat := rf s 0x400028 1 1

def dpllOf (s : State) (d : Nat) : Dpll := tget (fun _ => Dpll.cold) s.dpl.d d

def setDpll (s : State) (d : Nat) (x : Dpll) : State :=
  { s with dpl := { s.dpl with d := tset (fun _ => Dpll.cold) s.dpl.d d x } }

/-- The logical port of a SyncE candidate (R84, R120). -/
def syncePort (s : State) (k : Nat) : Nat := rf s (0x400200 + 4 * k) 0 4

/-- A PPS channel has an expected instant and fewer than two missing seconds in a row (R99). -/
def ppsAlive (s : State) (p : Nat) : Bool := (ppsOf s p).expected.isSome && decide ((ppsOf s p).missRun < 2)

/-- Presence in a role (R81, R84, R85, R98, R99, R101, R121); role 0 time, 1 frequency. -/
def present (s : State) (i role : Nat) : Bool :=
  let c := candOf s i
  if i = 6 then decide (role = 1)
  else if rb s (candA i) 0 = false then false
  else if role = 0 then
    if rb s (candA i) 9 then false
    else if i = 0 then ppsAlive s (if paired s then primary s else 0) && c.traceable
    else if i = 1 then !paired s && ppsAlive s 1 && c.traceable
    else if i = 2 then c.presTime && !s.fuse.gnssAbsent
    else if i = 3 then c.presTime && rb s 0x400210 0
    else false
  else if i ≤ 1 then c.presFreq
  else if i = 2 then c.presFreq && !s.fuse.gnssAbsent
  else if i = 4 ∨ i = 5 then (portOf s (syncePort s (i - 4))).up
  else false

/-- The output QL of a DPLL (R114), given the eQL of its selected candidate. -/
def dpllQl (st : DpllState) (selQl : Nat) : Nat :=
  match st with
  | .narrow | .track => selQl
  | .holdover => 8
  | .freerun | .acquire => 11

/-- Codes 12 to 14 are treated as 15 (R87). -/
def qlNorm (q : Nat) : Nat := if 12 ≤ q then 15 else q

/-- The effective QL of candidates 0 to 5 (R92). -/
def eqlBase (s : State) (i : Nat) : Nat := max (qlNorm (candOf s i).rxql) (rf s (candA i) 4 4)

/-- The effective QL of a candidate; DPLL0's output carries DPLL0's output QL (R80, R92). -/
def eql (s : State) (i : Nat) : Nat :=
  if i = 6 then
    let d := dpllOf s 0
    dpllQl d.st (if d.sel < 6 then eqlBase s d.sel else 15)
  else if i < 6 then eqlBase s i else 15

/-- The output QL of a DPLL. -/
def outQl (s : State) (d : Nat) : Nat :=
  let x := dpllOf s d
  dpllQl x.st (eql s x.sel)

def qlMin (s : State) : Nat := rf s 0x400000 8 4

/-- The eQL lets the candidate qualify: QL_MIN or better, and never 15 (R92). -/
def qlFit (s : State) (i : Nat) : Bool := decide (eql s i ≤ qlMin s) && decide (eql s i ≠ 15)

/-- Agreement of two candidates in a role. -/
def agree (s : State) (x y role : Nat) : Bool :=
  let a := candOf s x
  let b := candOf s y
  if role = 0 then decide ((a.offset - b.offset).natAbs ≤ (rd s 0x400018).toNat * 16)
  else decide ((a.freq - b.freq).natAbs ≤ (rd s 0x400014).toNat)

/-- The peers of a candidate in a role; DPLL0's output is one in the frequency role, at frequency 0 against TBCLK, which
it makes (R36, R80, R103). -/
def peers (s : State) (c role : Nat) : List Nat :=
  (List.range 7).filter fun x => decide (x ≠ c) && present s x role && decide (eql s x ≤ qlMin s)

/-- The candidate is outvoted: two peers agree with each other and not with it (R103). -/
def outvoted (s : State) (c role : Nat) : Bool :=
  let ps := peers s c role
  ps.any fun x => ps.any fun y =>
    decide (x ≠ y) && agree s x y role && !agree s c x role && !agree s c y role

/-- Priority of a candidate in a priority word; 0 ranks after 15. -/
def prioOf (w : Word) (i : Nat) : Nat := fld w (4 * i) 4

/-- The key of a candidate as one number: eQL, priority, ID (R103). -/
def keyOf (s : State) (w : Word) (i : Nat) : Nat :=
  let p := prioOf w i
  eql s i * 1000 + (if p = 0 then 16 else p) * 10 + i

/-- The tie-break key of a role: the frequency role has no priorities. -/
def tieKey (s : State) (role i : Nat) : Nat :=
  if role = 0 then keyOf s (rd s 0x400004) i else eql s i * 1000 + i

/-- cross_ok of R103. -/
def crossOk (s : State) (c role : Nat) : Bool :=
  let ps := peers s c role
  let sel := if role = 0 then s.ref.tsel else (dpllOf s 0).sel
  if ps.isEmpty then true
  else if outvoted s c role then false
  else if ps.any (fun x => agree s c x role) then true
  else if sel ≠ 7 then decide (c = sel)
  else (ps ++ [c]).all fun x => decide (tieKey s role c ≤ tieKey s role x)

def stateCode : RoleState → Nat
  | .absent => 0
  | .disqualified => 1
  | .qualifying => 2
  | .qualified => 3

/-- The role state of a candidate. -/
def roleState (s : State) (i role : Nat) : RoleState := if role = 0 then (candOf s i).stT else (candOf s i).stF

/-- A candidate's role takes a good count and a state; a change raises REF_QUAL_CHANGE (R103, R124). -/
def setRole (s : State) (i role good : Nat) (st : RoleState) : State :=
  let c := candOf s i
  let c1 : Cand := if role = 0 then { c with goodT := good, stT := st } else { c with goodF := good, stF := st }
  let s1 := setCand s i c1
  if st = roleState s i role then s1 else raiseN s1 81 i [i]

/-- Candidate 0 is discrepant in this second: DISCREPANT stands and no second has agreed since (R102, R103). -/
def discrepantNow (s : State) (i role : Nat) : Bool :=
  decide (role = 0 ∧ i = 0) && s.ref.pairDisc && decide (s.ref.pairAgree = 0)

/-- The evaluation of one candidate in one role (R103, R104). A discrepant second disqualifies candidate 0; while
DISCREPANT stands after it the qualification count runs and the time role stays short of qualified (R102). DESIGN CHOICE (log entry 88): DISCREPANT stays set when
REF_PAIR_CTL.EN is cleared, so that candidate 0 cannot qualify until pairing has run again. Candidate 6 has no QUAL_TIME
and qualifies at its first good evaluation (log entry 34). -/
def evalRole (s : State) (i role : Nat) : State :=
  let c := candOf s i
  let cross := crossOk s i role
  let out := present s i role && qlFit s i && outvoted s i role
  let ok := present s i role && qlFit s i && cross && !discrepantNow s i role
    && (decide (role = 1) || c.tod || decide (i = 3))
  let waits := decide (role = 0 ∧ i = 0) && s.ref.pairDisc
  let good := if ok then min 1023 ((if role = 0 then c.goodT else c.goodF) + 1) else 0
  let st : RoleState := if ok then (if rf s (candA i) 16 10 ≤ good ∧ waits = false then .qualified else .qualifying)
    else if present s i role then .disqualified else .absent
  let was := if role = 0 then c.outT else c.outF
  let s1 := setRole s i role good st
  let c1 := candOf s1 i
  let s2 := setCand s1 i (if role = 0 then { c1 with outT := out } else { c1 with outF := out })
  if out ∧ was = false then raiseN s2 82 i [i, role] else s2

def evalAll : List Nat → State → State
  | [], s => s
  | i :: is, s => evalAll is (evalRole (evalRole s i 0) i 1)

/-! ## The oscillator model and the error estimate (R116 to R119) -/

/-- The model in 0.001 ppb, over 864,000,000. -/
def modelNum (m : HistModel) (sec : Int) (temp : Int) : Int :=
  let dt := temp - m.t0
  m.f0 * 864000000 + m.age * (sec - m.th) * 10000 + m.tc1 * dt * 8640000 + m.tc2 * dt * dt * 86400

/-- A model value in ppt. -/
def modelPpt (n : Int) : Int := roundDiv n 864000000

/-- E in holdover after t seconds (R119), rounded up and saturating. DESIGN CHOICE (log entry 110): without a HIST model
its three terms are 0, and E stays E0. -/
def hoEstimate (m : Option HistModel) (e0 t : Nat) (dTemp : Nat) : Nat :=
  let f := match m with
    | some m => m.sigF.toNat * t * 172800 + m.sigA.toNat * t * t + m.sigT.toNat * dTemp * t * 1728
    | none => 0
  min 0xFFFFFFFF (ceilDiv (e0 * 172800000 + f) 172800000)

/-- E while a time candidate is selected. -/
def selEstimate (s : State) : Nat :=
  min 0xFFFFFFFF ((rd s (candA s.ref.tsel + 8)).toNat + s.tb.offset.natAbs)

/-! ## Selection (R105 to R108, R110, R112, R113) -/

/-- The choice of a selector (R105). -/
def choose (s : State) (role : Nat) (w : Word) (cur : Nat) (obey : Bool) (ids excl : List Nat) : Nat :=
  let cands := ids.filter fun i =>
    decide (prioOf w i ≠ 0) && !excl.contains i
      && decide (roleState s i role = .qualified)
  let forceId := rf s 0x400000 3 3
  if obey && rb s 0x400000 2 then (if cands.contains forceId then forceId else 7)
  else
    match cands with
    | [] => 7
    | c :: cs =>
      let want := cs.foldl (fun a b => if keyOf s w b < keyOf s w a then b else a) c
      if cands.contains cur ∧ rb s 0x400000 0 = false ∧ eql s cur = eql s want then cur else want

/-- The time selection takes a value; none is the servo's holdover (R51, R106). -/
def takeSelection (s : State) (want : Nat) : State :=
  let s1 : State := { s with ref := { s.ref with tsel := want } }
  let s2 := if want = 7 then servoHold s1
    else
      let s3 := endHold s1
      { s3 with ref := { s3.ref with lastSel := want, everSel := true } }
  raiseN s2 80 want [want]

/-- The phase rule of a change of time selection by an offset difference in 1/16 ns: build-out, passed phase or a
cleared build-out; none where the switch is refused (R108). -/
def buildOut (s : State) (delta : Int) : Option State :=
  if s.tb.timeValid = false then some { s with ref := { s.ref with bo := 0 } }
  else if rb s 0x400000 1 then some s
  else if delta.natAbs ≤ (rd s 0x40001C).toNat * 16 then
    some { s with ref := { s.ref with bo := s.ref.bo + delta * 1000 } }
  else none

/-- A change of the time selection (R108). -/
def timeSwitch (s : State) (want : Nat) : State :=
  let old := s.ref.tsel
  if want = 7 then takeSelection s 7
  else
    let delta := (candOf s want).offset - (if old = 7 then 0 else (candOf s old).offset)
    match buildOut s delta with
    | some s1 => tryRise (takeSelection s1 want)
    | none =>
      let s1 := raiseN (setRole s want 0 0 .qualifying) 83 want [want]
      if old ≠ 7 ∧ roleState s1 old 0 ≠ .qualified then takeSelection s1 7 else s1

/-- The servo follows the ring or the pair; time selection is suspended (R86). -/
def follows (s : State) : Bool := mitStandby s || brimMember s

/-- The time selector; suspended in a Brim member and a Mitten standby (R86, R105). -/
def selectTime (s : State) : State :=
  if follows s then s else
  let want := choose s 0 (rd s 0x400004) s.ref.tsel true [0, 1, 2, 3] []
  if want = s.ref.tsel then s else timeSwitch s want

/-- Time selection resumes in the state that qualification holds: a change of selection from the ring or pair to the
unit's own reference, which follows R108 (R86, R424); where that is refused, the selection of before is none (R106). -/
def resumeTime (s : State) : State :=
  let want := choose s 0 (rd s 0x400004) 7 true [0, 1, 2, 3] []
  if want = 7 then (if s.ref.tsel = 7 then s else takeSelection s 7)
  else
    let t := timeSwitch { s with ref := { s.ref with tsel := 7 } } want
    if t.ref.tsel = 7 ∧ s.ref.tsel ≠ 7 then takeSelection t 7 else t

/-- What the servo follows may have changed with the state of the ring or of the pair: time selection resumes when the
device follows no more, and the servo holds while it has no source (R51, R86, R407, R416). -/
def sourceChanged (before s : State) : State :=
  let s1 := if follows before = true ∧ follows s = false then resumeTime s else s
  if servoSource s1 = servoSource before then s1
  else if servoSource s1 = 7 then servoHold s1 else endHold s1

def dpllCode : DpllState → Nat
  | .freerun => 0
  | .acquire => 1
  | .narrow => 2
  | .track => 3
  | .holdover => 4

/-- The frequency averaged over the 60 s that end 2 s before now (R117). -/
def entryFreq (x : Dpll) : Int :=
  let h := (x.hist.drop 2).take 60
  match h with
  | [] => x.freq
  | _ => roundDiv (h.foldl (· + ·) 0) h.length

/-- A DPLL takes a state: DPL_STATE, and for DPLL0 the holdover events and their alarm (R112, R124). -/
def dpllTo (s : State) (d : Nat) (st : DpllState) : State :=
  let x := dpllOf s d
  if x.st = st then s else
  let enters := decide (st = .holdover)
  let x1 := { x with st := st, fEntry := if enters then entryFreq x else x.fEntry,
                     freq := if enters then entryFreq x else x.freq }
  let s1 := setDpll s d x1
  let s2 := if d = 0 ∧ enters = true then
      { s1 with dpl := { s1.dpl with d0Sec := nowSec s1, d0Temp := s1.dpl.temp } } else s1
  let s3 := raiseN s2 56 d [d]
  if d = 0 ∧ enters = true then raiseN s3 57 0 [0]
  else if d = 0 ∧ x.st = .holdover then alarmClear (raiseN s3 58 0 [0]) 57 else s3

/-- The state that follows ACQUIRE or HOLDOVER (R112). -/
def lockState (s : State) (d : Nat) : DpllState := if rb s (0x480000 + 0x40 * d) 0 then .narrow else .track

/-- A change of input of a DPLL (R110, R112). -/
def dpllSwitch (s : State) (d want : Nat) : State :=
  let x := dpllOf s d
  let builds := decide (x.st = .narrow ∨ x.st = .track ∨ x.st = .holdover) && decide (want ≠ 7) && !rb s 0x400000 1
  let bo := if builds then x.bo + Config.phaseDifference d want s.tb.ticks else x.bo
  let s1 := setDpll s d { x with sel := want, bo := bo }
  if want = 7 then
    match x.st with
    | .acquire => dpllTo s1 d .freerun
    | .narrow | .track => dpllTo s1 d .holdover
    | _ => s1
  else
    match x.st with
    | .freerun => dpllTo s1 d .acquire
    | .holdover => dpllTo s1 d (lockState s1 d)
    | _ => s1

/-- A DPLL selector (R105, R107, R113). -/
def selectDpll (s : State) (d : Nat) : State :=
  let x := dpllOf s d
  let ids := if d = 0 then [0, 1, 2, 4, 5] else [0, 1, 2, 4, 5, 6]
  let want := choose s 1 (rd s (0x480004 + 0x40 * d)) x.sel (rb s (0x480000 + 0x40 * d) 8) ids (x.excl.map (·.1))
  if want = x.sel then s else dpllSwitch s d want

/-- Selection by every selector (R105, R106). -/
def selectAll (s : State) : State := selectDpll (selectDpll (selectDpll (selectTime s) 0) 1) 2

/-- A role is lost at once, and selection runs (R81, R84, R99, R106). -/
def loseRole (s : State) (i role : Nat) : State :=
  if roleState s i role = .absent then s else selectAll (setRole s i role 0 .absent)

/-- A role that a candidate's settings take away is lost: EN = 0 makes it absent, FREQ_ONLY leaves no time role
(R106, R121). -/
def dropAbsent (s : State) (i : Nat) : State :=
  let s1 := if present s i 0 then s else loseRole s i 0
  if present s1 i 1 then s1 else loseRole s1 i 1

/-- A received QL takes effect; a worse one that passes QL_MIN disqualifies at once, and selection runs (R88, R106). -/
def takeQl (s : State) (i ql raw : Nat) : State :=
  let c := candOf s i
  let worse := decide (qlNorm c.rxql < qlNorm ql)
  let s1 := setCand s i { c with rxql := qlNorm ql, raw := raw }
  if worse then
    let bad := !qlFit s1 i
    let s2 := if bad ∧ roleState s1 i 0 ≠ .absent then setRole s1 i 0 0 .disqualified else s1
    let s3 := if bad ∧ roleState s2 i 1 ≠ .absent then setRole s2 i 1 0 .disqualified else s2
    selectAll s3
  else s1

/-- The seconds of an excluded candidate (R113). -/
def exclTick (s : State) (d : Nat) : State :=
  let x := dpllOf s d
  let es := x.excl.filterMap fun e =>
    let n := if roleState s e.1 1 = .qualified then e.2 + 1 else 0
    if rf s (candA e.1) 16 10 ≤ n then none else some (e.1, n)
  let locked := decide (x.st = .acquire ∨ x.st = .narrow ∨ x.st = .track)
  let f := if locked then Config.dpllFreq d s.tb.ticks else x.freq
  setDpll s d { x with excl := es, freq := f, hist := (f :: x.hist).take 62 }

/-- REF_EVALUATE: the 16 s frequencies are taken, every candidate is judged, the selectors choose (R103 to R110). -/
def execRefEvaluate (freqs : List Int) (s : State) : Host.Outcome State Fault Refusal :=
  .next <|
    let s0 := (List.range 6).foldl (fun t i => setCand t i { candOf t i with freq := freqs.getD i (candOf t i).freq }) s
    let s1 := evalRole (evalAll [0, 1, 2, 3, 4, 5] s0) 6 1
    let s2 := selectAll (exclTick (exclTick (exclTick s1 0) 1) 2)
    if s2.ent.ready = true ∧ (List.range 6).any (fun i => decide ((candOf s2 i).stT = .qualified)) then noteStep s2 6 else s2

/-- DPLL_ACQUIRE_LOCK (R112). -/
def execDpllAcquireLock (d : Fin 3) (s : State) : Host.Outcome State Fault Refusal :=
  .next (if (dpllOf s d).st = .acquire then dpllTo s d (lockState s d) else s)

/-- DPLL_NARROW_DONE (R112). -/
def execDpllNarrowDone (d : Fin 3) (s : State) : Host.Outcome State Fault Refusal :=
  .next (if (dpllOf s d).st = .narrow then dpllTo s d .track else s)

/-- DPLL0's output falls to an output QL that cannot qualify: candidate 6 is disqualified at once (R92, R106, R114). -/
def demoteOutput (s : State) : State :=
  if qlFit s 6 = false ∧ roleState s 6 1 ≠ .absent then setRole s 6 1 0 .disqualified else s

/-- DPL_LOCKLOSS: HOLDOVER, the candidate excluded, and selection runs in every selector (R106, R113). -/
def execDplLockloss (d : Fin 3) (s : State) : Host.Outcome State Fault Refusal :=
  .next <|
    let x := dpllOf s d
    if x.st = .narrow ∨ x.st = .track then
      let s1 := setDpll s d { x with excl := x.excl.filter (fun e => decide (e.1 ≠ x.sel)) ++ [(x.sel, 0)], sel := 7 }
      selectAll (demoteOutput (raiseN (dpllTo s1 d .holdover) 60 d [d]))
    else s

/-- HOLDOVER_STEER: DPLL0 follows the model, once per second in holdover (R117). -/
def execHoldoverSteer (temp : Int) (s : State) : Host.Outcome State Fault Refusal :=
  .next <|
    let s1 : State := { s with dpl := { s.dpl with temp := temp } }
    let x := dpllOf s1 0
    match x.st, s.dpl.model with
    | .holdover, some m =>
      let now := modelNum m (nowSec s) temp
      let entry := modelNum m s.dpl.d0Sec s.dpl.d0Temp
      setDpll s1 0 { x with freq := x.fEntry + modelPpt (now - entry) }
    | _, _ => s1

/-- E of the present second: all ones before the first selection, the model's estimate in holdover, the accuracy and the
offset of the selected candidate else (R119). A unit that follows the ring or the pair keeps the last value (log entry
87). -/
def errorEstimate (s : State) (temp : Int) : Nat :=
  let d := s.dpl
  if s.ref.everSel = false then full
  else if s.tb.holdover then hoEstimate d.model d.e0 (d.hoT + 1) (temp - d.tEntry).natAbs
  else if s.ref.tsel < 6 then selEstimate s
  else d.hoErr

/-- HO_ERR_UPDATE: E, and the fall of TIME_VALID where it exceeds the budget in holdover (R54, R119). -/
def execHoErrUpdate (temp : Int) (s : State) : Host.Outcome State Fault Refusal :=
  .next <|
    let e := errorEstimate s temp
    let s1 := userTouch { s with dpl := { s.dpl with
      temp := temp, hoErr := e, hoT := if s.tb.holdover then s.dpl.hoT + 1 else s.dpl.hoT } }
    if s.tb.holdover = true ∧ (rd s 0x300058).toNat < e ∧ s.tb.timeValid = true then
      setValid { s1 with tb := { s1.tb with stepArmed := true } } false
    else s1

/-- HIST_SAMPLE: a sample joins the latest 30 days, and the model is fitted again (R118). DESIGN CHOICE (log entry 111):
the refitted model is in use, and DPL_MODEL_* show it, before HIST is committed. -/
def execHistSample (freq temp : Int) (s : State) : Host.Outcome State Fault Refusal :=
  .next <|
    if (dpllOf s 0).st = .track ∧ s.ref.tsel < 6 ∧ eql s s.ref.tsel ≤ 3 then
      let now := nowSec s
      let xs := (now, freq, temp) :: s.dpl.samples.filter fun e => decide (now < e.1 + 2592000)
      let c := Config.histFit xs
      { s with dpl := { s.dpl with samples := xs, model := some {
          f0 := c 0, age := c 1, tc1 := c 2, tc2 := c 3, t0 := c 4, sigF := c 5, sigA := c 6, sigT := c 7,
          th := (c 8).toNat } } }
    else s

end Sys2Proof.Machine
end

