-- ==== Sys2Proof/Machine/References.lean ====
section
/-! DEFINITION. The reference inputs: frequency gates, PPS edges, Lorterno messages, pairing, ESMC quality, and the
offsets that candidates deliver (R81 to R102, R537). -/

namespace Sys2Proof.Machine

/-- One second in 1/16 ns. -/
def sec16 : Int := 16000000000

/-- The candidate whose counters and registers an input uses (R101). -/
def candOfInput (s : State) (p : Nat) : Nat := if p < 2 ∧ paired s = true then 0 else p

def refGlitchA (i : Nat) : Nat := 0x400300 + 0x10 * i
def refMissA (i : Nat) : Nat := 0x400304 + 0x10 * i
def refMsgErrA (i : Nat) : Nat := 0x400308 + 0x10 * i
def refMsgWindowA (i : Nat) : Nat := 0x40030C + 0x10 * i

/-- The window of a candidate in 1/16 ns (R99). -/
def winOf (s : State) (p : Nat) : Nat := (rd s (candA p + 0x0C)).toNat * 16

/-- The delay of a candidate in 1/16 ns (R82). -/
def delayOf (s : State) (i : Nat) : Int := rsf s (candA i + 4) 0 32

/-! ## Frequency inputs (R81) -/

/-- The candidates that take a frequency input: its own, and candidate 0 where the input is the primary channel. -/
def freqUsers (s : State) (p : Nat) : List Nat :=
  if paired s then (if primary s = p then [0] else []) ++ (if p = 1 then [1] else []) else [p]

def takeFreq (here : Bool) : List Nat → State → State
  | [], s => s
  | i :: is, s =>
    let s1 := setCand s i { candOf s i with presFreq := here }
    takeFreq here is (if here then s1 else loseRole s1 i 1)

/-- REF_FREQ_GATE: the input is present within ±100 ppm; a loss removes the frequency role at once. -/
def execRefFreqGate (i : Fin 2) (ppb : Option Int) (s : State) : Host.Outcome State Fault Refusal :=
  .next <|
    let here := match ppb with
      | some f => decide (f.natAbs ≤ 100000)
      | none => false
    takeFreq here (freqUsers s i) s

/-! ## Offsets and stated time (R82, R85, R98) -/

/-- An offset of a candidate reaches REF: device time minus reference time in 1/16 ns, the delay of the input it was
measured on subtracted (R82). -/
def takeOffsetOf (s : State) (i : Nat) (delay off16 : Int) : State :=
  let c := candOf s i
  let o := off16 - delay
  setCand s i { c with offset := o, fresh := true, sum := c.sum + o, cnt := c.cnt + 1 }

/-- An offset measured on the candidate itself. -/
def takeOffset (s : State) (i : Nat) (off16 : Int) : State := takeOffsetOf s i (delayOf s i) off16

/-- A valid message names the TAI second of its edge: ToD consistency (R98). -/
def takeSecond (s : State) (i : Nat) (sec : Nat) : State :=
  let c := candOf s i
  let s1 := match c.lastSec with
    | none => setCand s i { c with lastSec := some sec, noMsg := 0, tod := false }
    | some l => setCand s i { c with lastSec := some sec, noMsg := 0,
                                     tod := decide (sec = l + 1 + c.noMsg ∧ c.noMsg ≤ 2) }
  if c.tod ∧ (candOf s1 i).tod = false ∧ roleState s1 i 0 ≠ .absent then
    selectAll (setRole s1 i 0 0 .disqualified)
  else s1

/-- A second without a valid message; the third in a row ends ToD consistency (R98). -/
def noSecond (s : State) (i : Nat) : State :=
  let c := candOf s i
  let n := c.noMsg + 1
  let s1 := setCand s i { c with noMsg := n, tod := c.tod && decide (n < 3) }
  if c.tod ∧ 3 ≤ n ∧ roleState s1 i 0 ≠ .absent then selectAll (setRole s1 i 0 0 .disqualified) else s1

/-- What a candidate states of UTC feeds the leap rules while it is the selected time reference (R59, R60). -/
def takeUtc (s : State) (i : Nat) (ofs : Option Int) (l61 l59 : Bool) : State :=
  let c := candOf s i
  let s1 := if l61 && l59 then setCand s i { c with utcOfs := ofs }
    else setCand s i { c with utcOfs := ofs, leap61 := l61, leap59 := l59 }
  if s1.ref.tsel = i then
    let s2 := if l61 && l59 then s1 else leapSchedule s1
    match ofs with
    | some o => statedOffset s2 i o
    | none => s2
  else s1

/-! ## Lorterno (R93 to R97, R537) -/

def msgErr (s : State) (i : Nat) : State := raiseN (bump s (refMsgErrA i) 1) 87 i [i]
def msgWindow (s : State) (i : Nat) : State := raiseN (bump s (refMsgWindowA i) 1) 87 i [i]

/-- The check of a whole message (R93 to R95). -/
def lorternoOk (m : Bytes) : Bool :=
  decide (m.length = 18) && decide (be16 m 0 = 0x4C54) && decide (byteAt m 2 = 1) && decide (byteAt m 3 = 12)
  && decide (crc16 (sub m 2 14) = be16 m 16) && decide (byteAt m 12 % 4 ≠ 3) && decide (byteAt m 13 < 16)

/-- The message of a second is used: quality, class, traceability, seconds, UTC (R87, R93, R98). -/
def useMessage (s : State) (i : Nat) (m : Bytes) : State :=
  let q := byteAt m 13
  let fl := BitVec.ofNat 8 (byteAt m 15)
  let lp := byteAt m 12
  let s1 := setCand s i { candOf s i with srcClass := min 4 (byteAt m 14), traceable := fl.getLsbD 0 }
  let s2 := takeSecond s1 i (beNat (subPad m 4 6))
  let s3 := if fl.getLsbD 0 = false then loseRole s2 i 0 else s2
  takeQl (takeUtc s3 i (some (signed 16 (be16 m 10))) (decide (lp % 2 = 1)) (decide (lp / 2 % 2 = 1))) i q q

/-- How many of the waiting messages are outside the window of an edge. -/
def windowMisses (edge : Nat) (ms : List LorMsg) : Nat :=
  (ms.filter fun m => !decide (m.fin + 1600000000 ≤ edge ∧ edge ≤ m.fin + 14400000000)).length

def windowHits (edge : Nat) (ms : List LorMsg) : List LorMsg :=
  ms.filter fun m => decide (m.fin + 1600000000 ≤ edge ∧ edge ≤ m.fin + 14400000000)

def msgWindows : Nat → State → Nat → State
  | 0, s, _ => s
  | n + 1, s, i => msgWindows n (msgWindow s i) i

/-- The waiting messages of an input are judged against an edge or an expected instant (R96, R97). -/
def judgeMessages (s : State) (p : Nat) (edge : Nat) : State :=
  let i := candOfInput s p
  let x := ppsOf s p
  let hits := windowHits edge x.msgs
  let s1 := msgWindows (windowMisses edge x.msgs) (setPps s p { x with msgs := [] }) i
  match hits.reverse with
  | [] => noSecond s1 i
  | last :: rest =>
    if rest.all (fun m => decide (sub m.bytes 4 12 = sub last.bytes 4 12)) then useMessage s1 i last.bytes
    else noSecond (msgErr s1 i) i

/-- Whether the TOD input of a channel is in use (R101). DESIGN CHOICE (log entry 112): the other channel's messages and
their errors are neither kept nor counted while pairing is on. -/
def todUsed (s : State) (p : Nat) : Bool := !paired s || decide (primary s = p)

/-- A whole message has been received: checked, and kept until its edge (R95, R96). -/
def wholeMessage (s : State) (p : Nat) (msg : Bytes) : State :=
  if todUsed s p = false then s
  else if lorternoOk msg then
    let x := ppsOf s p
    setPps s p { x with msgs := x.msgs ++ [{ fin := nowT16 s, bytes := msg }] }
  else msgErr s (candOfInput s p)

/-- The receiver after one more byte: it hunts for the sync pair, and a message runs for 6 + Length bytes (R537). The
second part is the message that the byte completes. -/
def huntByte (rx : Bytes) (b : Byte) : Bytes × Option Bytes :=
  if rx.length = 0 then (if b = 0x4C then [b] else [], none)
  else if rx.length = 1 then (if b = 0x54 then rx ++ [b] else if b = 0x4C then [b] else [], none)
  else
    let m := rx ++ [b]
    if 4 ≤ m.length ∧ m.length = 6 + byteAt m 3 then ([], some m) else (m, none)

/-- A byte reaches a TOD input (R537). -/
def todByte (s : State) (p : Nat) (b : Byte) : State :=
  let h := huntByte (ppsOf s p).rx b
  let s1 := setPps s p { ppsOf s p with rx := h.1 }
  match h.2 with
  | some m => wholeMessage s1 p m
  | none => s1

/-- Bytes reach a TOD input in order. -/
def todBytes (p : Nat) : Bytes → State → State
  | [], s => s
  | b :: bs, s => todBytes p bs (todByte s p b)

/-- LORTERNO_MESSAGE: bytes without framing error and without a gap reach the receiver (R537). -/
def execLorternoMessage (input : Fin 2) (msg : Bytes) (s : State) : Host.Outcome State Fault Refusal :=
  .next (todBytes input msg s)

/-- The message in progress is discarded and counted; a receiver that hunts has none (R537). -/
def todDiscard (s : State) (p : Nat) : State :=
  let s1 := setPps s p { ppsOf s p with rx := [] }
  if 2 ≤ (ppsOf s p).rx.length ∧ todUsed s p = true then msgErr s1 (candOfInput s p) else s1

/-- LORTERNO_BYTE_GAP (R537). -/
def execLorternoByteGap (input : Fin 2) (s : State) : Host.Outcome State Fault Refusal := .next (todDiscard s input)

/-- LORTERNO_FRAMING_ERROR (R537). -/
def execLorternoFramingError (input : Fin 2) (s : State) : Host.Outcome State Fault Refusal := .next (todDiscard s input)

/-- LORTERNO_WINDOW_TIMEOUT: the oldest waiting message is counted and forgotten (R96). -/
def execLorternoWindowTimeout (input : Fin 2) (s : State) : Host.Outcome State Fault Refusal :=
  .next <|
    match (ppsOf s input).msgs with
    | [] => s
    | _ :: ms => msgWindow (setPps s input { ppsOf s input with msgs := ms }) (candOfInput s input)

/-! ## PPS (R99 to R102) -/

/-- The accepted edge of a candidate yields an offset where its second has a valid message; `delay` is that of the
channel the edge came on (R82, R96, R98, R101). -/
def ppsOffset (s : State) (i : Nat) (delay : Int) (edge : Nat) : State :=
  let c := candOf s i
  match c.lastSec with
  | some sec => if c.noMsg = 0 then takeOffsetOf s i delay ((edge : Int) - sec * sec16) else s
  | none => s

/-- An accepted edge: the next one is expected 1 s later, messages are judged, the offset is taken; a pair's offset
waits for the comparison (R101). -/
def acceptEdge (s : State) (p edge : Nat) : State :=
  let x := ppsOf s p
  let s1 := setPps s p { x with accepted := some edge, expected := some (edge + 16000000000), missRun := 0,
                                outRun := [], outSeen := false }
  let i := candOfInput s p
  if paired s then (if primary s = p then judgeMessages s1 p edge else s1)
  else ppsOffset (judgeMessages s1 p edge) i (delayOf s p) edge

/-- Two phases agree within a window, whole seconds taken off. -/
def samePhase (w : Nat) (a b : Nat) : Bool :=
  let d := ((a : Int) - b).natAbs % 16000000000
  decide (d ≤ w ∨ 16000000000 ≤ d + w)

/-- Two edges lie 1 s ± 1 µs apart (R99). -/
def secondApart (a b : Nat) : Bool := decide ((((b : Int) - a) - sec16).natAbs ≤ 16000)

/-- A glitch: counted, and one edge of each second kept for the re-acquisition rule (R99, R100). DESIGN CHOICE (log entry
89): of the edges outside the window in one second the first is kept for the run, and an accepted edge clears the run. -/
def glitchEdge (s : State) (p edge : Nat) : State :=
  let i := candOfInput s p
  let x := ppsOf s p
  let run := if x.outSeen then x.outRun else (edge :: x.outRun).take 4
  let moved := decide (run.length = 4) && run.all (fun a => run.all fun b => samePhase (winOf s p) a b)
  let s1 := raiseN (bump s (refGlitchA i) 1) 84 i [i]
  if moved then
    let apart := secondApart (run.getD 1 0) edge
    let s2 := setPps s1 p { x with expected := if apart then some (edge + 16000000000) else none,
                                   recent := [edge], accepted := none, missRun := 0, outRun := [], outSeen := false }
    selectAll (setRole s2 i 0 0 (if present s2 i 0 then .disqualified else .absent))
  else setPps s1 p { x with outRun := run, outSeen := true }

/-- An edge without an expected instant: with any edge 1 s ± 1 µs before it the input acquires (R99). -/
def acquireEdge (x : PpsIn) (t : Nat) : PpsIn :=
  let acquires := x.recent.any fun f => secondApart f t
  { x with recent := t :: (x.recent.filter fun f => decide ((t : Int) - f ≤ sec16 + 16000)),
           missRun := if acquires then 0 else x.missRun,
           expected := if acquires then some (t + 16000000000) else none }

/-- PPS_EDGE: the edge lies `sub` sixteenths of a ns after the latest tick of TBCLK (R99, R100, R101). -/
def execPpsEdge (input : Fin 2) (sub : Fin 32) (s : State) : Host.Outcome State Fault Refusal :=
  .next <|
    let p : Nat := input
    let x := ppsOf s p
    let t := nowT16 s + sub.val
    match x.expected with
    | none =>
      let s1 := setPps s p (acquireEdge x t)
      if todUsed s p then judgeMessages s1 p t else s1
    | some e =>
      if ((t : Int) - e).natAbs ≤ winOf s p then acceptEdge s p t else glitchEdge s p t

/-- A missing second of a candidate: counted and reported; the second in a row ends the roles that come from PPS
(R99). -/
def missCount (s : State) (i run : Nat) : State :=
  let s1 := raiseN (bump s (refMissA i) 1) 85 i [i]
  if run < 2 then s1
  else
    let s2 := if i = 2 then setCand s1 2 { candOf s1 2 with presTime := false, presFreq := false } else s1
    let s3 := loseRole s2 i 0
    if i = 2 then loseRole s3 2 1 else s3

/-- The input after a second without an accepted edge (R99, R100). -/
def PpsIn.missed (x : PpsIn) : PpsIn :=
  { x with expected := x.expected.map (· + 16000000000), accepted := none, missRun := x.missRun + 1,
           outRun := if x.outSeen then x.outRun else [], outSeen := false }

/-- A missing second of GNSS. Its message is of no use to a later edge (R83); without one the QL is 15, while a message
of that second has set it already (R91). -/
def gnssMissed (s : State) : State :=
  let x := (ppsOf s 2).missed
  let s1 : State := { setPps s 2 x with gn := { s.gn with msg := none, msgSeen := false } }
  let s2 := match s.gn.msg with
    | some (sec, _) => takeSecond s1 2 sec
    | none => if s.gn.msgSeen then s1 else noSecond s1 2
  let s3 := missCount s2 2 x.missRun
  if s.gn.msgSeen then s3 else takeQl s3 2 15 15

/-- MISSING_SECOND (R99). In a pair the candidate's second is judged by the comparison (R101). DESIGN CHOICE (log entry
90): the waiting messages of an input without an expected instant are judged against the present instant. -/
def execMissingSecond (i : Fin 3) (s : State) : Host.Outcome State Fault Refusal :=
  .next <|
    let p : Nat := i
    if p = 2 then gnssMissed s
    else
      let edge := (ppsOf s p).expected.getD (nowT16 s)
      let s1 := setPps s p (ppsOf s p).missed
      if paired s then (if primary s = p then judgeMessages s1 p edge else s1)
      else missCount (judgeMessages s1 p edge) p (ppsOf s1 p).missRun

/-- A discrepant second (R102). -/
def discrepant (s : State) : State :=
  let s1 : State := { s with ref := { s.ref with pairAgree := 0, pairDisc := true } }
  let s2 := if roleState s1 0 0 = .absent then s1 else setRole s1 0 0 0 .disqualified
  selectAll (raiseN (bump s2 0x4002F0 1) 86 0 [0])

/-- REF_PAIR_COMPARE (R101, R102). -/
def execRefPairCompare (s : State) : Host.Outcome State Fault Refusal :=
  .next <|
    if paired s = false then s else
    let p := primary s
    let q := 1 - p
    let a := (ppsOf s p).accepted
    let b := (ppsOf s q).accepted
    let s0 := setPps (setPps s p { ppsOf s p with accepted := none }) q
      { ppsOf (setPps s p { ppsOf s p with accepted := none }) q with accepted := none }
    match a, b with
    | some ta, some tb =>
      let delta := ((tb : Int) - delayOf s q) - ((ta : Int) - delayOf s p)
      if delta.natAbs ≤ rf s 0x400028 16 14 * 16 then
        let n := min 16 (s.ref.pairAgree + 1)
        let clears := decide (n = 16) && s.ref.pairDisc
        let s1 : State := { s0 with ref := { s0.ref with pairAgree := n, pairDisc := s.ref.pairDisc && decide (n < 16) } }
        let s2 := ppsOffset s1 0 (delayOf s p) ta
        if clears then alarmClear s2 86 else s2
      else discrepant s0
    | none, none => missCount s0 0 (ppsOf s p).missRun
    | _, _ => discrepant s0

/-! ## ESMC (R84, R87 to R89) -/

/-- The QL of a received SSM and eSSM code; `none` for a code that the table does not list (R87, R88). -/
def esmcQl (ssm : Nat) (essm : Option Nat) : Option Nat :=
  if ssm = 2 then
    match essm with
    | some 0x21 => some 0
    | some 0x20 => some 1
    | some 0x23 => some 2
    | _ => some 3
  else if ssm = 4 then some 4
  else if ssm = 8 then some 5
  else if ssm = 0xB then (if essm = some 0x22 then some 6 else some 7)
  else if ssm = 0xF then some 15
  else none

/-- The codes sent for an output QL (R89). -/
def esmcCode (ql : Nat) : Nat × Option Nat :=
  if ql = 0 then (2, some 0x21)
  else if ql = 1 then (2, some 0x20)
  else if ql = 2 then (2, some 0x23)
  else if ql = 3 then (2, some 0xFF)
  else if ql = 4 then (4, none)
  else if ql = 5 then (8, none)
  else if ql = 6 then (0xB, some 0x22)
  else if ql ≤ 11 then (0xB, some 0xFF)
  else (0xF, none)

/-- A received ESMC information PDU of a SyncE candidate (R88). DESIGN CHOICE (log entry 91): an eSSM code that the table
lists with no SSM is ignored like one that does not belong, and the SSM code alone maps. -/
def takeEsmc (s : State) (i ssm : Nat) (essm : Option Nat) : State :=
  match esmcQl ssm essm with
  | some q => takeQl s i q ssm
  | none => takeQl (raiseN s 89 i [i]) i 15 ssm

/-- REF_ESMC_TIMEOUT (R88). -/
def execRefEsmcTimeout (k : Fin 2) (s : State) : Host.Outcome State Fault Refusal :=
  .next <|
    let i := 4 + k.val
    takeQl (raiseN s 88 i [i]) i 15 (candOf s i).raw

end Sys2Proof.Machine
end

