-- ==== Sys2Proof/Machine/Ports.lean ====
section
/-! DEFINITION. The line ports' shared operations: which ports exist, queues and their completions, transmission with
the stamp and its insertion, delivery to host rings, link state, pause and flush (R162 to R184, R194 to R213, R316,
R319). -/

namespace Sys2Proof.Machine

/-! ## Ports -/

def lpBase (n : Nat) : Nat := 0x800000 + 0x40000 * n
def lpA (j : Nat) : Nat := lpBase (j / 4) + 0x100 + 0x100 * (j % 4)
def lpCnt (j : Nat) : Nat := lpBase (j / 4) + 0x1000 + 0x100 * (j % 4)

/-- The counter block of a port; 16 is MG. -/
def cntBase (j : Nat) : Nat := if j = 16 then 0x901000 else lpCnt j

def lpSplit (s : State) (n : Nat) : Bool := rb s (lpBase n) 0

/-- Fused-off ports (R4). -/
def portFused (s : State) (j : Nat) : Bool := s.fuse.port23Absent && decide (8 ≤ j)

/-- A logical port exists (R190). -/
def portExists (s : State) (j : Nat) : Bool :=
  (decide (j % 4 = 0) || lpSplit s (j / 4)) && !portFused s j

def portEnabled (s : State) (j : Nat) : Bool := portExists s j && rb s (lpA j) 0

/-- The speed of a port in Mb/s (R162, R191). -/
def portMbps (s : State) (j : Nat) : Nat :=
  if lpSplit s (j / 4) = false then 100000
  else match rf s (lpA j) 1 3 with
    | 0 => 25000
    | 1 => 10000
    | 2 => 1000
    | _ => match (portOf s j).sgmii with
      | 0 => 10
      | 1 => 100
      | _ => 1000

/-- The power state of a planner unit: 0 awake to 3 OFF. The line SerDes lanes of a fused-off port stay powered down
(R4). -/
def unitState (s : State) (k : Nat) : Nat :=
  if 45 ≤ k ∧ k < 61 ∧ portFused s (k - 45) = true then 3 else tget (fun _ => 0) s.clk.units k

/-- Time on the line of n bytes, in 1/16 ns. -/
def wireT16 (mbps n : Nat) : Nat := n * 128000 / mbps

/-- The interval of start positions in 1/1600 ns (R175). -/
def startPos (mbps : Nat) : Nat :=
  if mbps = 100000 then 1024 else if mbps = 25000 then 4096 else if mbps = 10000 then 5120
  else 12800 * (1000 / mbps)

/-- A port raises one of its events (R193). -/
def portEvent (s : State) (j k : Nat) (more : List Nat) : State :=
  raiseN s (160 + 16 * (j / 4) + k) j (j :: more)

/-! ## TX completions (R316) -/

/-- The body of a TX completion: descriptor words, status stamp and length on the wire. -/
def txBody (words : List Word) (stamp : Option Nat) (len : Nat) : Bytes :=
  let w2 := words.getD 2 0
  let w0 := 0x32 + fld w2 24 5 * 2 ^ 16 + fld w2 16 3 * 2 ^ 21 + boolBit stamp.isSome 29
  wordsLe [w0, len, stamp.getD 0, (words.getD 3 0).toNat, 0, 0]

/-- A host frame completes; other frames have no completion. -/
def finishItem (s : State) (i : TxItem) (status : Nat) (stamp : Option Nat) (len : Nat) : State :=
  match i.src with
  | .host ring idx st words => complete s ring idx status (txBody words (if st then stamp else none) len)
  | _ => s

/-! ## Flush (R182, R184, R539) -/

/-- One frame is flushed at the expiry of LINK_HOLD, or as at it. -/
def flushItem (s : State) (j : Nat) (i : TxItem) : State :=
  match i.src with
  | .host _ _ _ _ => finishItem (bump s (lpCnt j + 0x34) 1) i stLinkDown none 0
  | .reply _ => bump s (lpCnt j + 0x34) 1
  | .sched => bump s (lpCnt j + 0x38) 1
  | .device => s
  | .pause => s

/-- Every queued frame of a port is flushed. -/
def flushPort (s : State) (j : Nat) : State :=
  let q := (portOf s j).queue
  q.foldl (fun t i => flushItem t j i) (setPort s j { portOf s j with queue := [], holding := false })

/-- A frame enters its queue. A port whose link is down and not held takes none: host frames complete LINK_DOWN
(R184), replies are flushed. -/
def enqueue (s : State) (j : Nat) (i : TxItem) : State :=
  let p := portOf s j
  if portEnabled s j = true ∧ (p.up = true ∨ p.holding = true) then
    setPort s j { p with queue := p.queue ++ [i] }
  else
    match i.src with
    | .host _ _ _ _ => finishItem s i stLinkDown none 0
    | .reply _ => bump s (lpCnt j + 0x34) 1
    | _ => s

/-- A frame enters its queue ahead of those that wait in its class (R232). -/
def enqueueFront (s : State) (j : Nat) (i : TxItem) : State :=
  let p := portOf s j
  if portEnabled s j = true ∧ (p.up = true ∨ p.holding = true) then
    setPort s j { p with queue := i :: p.queue }
  else enqueue s j i

/-- A pause frame of the device, which goes ahead of the queues. -/
def isPauseTx (i : TxItem) : Bool := match i.src with | .pause => true | _ => false

/-- The condition of LP_PAUSE_STORM has ended when no port of the line port is in a hold (R180, R485). -/
def stormEnd (s : State) (n : Nat) : State :=
  if (List.range 4).any (fun k => (portOf s (4 * n + k)).stormPort || decide ((portOf s (4 * n + k)).stormCls ≠ 0)) then s
  else alarmClear s (163 + 16 * n)

/-- A SyncE candidate is present while its logical port's link is up; link down removes it at once (R84). -/
def synceFollow (s : State) (j : Nat) (up : Bool) : State :=
  [0, 1].foldl (fun t k =>
    if rf t (0x400200 + 4 * k) 0 4 = j ∧ up = false then loseRole t (4 + k) 1 else t) s

/-- Link state and pause are cleared at link down, a PFC frame that waits among them; the queues are held while LINK_HOLD
runs (R166, R181, R182). -/
def linkDown (s : State) (j : Nat) (hold : Bool) : State :=
  let p := portOf s j
  let held := hold && p.everUp
  let s1 := setPort s j { p with up := false, holding := held, pauseCls := 0, pausePort := false, stormCls := 0,
                                 stormPort := false, xoff := 0, pauseDue := [], pauseEnd := [],
                                 queue := p.queue.filter fun i => !isPauseTx i }
  synceFollow (stormEnd s1 (j / 4)) j false

/-- The FEC settings that a port tries, in LSTATUS encoding (R163, R164). -/
def fecTries (s : State) (j : Nat) : List Nat :=
  let fec := rf s (lpA j) 4 2
  if lpSplit s (j / 4) = false then (if fec = 0 then [1, 3] else if fec = 1 then [1] else [3])
  else if rf s (lpA j) 1 3 = 0 then (if fec = 0 then [1, 2, 3] else [fec])
  else [3]

/-- Training starts from the first FEC setting; the link has not yet come up, and the port's lane and timestamp unit are
awake (R24, R164, R184). -/
def startTraining (s : State) (j : Nat) : State :=
  setPort (setUnit s (45 + j) 0) j
    { portOf s j with everUp := false, sgmii := 0, fecTry := 0, fecKept := false, localFault := true, remoteFault := false,
                      fecActive := (fecTries s j).getD 0 3 }

/-- A port is taken down at once: LP_LINK_DOWN if it was up, and its queues are flushed (R167, R539). -/
def takeDown (s : State) (j : Nat) : State :=
  let s1 := linkDown s j false
  flushPort (if (portOf s j).up then portEvent s1 j 1 [] else s1) j

/-- A port goes down, is flushed and retrains (R167). -/
def retrain (s : State) (j : Nat) : State := portEvent (startTraining (takeDown s j) j) j 11 []

/-! ## Stamps (R194 to R199) -/

def tsPort (s : State) (j : Nat) : TsPort := tget (fun _ => TsPort.cold) s.ts.ports j

def setTsPort (s : State) (j : Nat) (x : TsPort) : State :=
  { s with ts := { s.ts with ports := tset (fun _ => TsPort.cold) s.ts.ports j x } }

def tsA (j : Nat) : Nat := 0xA00000 + 0x40 * j

/-- The speed code of a port for its fused delay. -/
def speedCode (s : State) (j : Nat) : Nat :=
  if lpSplit s (j / 4) = false then 8 else rf s (lpA j) 1 3 + 16 * (portOf s j).sgmii

/-- The fused internal delay of the active mode (R196, R200). -/
def fixedDelay (s : State) (j : Nat) (tx : Bool) : Int :=
  Config.fusedDelay j tx (speedCode s j) (portOf s j).fecActive

/-- The physical lane that carries the stamp point of a port's next frame. -/
def stampLaneOf (s : State) (j : Nat) (tx : Bool) : Nat :=
  if lpSplit s (j / 4) then j else 4 * (j / 4) + Config.stampLane j tx s.ts.draws % 4

/-- The temperature term: the lane's coefficient times the difference of its region from the calibration temperature, in
1/16 ns (R199). -/
def tempComp (s : State) (j : Nat) (tx : Bool) : Int :=
  Config.tempCoeff (stampLaneOf s j tx) tx * (s.ts.temps.getD (j / 4) 0 - Config.calTemp (j / 4)) / 6250

/-- The variable compensation of the next frame: the sum of the terms that its mode and direction have (R199). -/
def frameComp (s : State) (j : Nat) (tx : Bool) : Int :=
  let skew := if lpSplit s (j / 4) = false ∧ tx = false then Config.laneSkew (stampLaneOf s j tx) (portOf s j).locks else 0
  let fec := if (portOf s j).fecActive = 1 ∨ (portOf s j).fecActive = 2 then Config.codewordPos j tx s.ts.draws else 0
  skew + fec + Config.blockPos j tx s.ts.draws + tempComp s j tx

/-- The egress stamp of a frame whose first symbol starts now: preamble and delimiter, internal delay, variable
compensation and TX_DELAY (R175, R196). -/
def egressNow (s : State) (j : Nat) : Nat :=
  ((nowT16 s : Int) + wireT16 (portMbps s j) 8 + fixedDelay s j true + frameComp s j true
    + rsf s (tsA j + 4) 0 32).toNat

/-- The ingress stamp of a frame whose stamp point crossed the PCS boundary `ago` sixteenths of a ns ago (R196). -/
def ingressAt (s : State) (j ago : Nat) : Nat :=
  ((nowT16 s : Int) - ago - fixedDelay s j false - frameComp s j false - rsf s (tsA j + 8) 0 32).toNat

/-- The compensation of the latest frame is shown, and the next frame draws its own (R199). -/
def noteTxComp (s : State) (j : Nat) : State :=
  let s1 := setTsPort s j { tsPort s j with compTx := frameComp s j true }
  { s1 with ts := { s1.ts with draws := s1.ts.draws + 1 } }

def noteRxComp (s : State) (j : Nat) : State :=
  let s1 := setTsPort s j { tsPort s j with compRx := frameComp s j false }
  { s1 with ts := { s1.ts with draws := s1.ts.draws + 1 } }

/-- The short stamp of a stamp (R40, R213). -/
def shortT16 (t : Nat) : Nat := t / 16 % 2 ^ 32

/-! ## Insertion at egress (R206 to R209) -/

/-- Fields are written, and the PAD trailer balances them (R209). -/
def writeFields (f : Bytes) (fields : List (Nat × Bytes)) (trailer : Option Nat) : Bytes :=
  let old := fields.foldl (fun n x => onesAdd n (onesSum (subPad f x.1 x.2.length))) 0
  let new := fields.foldl (fun n x => onesAdd n (onesSum x.2)) 0
  let g := fields.foldl (fun h x => putBytes h x.1 x.2) f
  match trailer with
  | none => g
  | some o =>
    let t := onesAdd old (65535 - new)
    putBytes g o (beBytes 2 (if t = 65535 then 0 else t))

/-- The departing frame after TS has written the fields of its egress stamp (R206). -/
def applyInsert (s : State) (i : Insert) (f : Bytes) (t : Nat) : Bytes :=
  match i with
  | .ntp off smear tr => writeFields f [(off, beBytes 8 (ntpStamp s smear t))] tr
  | .syncOne b tr =>
    writeFields f [(b + 34, ptpStamp t), (b + 8, beBytes 8 (corrAdd (be64 f (b + 8)) (fnsT16 t)))] tr
  | .pdelayOne b t2 tr =>
    writeFields f [(b + 8, beBytes 8 (corrAdd (be64 f (b + 8)) (((t : Int) - t2) * 4096)))] tr
  | _ => f

/-- Who else needs the egress stamp: the scheduler, the lane, the time-receiver port (R206, R234, R239). -/
def noteStamp (s : State) (j : Nat) (i : Insert) (t : Nat) : State :=
  match i with
  | .syncTwo prof k q => { s with rsp := { s.rsp with syncSent := s.rsp.syncSent ++ [(j, prof, k, q, t)] } }
  | .pdelayTwo fr t2 prof => { s with rsp := { s.rsp with pdelaySent := s.rsp.pdelaySent ++ [(j, fr, t2, t, prof)] } }
  | .delayReq => { s with rsp := { s.rsp with rx := { s.rsp.rx with reqT3 := some t } } }
  | _ => s

/-! ## The calibration accumulator (R203, R204) -/

/-- The sequence number of a calibration frame: the 16 bits after EtherType TS_CAL_ETYPE. -/
def calSeq? (s : State) (f : Bytes) : Option Nat :=
  let e := parseEth f
  if e.etype = rf s 0xA00904 0 16 ∧ e.l3 + 2 ≤ f.length then some (be16 f e.l3) else none

/-- A sent frame enters the table; the oldest entry gives way when it is full. -/
def calEnter (s : State) (j : Nat) (f : Bytes) (stamped : Bool) (t : Nat) : State :=
  if rb s 0xA00900 0 = true ∧ rf s 0xA00900 4 4 = j ∧ stamped = true ∧ s.ts.calCount < full then
    match calSeq? s f with
    | none => s
    | some q =>
      let s1 := if s.ts.cal.length < 64 then s
        else bump { s with ts := { s.ts with cal := s.ts.cal.tail } } 0xA00914 1
      { s1 with ts := { s1.ts with cal := s1.ts.cal ++ [(q, t)] } }
  else s

/-- A received frame completes a pair. -/
def calPair (s : State) (j : Nat) (f : Bytes) (t : Nat) : State :=
  if rb s 0xA00900 0 = true ∧ rf s 0xA00900 8 4 = j ∧ s.ts.calCount < full then
    match calSeq? s f with
    | none => s
    | some q =>
      match s.ts.cal.find? (fun e => decide (e.1 = q)) with
      | none => s
      | some e =>
        { s with ts := { s.ts with cal := s.ts.cal.erase e, calSum := s.ts.calSum + t - e.2,
                                   calCount := s.ts.calCount + 1 } }
  else s

/-! ## Transmission (R172, R175, R176, R183) -/

def isReply (i : TxItem) : Bool := match i.src with | .reply _ => true | _ => false

/-- A frame whose departure a lane or the scheduler planned. -/
def isPlanned (i : TxItem) : Bool := match i.src with | .reply _ => true | .sched => true | _ => false

/-- The head of a class's queue. -/
def headOf (p : LpPort) (c : Nat) : Option TxItem := p.queue.find? fun i => decide (i.cls = c) && !isPauseTx i

def dropFirst (p : LpPort) (i : TxItem) : LpPort := { p with queue := p.queue.erase i }

/-- A reply is stale (R183). -/
def isStale (s : State) (j : Nat) (i : TxItem) : Bool :=
  isReply i && decide (i.req + (rd s (lpA j + 0x18)).toNat * 16000 < nowT16 s)

/-- A launch frame is late: a host frame by LPn_LAUNCH_TOL and one start position (R176), a planned frame
by more than NTS_DEP_TOL (R211, R258). -/
def isLate (s : State) (j : Nat) (i : TxItem) : Bool :=
  match i.launch with
  | none => false
  | some l =>
    if isPlanned i then decide (l + (rd s 0xC00018).toNat * 16 < egressNow s j)
    else decide (100 * (l + (rd s (lpA j + 0x1C)).toNat * 16) + startPos (portMbps s j) ≤ 100 * egressNow s j)

/-- A late frame is discarded with its counter and event. -/
def dropLate (s : State) (j : Nat) (i : TxItem) : State :=
  match i.src with
  | .reply .nts => raiseN (bump s 0xC00160 1) 255 0 []
  | .reply .ntsRate => raiseN (bump s 0xC00160 1) 255 0 []
  | .reply _ => raiseN (bump s (tsA j + 0x20) 1) 66 j [j]
  | .sched => raiseN (bump s (tsA j + 0x20) 1) 66 j [j]
  | _ => portEvent (finishItem (bump s (lpCnt j + 0x3C) 1) i stLaunchLate none 0) j 7 []

/-- Stale and late frames leave the head of one class's queue. -/
def purgeHead : Nat → State → Nat → Nat → State
  | 0, s, _, _ => s
  | n + 1, s, j, c =>
    match headOf (portOf s j) c with
    | none => s
    | some i =>
      let s1 := setPort s j (dropFirst (portOf s j) i)
      if isStale s j i then purgeHead n (portEvent (bump s1 (lpCnt j + 0x30) 1) j 6 []) j c
      else if isLate s j i then purgeHead n (dropLate s1 j i) j c
      else s

def purgeHeads (s : State) (j : Nat) : State :=
  (List.range 8).foldl (fun t c => purgeHead (portOf t j).queue.length t j c) s

/-- A class is paused (R178). -/
def isPaused (p : LpPort) (c : Nat) : Bool := p.pausePort || p.pauseCls.getLsbD c

/-- The frame that may start now: a pause frame of the device first, then strict priority. A launch frame waits until
its instant lies within the slack; a frame of a lower class starts only if it leaves before that (R172, R175). -/
def pickFrom (s : State) (j slack : Nat) : List Nat → Option Nat → Option TxItem
  | [], _ => none
  | c :: cs, limit =>
    let p := portOf s j
    match headOf p c with
    | none => pickFrom s j slack cs limit
    | some i =>
      if isPaused p c then pickFrom s j slack cs limit
      else
        let fits := match limit with
          | none => true
          | some l => decide (egressNow s j + wireT16 (portMbps s j) (max 60 i.frame.length + 24) ≤ l)
        match i.launch with
        | some l =>
          if l ≤ egressNow s j + slack then (if fits then some i else pickFrom s j slack cs limit)
          else pickFrom s j slack cs (some (min l (limit.getD l)))
        | none => if fits then some i else pickFrom s j slack cs limit

def pickTx (s : State) (j slack : Nat) : Option TxItem :=
  match (portOf s j).queue.find? isPauseTx with
  | some i => some i
  | none => pickFrom s j slack (List.range 8) none

/-- The egress stamp of a frame that starts now. A launch frame that starts within the slack before its instant
departs at the first start position at or after it: a free value within one start position (R175). -/
def stampFor (s : State) (j : Nat) (i : TxItem) : Nat :=
  match i.launch with
  | none => egressNow s j
  | some l =>
    if l ≤ egressNow s j then egressNow s j
    else l + Config.startSlack j s.ts.draws % (ceilDiv (startPos (portMbps s j)) 100)

/-- A frame begins: stamp, insertion, calibration entry (R194, R203, R206). -/
def beginTx (s : State) (j : Nat) (i : TxItem) : State :=
  let t := stampFor s j i
  let f := applyInsert s i.ins i.frame t
  let p := dropFirst (portOf s j) i
  let s1 := setPort s j { p with sending := some { i with frame := f, stamp := t } }
  let stamped := match i.src with | .host _ _ st _ => st | _ => false
  calEnter (noteStamp (noteTxComp s1 j) j i.ins t) j f stamped t

/-- Transmission starts on a free line whose link is up. -/
def startTx (s : State) (j slack : Nat) : State :=
  let s1 := purgeHeads s j
  let p := portOf s1 j
  if portEnabled s1 j = true ∧ p.up = true ∧ p.sending = none then
    match pickTx s1 j slack with
    | none => s1
    | some i => beginTx s1 j i
  else s1

/-- One scope's pause takes effect: its time replaces what remained, and a quanta of 0 ends it (R179). -/
def pauseAct (s : State) (j : Nat) (p : LpPort) (e : Nat × Nat) : LpPort :=
  let on := decide (e.2 ≠ 0)
  let ends := if on then tput p.pauseEnd e.1 (s.tb.ticks + e.2 * 512 * 500 / portMbps s j) else tdel p.pauseEnd e.1
  let p1 := { p with pauseEnd := ends }
  if e.1 = 8 then { p1 with pausePort := on }
  else
    let bit := BitVec.ofNat 8 (2 ^ e.1)
    { p1 with pauseCls := if on then p.pauseCls ||| bit else p.pauseCls &&& ~~~bit }

/-- The counters of frames that have left, by kind (R248, R260, R279, R296). -/
def countSent (s : State) (i : TxItem) : State :=
  match i.src with
  | .reply .served => statInc s 0xB08000 1
  | .reply .unsync => bump (statInc s 0xB08000 1) 0xB08068 1
  | .reply .kodRate => statInc s 0xD02008 1
  | .reply .ntsRate => statInc s 0xD02008 1
  | .reply .ptp => statInc s 0xB08008 1
  | .reply .addr => statInc s 0xB08018 1
  | .reply .nts => statInc s 0xC00108 1
  | .reply .ntsn => statInc s 0xC00110 1
  | .sched => statInc s 0xB08010 1
  | _ => s

/-- The frame in transmission ends: FCS, counters, PFC_TX among them, completion, and the pauses that waited for it (R169,
R179, R181, R212, R213, R316). -/
def endTx (s : State) (j : Nat) : State :=
  match (portOf s j).sending with
  | none => s
  | some i =>
    let f := padFrame i.frame
    let n := f.length + 4
    let p := portOf s j
    let s1 := setPort s j (p.pauseDue.foldl (pauseAct s j) { p with sending := none, pauseDue := [] })
    let s2 := emit (statInc (statInc s1 (lpCnt j + 0x10) 1) (lpCnt j + 0x18) n) (.frame j (f ++ fcs f))
    let s3 := if isPauseTx i then bump s2 (lpCnt j + 0x4C) 1 else s2
    finishItem (countSent s3 i) i stOk (some (shortT16 i.stamp)) n

/-- The packet buffer of 48 MiB has room for n more bytes, whatever its division among the classes (R1, R177). -/
def bufferRoom (s : State) (n : Nat) : Bool := decide (bufferBytes s + n ≤ 48 * 1024 * 1024)

/-! ## Delivery to a host ring (R171, R213, R316, R319) -/

/-- A frame with its selected tags removed, and the removed TCIs (R171). -/
def stripTags (strip : Nat) (f : Bytes) : Bytes × Option Nat × Option Nat :=
  let e := parseEth f
  match strip, e.cTci, e.sTci with
  | 1, some c, none => (f.take 12 ++ f.drop 16, some c, none)
  | 2, some c, some t => (f.take 12 ++ f.drop 20, some c, some t)
  | _, _, _ => (f, none, none)

/-- A buffer that the host posted is written and completed; where the write fails its content is undefined, and the
completion says so (R317, R331). -/
def bufferDone (s : State) (r idx addr : Nat) (b : Bytes) (ok : Bool) (body : Bytes) : State :=
  if ok then complete (hostWrite s r idx addr b) r idx stOk body
  else complete (dmaError (hostWrite s r idx addr ((List.range b.length).map Config.bufferUndefined)) r) r idx stDmaErr body

/-- What accompanies a frame bound for the host. -/
structure RxInfo where
  port : Nat
  cls : Nat
  reason : Nat
  prof : Option Nat
  stamp : Option Nat        -- t16
  strip : Nat
  oversize : Bool
  ok : Bool                 -- the write to the buffer does not fail
  deriving DecidableEq, Repr

/-- An RX frame is dropped for want of a buffer (R308, R319). -/
def rxNoBuf (s : State) (r : Nat) : State := raiseLim (bump s (ringA r + 0x1C) 1) 274 r r [r]

/-- A frame, FCS included and already cut to MAXLEN, is written into the next buffer of its ring. -/
def deliverHost (s : State) (r : Nat) (f : Bytes) (x : RxInfo) : State :=
  let g := ringOf s r
  match g.st, g.fetched with
  | .running, b :: _ =>
    if ringFree s r = 0 then bump s (ringA r + 0x1C) 1 else
    let (f1, c, t) := stripTags x.strip f
    let data := f1.take (f1.length - 4)
    let blen := fld (descWord b.desc 2) 0 16
    let w := data.take blen
    let w0 := 0x31 + x.port * 2 ^ 16 + x.cls * 2 ^ 21 + boolBit x.oversize 24 + boolBit (decide (blen < data.length)) 25
      + boolBit c.isSome 26 + boolBit t.isSome 27 + boolBit x.prof.isSome 28 + boolBit x.stamp.isSome 29
    let body := wordsLe [w0, w.length + x.prof.getD 0 * 2 ^ 16 + x.reason * 2 ^ 24,
      (x.stamp.map shortT16).getD 0, c.getD 0 + t.getD 0 * 2 ^ 16, 0, 0]
    bufferDone s r b.idx (descAddr b.desc 0) w x.ok body
  | _, _ => rxNoBuf s r

/-- The class of a host-bound frame (R173). -/
def hostClass (s : State) (j : Nat) (f : Bytes) : Nat := 4 + rf s (lpA j + 0x24) (2 * pcpOf f) 2

/-- The ring of a host-bound frame (R319). -/
def steerRing (s : State) (j c : Nat) : Nat := rf s (0xE00040 + 4 * j) (8 * (c - 4)) 6

/-! ## PFC sent by the device (R181) -/

def occOf (s : State) (j c : Nat) : Nat := tget (fun _ => 0) (portOf s j).occ c

def setOcc (s : State) (j c n : Nat) : State :=
  let p := portOf s j
  setPort s j { p with occ := tset (fun _ => 0) p.occ c n }

/-- A PFC frame for the priorities of class c: 802.1Qbb, opcode 0x0101. -/
def pfcFrame (s : State) (j c quanta : Nat) : Bytes :=
  let prio := fun p => decide (4 + rf s (lpA j + 0x24) (2 * p) 2 = c)
  let en := (List.range 8).foldl (fun n p => n + boolBit (prio p) p) 0
  let src := beBytes 2 (rd s (0xB00104 + 8 * j)).toNat ++ beBytes 4 (rd s (0xB00100 + 8 * j)).toNat
  [0x01, 0x80, 0xC2, 0, 0, 0x01] ++ src ++ [0x88, 0x08, 0x01, 0x01] ++ beBytes 2 en
  ++ (List.range 8).flatMap (fun p => beBytes 2 (if prio p then quanta else 0))

/-- A PFC frame is queued ahead of the transmit queues and counted. -/
def sendPfc (s : State) (j c quanta : Nat) : State :=
  let p := portOf s j
  let i : TxItem := { cls := 0, frame := pfcFrame s j c quanta, src := .pause, launch := none, tol := 0, ins := .none,
                      req := 0, stamp := 0 }
  setPort s j { p with queue := p.queue ++ [i] }

/-- The device sends PFC for a class (R181). -/
def sendsPfc (s : State) (j c : Nat) : Bool := decide (4 ≤ c) && rb s (lpA j) (14 + c)

/-- The receive occupancy of a class grows; at XOFF a PFC frame is sent. -/
def occAdd (s : State) (j c n : Nat) : State :=
  let s1 := setOcc s j c (occOf s j c + n)
  let p := portOf s1 j
  if sendsPfc s1 j c = true ∧ p.xoff.getLsbD c = false
      ∧ (rd s1 (lpA j + 0x28)).toNat * 1024 ≤ occOf s1 j c then
    portEvent (sendPfc (setPort s1 j { p with xoff := p.xoff ||| BitVec.ofNat 8 (2 ^ c) }) j c 0xFFFF) j 10 []
  else s1

/-- The receive occupancy of a class falls; at XON a PFC frame with quanta 0 is sent while TX_PFC_EN allows it. -/
def occSub (s : State) (j c n : Nat) : State :=
  let s1 := setOcc s j c (occOf s j c - n)
  let p := portOf s1 j
  if p.xoff.getLsbD c = true ∧ occOf s1 j c ≤ (rd s1 (lpA j + 0x2C)).toNat * 1024 then
    let s2 := setPort s1 j { p with xoff := p.xoff &&& ~~~(BitVec.ofNat 8 (2 ^ c)) }
    if sendsPfc s1 j c then sendPfc s2 j c 0 else s2
  else s1

/-- A frame bound for the host leaves the packet buffer at the next tick, whether or not a buffer has taken it (log entry
127). -/
def holdForHost (s : State) (j c n : Nat) : State :=
  let p := portOf s j
  setPort s j { p with hostHeld := p.hostHeld ++ [(c, n)] }

/-- The frames that wait for it leave the packet buffer. -/
def releaseHeld (s : State) : State :=
  (List.range 16).foldl (fun t j =>
    let p := portOf t j
    p.hostHeld.foldl (fun u e => occSub u j e.1 e.2) (if p.hostHeld.isEmpty then t else setPort t j { p with hostHeld := [] })) s

/-! ## Pause (R178 to R180) -/

/-- A pause frame: MAC control EtherType with opcode 0x0001 or 0x0101. -/
def pauseOpcode? (f : Bytes) : Option Nat :=
  if be16 f 12 = 0x8808 ∧ (be16 f 14 = 0x0001 ∨ be16 f 14 = 0x0101) then some (be16 f 14) else none

/-- The transmit class that a PFC priority acts on. -/
def pfcClass (s : State) (j p : Nat) : Nat := rf s (lpA j + 0x20) (3 * p) 3

/-- The classes that a PFC frame names, with their quanta. -/
def pfcQuanta (s : State) (j : Nat) (f : Bytes) : List (Nat × Nat) :=
  (List.range 8).filterMap fun p =>
    if flag (BitVec.ofNat 32 (be16 f 16)) p then some (pfcClass s j p, be16 f (18 + 2 * p)) else none

/-- What a pause or PFC frame sets: scopes, a class or 8 for the port, and their quanta; none where it is ignored. A
disabled scope or one in its hold is not set (R178, R180). -/
def pauseActs (s : State) (j op : Nat) (f : Bytes) : List (Nat × Nat) :=
  let p := portOf s j
  if op = 1 then
    if rb s (lpA j) 8 = false ∧ rb s (lpA j) 9 = true ∧ p.stormPort = false then [(8, be16 f 16)] else []
  else if rb s (lpA j) 8 then
    (pfcQuanta s j f).filter fun e => rb s (lpA j) (10 + e.1) && !p.stormCls.getLsbD e.1
  else []

/-- A valid pause or PFC frame of a line port. While a frame is being sent it waits for that frame's end (R179). -/
def pauseFrame (s : State) (j op : Nat) (f : Bytes) : State :=
  let s1 := bump s (lpCnt j + 0x44) 1
  let p := portOf s1 j
  match pauseActs s1 j op f with
  | [] => bump s1 (lpCnt j + 0x48) 1
  | acts =>
    if p.sending.isSome then setPort s1 j { p with pauseDue := p.pauseDue ++ acts }
    else setPort s1 j (acts.foldl (pauseAct s1 j) p)

end Sys2Proof.Machine
end

