-- ==== Sys2Proof/Machine/LinePorts.lean ====
section
/-! DEFINITION. The commands of the line ports and of the management port (R162 to R193, R539). -/

namespace Sys2Proof.Machine

/-! ## Transmission -/

/-- LP_TX_START: the head frame of the highest-priority eligible queue begins on a free line (R172). -/
def execLpTxStart (j : Fin 16) (s : State) : Host.Outcome State Fault Refusal := .next (startTx s j 0)

/-- LP_TX_END: the frame's last byte leaves (R212). -/
def execLpTxEnd (j : Fin 16) (s : State) : Host.Outcome State Fault Refusal := .next (endTx s j)

/-- LAUNCH_INSTANT: a start position at or after a launch instant is reached; start positions between two ticks are
reached with the earlier tick (R175). -/
def execLaunchInstant (j : Fin 16) (s : State) : Host.Outcome State Fault Refusal := .next (startTx s j 32)

/-! ## Link state (R164, R166, R167, R182, R184, R539) -/

def creditOf (s : State) (j : Nat) : Nat := tget (fun _ => 65536) s.gnt.credit j

def setCredit (s : State) (j n : Nat) : State :=
  { s with gnt := { s.gnt with credit := tset (fun _ => 65536) s.gnt.credit j n } }

/-- AMP_BURST in bytes (R292, R297). -/
def ampBurst (s : State) (j : Nat) : Nat := rf s (0xD01000 + 0x10 * j) 8 11 * 1024

def isSched (i : TxItem) : Bool := match i.src with | .sched => true | _ => false

/-- LP_LINK_UP: scheduler frames held over the outage are discarded (R182); the amplification credit is set (R292). Under
SGMII the link brings its speed with it (R191). -/
def execLpLinkUp (j : Fin 16) (sgmii : Fin 3) (s : State) : Host.Outcome State Fault Refusal :=
  .next <|
    if portEnabled s j = true ∧ (portOf s j).up = false then
      let p := portOf s j
      let skipped := (p.queue.filter isSched).length
      let isSgmii := lpSplit s (j.val / 4) && decide (rf s (lpA j) 1 3 = 3)
      let s1 := setPort s j { p with up := true, holding := false, everUp := true, localFault := false,
                                     locks := p.locks + 1, sgmii := if isSgmii then sgmii.val else p.sgmii,
                                     remoteFault := false, queue := p.queue.filter (fun i => !isSched i) }
      let s2 := if skipped = 0 then s1 else bump s1 (lpCnt j + 0x38) skipped
      synceFollow (portEvent (setCredit s2 j (ampBurst s2 j)) j 0 []) j true
    else s

/-- LP_LINK_DOWN: the queues are held and LINK_HOLD starts (R166, R182). -/
def execLpLinkDown (j : Fin 16) (remoteFault : Bool) (s : State) : Host.Outcome State Fault Refusal :=
  .next <|
    if portEnabled s j = true then
      let s1 := if (portOf s j).up then portEvent (linkDown s j true) j 1 [] else s
      setPort s1 j { portOf s1 j with localFault := !remoteFault, remoteFault := remoteFault }
    else s

/-- LP_HOLD_EXPIRED (R182, R184). -/
def execLpHoldExpired (j : Fin 16) (s : State) : Host.Outcome State Fault Refusal :=
  .next (if (portOf s j).holding then portEvent (flushPort s j) j 2 [] else s)

/-- The port resolves its FEC by Clause 73 auto-negotiation (R164). -/
def backplane (s : State) (j : Nat) : Bool := rb s (lpBase (j / 4)) 1

/-- LP_FEC_TRY_TIMEOUT: the next setting of the AUTO order; a kept setting that lost alignment gives way to the first. A
backplane port tries none (R164). -/
def execLpFecTryTimeout (j : Fin 16) (s : State) : Host.Outcome State Fault Refusal :=
  .next <|
    if portEnabled s j = true ∧ rf s (lpA j) 4 2 = 0 ∧ (portOf s j).up = false ∧ backplane s j = false then
      let p := portOf s j
      let tries := fecTries s j
      let k := if p.fecKept then 0 else (p.fecTry + 1) % tries.length
      setPort s j { p with fecKept := false, fecTry := k, fecActive := tries.getD k 3 }
    else s

/-- LP_FEC_RESOLVED: the setting in use is kept; on a backplane port it is the one that auto-negotiation resolved, where the
port's mode has it (R164). -/
def execLpFecResolved (j : Fin 16) (fec : BitVec 2) (s : State) : Host.Outcome State Fault Refusal :=
  .next <|
    if portEnabled s j = true ∧ rf s (lpA j) 4 2 = 0 then
      let p := portOf s j
      let inUse := if backplane s j = true ∧ (fecTries s j).contains fec.toNat = true then fec.toNat else p.fecActive
      portEvent (setPort s j { p with fecKept := true, fecActive := inUse }) j 9 []
    else s

/-- SPLIT or BACKPLANE of line port n has changed from s to t: every enabled port that exists before or after it goes down
and retrains (R167). -/
def modeChanged (s t : State) (n : Nat) : State :=
  (((List.range 4).map (fun k => 4 * n + k)).filter (fun j => portEnabled s j || portEnabled t j)).foldl retrain t

/-- LPn_CFG of port j has changed from s to t: an enabled port retrains where its SPEED or FEC has changed, but for SPEED
while SPLIT = 0 (R167). -/
def cfgChanged (s t : State) (j : Nat) : State :=
  let speed := decide (rf t (lpA j) 1 3 ≠ rf s (lpA j) 1 3) && lpSplit s (j / 4)
  let fec := decide (rf t (lpA j) 4 2 ≠ rf s (lpA j) 4 2)
  if portEnabled s j && (speed || fec) then retrain t j else t

/-- A port whose EN has fallen goes down (R539). -/
def portDisabled (s : State) (j : Nat) : State :=
  let s1 := takeDown s j
  setPort s1 j { portOf s1 j with localFault := false, remoteFault := false }

/-- LP_MODE_WRITE: a change of SPLIT or BACKPLANE takes every enabled port that exists before or after it down
(R167). -/
def execLpModeWrite (n : Fin 4) (value : Word) (s : State) : Host.Outcome State Fault Refusal :=
  .next <|
    if portFused s (4 * n) then s else
    let s1 := storeMask s (lpBase n) 3 value
    if rd s1 (lpBase n) = rd s (lpBase n) then s else modeChanged s s1 n

/-- LP_SPEED_FEC_WRITE: a write of LPn_CFG. SPEED has no effect while SPLIT = 0 (R167). -/
def execLpSpeedFecWrite (j : Fin 16) (value : Word) (s : State) : Host.Outcome State Fault Refusal :=
  .next <|
    if portExists s j = false then s else cfgChanged s (storeMask s (lpA j) 0x3FFFFE value) j

/-- LP_PORT_DISABLE: EN = 0 (R539). -/
def execLpPortDisable (j : Fin 16) (s : State) : Host.Outcome State Fault Refusal :=
  .next <|
    if rb s (lpA j) 0 = false ∨ portExists s j = false then s else portDisabled (wrf s (lpA j) 0 1 0) j

/-- LP_PORT_ENABLE: EN = 1 starts training (R539). -/
def execLpPortEnable (j : Fin 16) (s : State) : Host.Outcome State Fault Refusal :=
  .next (if rb s (lpA j) 0 = true ∨ portExists s j = false then s else startTraining (wrf s (lpA j) 0 1 1) j)

/-- LP_FEC_UNCORR (R193); a port that is fused off has no receive path (R4). -/
def execLpFecUncorr (j : Fin 16) (s : State) : Host.Outcome State Fault Refusal :=
  .next (if portFused s j then s else portEvent (bump s (lpCnt j + 0x54) 1) j 8 [])

/-! ## Pause (R179, R180) -/

def clsBit (c : Fin 8) : BitVec 8 := BitVec.ofNat 8 (2 ^ c.val)

/-- The number by which an event names a pause scope: the class, or 8 for Annex 31B. -/
def scopeNum : PauseScope → Nat
  | .cls c => c
  | .port => 8

/-- A scope's pause ends, and no time of it remains. -/
def unpause (p : LpPort) : PauseScope → LpPort
  | .cls c => { p with pauseCls := p.pauseCls &&& ~~~(clsBit c), pauseEnd := tdel p.pauseEnd c.val }
  | .port => { p with pausePort := false, pauseEnd := tdel p.pauseEnd 8 }

def scopePaused (p : LpPort) : PauseScope → Bool
  | .cls c => p.pauseCls.getLsbD c
  | .port => p.pausePort

/-- A scope's hold starts or ends. -/
def setStorm (p : LpPort) (b : Bool) : PauseScope → LpPort
  | .cls c => { p with stormCls := if b then p.stormCls ||| clsBit c else p.stormCls &&& ~~~(clsBit c) }
  | .port => { p with stormPort := b }

/-- PAUSE_EXPIRED: the pause time runs out (R179). -/
def execPauseExpired (j : Fin 16) (sc : PauseScope) (s : State) : Host.Outcome State Fault Refusal :=
  .next (setPort s j (unpause (portOf s j) sc))

/-- LP_PAUSE_STORM: the watchdog cancels the pause and the hold starts; LPn_PAUSE_WD = 0 disables it (R180). -/
def execLpPauseStorm (j : Fin 16) (sc : PauseScope) (s : State) : Host.Outcome State Fault Refusal :=
  .next <|
    if rd s (lpA j + 0x0C) = 0 ∨ scopePaused (portOf s j) sc = false then s
    else
      let p := setStorm (unpause (portOf s j) sc) true sc
      portEvent (setPort s j { p with pauseDue := p.pauseDue.filter fun e => decide (e.1 ≠ scopeNum sc) }) j 3 [scopeNum sc]

/-- LP_PAUSE_RESUME: the hold ends (R180); a port that is fused off has none (R4). -/
def execLpPauseResume (j : Fin 16) (sc : PauseScope) (s : State) : Host.Outcome State Fault Refusal :=
  .next (if portFused s j then s else stormEnd (portEvent (setPort s j (setStorm (portOf s j) false sc)) j 4 []) (j.val / 4))

/-- PFC_REPEAT: half a pause time has passed above XON (R181). -/
def execPfcRepeat (j : Fin 16) (c : Fin 8) (s : State) : Host.Outcome State Fault Refusal :=
  .next <|
    if sendsPfc s j c = true ∧ (portOf s j).xoff.getLsbD c = true ∧ (rd s (lpA j + 0x2C)).toNat * 1024 < occOf s j c then
      sendPfc s j c 0xFFFF
    else s

/-! ## The management port (R185 to R189) -/

/-- MG's line rate in Mb/s. -/
def mgMbps (s : State) : Nat :=
  if rb s 0x900000 1 then 1000 else match s.mg.speed with
    | 0 => 10
    | 1 => 100
    | _ => 1000

def mgUp (s : State) : Bool := s.mg.up && rb s 0x900000 0

def mgPaused (s : State) : Bool := s.mg.paused && decide (s.tb.ticks < s.mg.pauseEnd)

/-- A frame leaves MG. -/
def mgSend (s : State) (i : TxItem) : State :=
  let f := padFrame i.frame
  let s1 := emit (statInc (statInc s 0x901010 1) 0x901018 (f.length + 4)) (.frame 16 (f ++ fcs f))
  finishItem s1 i stOk none (f.length + 4)

/-- MG's queue leaves while the link is up and MG is not paused; the table has no row for MG's transmission, so it
takes no time here (DESIGN CHOICE, log entry 41). -/
def mgDrain (s : State) : State :=
  if mgUp s = true ∧ mgPaused s = false then
    s.mg.queue.foldl mgSend { s with mg := { s.mg with queue := [], paused := false } }
  else s

/-- A host frame enters MG's queue; without a link it completes LINK_DOWN at once (R185). -/
def enqueueMg (s : State) (i : TxItem) : State :=
  if mgUp s then mgDrain { s with mg := { s.mg with queue := s.mg.queue ++ [i] } }
  else finishItem s i stLinkDown none 0

/-- MG's link goes down: its queue is flushed at once. -/
def mgDown (s : State) : State :=
  let q := s.mg.queue
  q.foldl (fun t i => finishItem (bump t 0x901034 1) i stLinkDown none 0)
    { s with mg := { s.mg with up := false, queue := [], paused := false } }

/-- The address filter (R186). -/
def mgAccepts (s : State) (f : Bytes) : Bool :=
  let d := sub f 0 6
  let mac := beBytes 2 (fld (rd s 0x900010) 0 16) ++ beBytes 4 (rd s 0x90000C).toNat
  if byteAt f 0 % 2 = 0 then decide (d = mac)
  else decide (d = List.replicate 6 0xFF) || rb s 0x900000 8

/-- The frame bytes that a wake pattern selects. -/
def wakeBytes (s : State) (p : Nat) : List Nat :=
  (List.range 128).filter fun i => rb s (0x900100 + 0x20 * p + 4 * (i / 32)) (i % 32)

/-- A frame matches a wake pattern (R187). -/
def wakeMatch (s : State) (f : Bytes) (p : Nat) : Bool :=
  let sel := wakeBytes s p
  rb s 0x900020 p && !sel.isEmpty && sel.all (fun i => decide (i < f.length)) &&
    decide (crc16 (sel.map fun i => f.getD i 0) = rf s (0x900110 + 0x20 * p) 0 16)

/-- HOST_WAKE_N, an open-drain output, is driven low (R188). -/
def hostWakeLow (s : State) : Bool := decide (fld (rd s 0x900024) 0 8 ≠ 0)

/-! ## I2C controllers (R442) -/

def i2cA (c : Nat) : Nat := 0x1400100 + 0x20 * c

def i2cOf (s : State) (c : Nat) : I2c := tget (fun _ => I2c.cold) s.bcp.i2c c

def setI2c (s : State) (c : Nat) (x : I2c) : State :=
  { s with bcp := { s.bcp with i2c := tset (fun _ => I2c.cold) s.bcp.i2c c x } }

/-- A transfer of firmware's on a controller: it waits while a host transfer runs (R442); else it is over with the command
that asks for it (log entry 126). -/
def fwTransfer (s : State) (c addr : Nat) (tx : Bytes) (rlen : Nat) : State :=
  let x := i2cOf s c
  if x.busy then setI2c s c { x with fw := x.fw ++ [(addr, tx, rlen)] }
  else emit s (.i2c c addr tx rlen (rf s (i2cA c) 0 2))

/-- The I2C transfers that read and change the PHY's advertisement and restart its auto-negotiation: Clause 22 registers 9 and 0, on
controller 1 at PHY_ADDR (R189). The spec gives no register layout; bits 9 and 8 of register 9 and bits 12 and 9 of register
0 are IEEE 802.3's (PRESUMED, log entry 41). -/
def phyWrites (s : State) (lower : Bool) : State :=
  let a := rf s 0x900028 16 7
  let adv := (Config.phyReg9 s.tb.ticks).toNat
  let r9 := adv - adv / 256 % 4 * 256 + if lower then 0 else 0x300
  fwTransfer (fwTransfer (fwTransfer s 1 a [9] 2) 1 a ([9] ++ beBytes 2 r9) 0) 1 a ([0] ++ beBytes 2 0x1200) 0

/-- A PHY speed change succeeds or fails (R189). -/
def mgSpeedChange (s : State) (lower ok : Bool) : State :=
  let s0 := phyWrites s lower
  if ok then
    let s1 := if s0.mg.up then raiseN (mgDown s0) 224 0 [] else s0
    raiseN { s1 with mg := { s1.mg with lowered := lower, lowSecs := 0,
                                        holdOff := if lower then 0 else rf s 0x900028 8 8 } } 226 16
      [if lower then 1 else 0]
  else raiseN s0 227 0 []

/-- HOST_WAKE_N is asserted or AUTO_LOW is cleared: a lowered speed is raised at once, if the PHY's transfers succeed
(R189). -/
def mgRaiseNow (s : State) : State :=
  if s.mg.lowered = true ∧ rb s 0x900000 1 = false ∧ (hostWakeLow s = true ∨ rb s 0x900028 0 = false) then
    mgSpeedChange s false (Config.phyAcks s.tb.ticks)
  else s

/-- Wake patterns set their status bits and raise MG_WAKE; with HOST_WAKE_N a lowered speed is raised (R188, R189). -/
def wakeAll (s : State) (f : Bytes) : State :=
  let t := (List.range 8).foldl (fun t p =>
    if wakeMatch s f p then raiseN (orReg t 0x900024 (2 ^ p)) 225 0 [] else t) s
  if hostWakeLow s = false ∧ hostWakeLow t = true then mgRaiseNow t else t

/-- A pause frame on MG: Annex 31B only (R185). -/
def mgPause (s : State) (op : Nat) (f : Bytes) : State :=
  let s1 := bump s 0x901044 1
  if op ≠ 1 ∨ s1.mg.storm = true then bump s1 0x901048 1
  else
    let q := be16 f 16
    mgDrain { s1 with mg := { s1.mg with paused := decide (q ≠ 0),
                                         pauseEnd := s1.tb.ticks + q * 512 * 500 / mgMbps s1 } }

/-- The FCS of a received frame is good. -/
def fcsGood (f : Bytes) : Bool := decide (fcs (f.take (f.length - 4)) = f.drop (f.length - 4))

/-- MG_FRAME_RECEIVED (R168, R185 to R188): size and FCS, pause, address filter, wake patterns, delivery. -/
def execMgFrameReceived (f : Bytes) (hostOk : Bool) (s : State) : Host.Outcome State Fault Refusal :=
  .next <|
    let n := f.length
    let maxLen := (rd s 0x900004).toNat
    if mgUp s = false then s
    else if n < 64 then bump s 0x901020 1
    else if 16384 ≤ n then bump s 0x901024 1
    else if fcsGood f = false then bump s 0x901028 1
    else match pauseOpcode? f with
      | some op => mgPause s op f
      | none =>
        if mgAccepts s f = false then s
        else
          let s1 := wakeAll s f
          if bufferRoom s n = false ∨ Config.classRoom 16 0 0 n = false then raiseN (bump s1 0x901060 1) 229 0 []
          else
            let s2 := statInc (statInc s1 0x901000 1) 0x901008 n
            let s3 := if maxLen < n then bump s2 0x901024 1 else s2
            deliverHost s3 (rf s 0x900000 2 6) (f.take maxLen)
              { port := 16, cls := 0, reason := 8, prof := none, stamp := none, strip := 0,
                oversize := decide (maxLen < n), ok := hostOk }

/-- MG_WAKE_STATUS_WRITE: write 1 to clear (R188). -/
def execMgWakeStatusWrite (value : Word) (s : State) : Host.Outcome State Fault Refusal :=
  .next (wr s 0x900024 (rd s 0x900024 &&& ~~~(value &&& 0xFF)))

/-- MG_LINK: the link changes; at link down the queue is flushed (R185). -/
def execMgLink (up : Bool) (speed : BitVec 2) (s : State) : Host.Outcome State Fault Refusal :=
  .next <|
    if rb s 0x900000 0 = false ∨ (s.mg.up = up ∧ s.mg.speed = speed.toNat) then s
    else
      let s1 := if up then { s with mg := { s.mg with up := true } } else mgDown s
      raiseN { s1 with mg := { s1.mg with speed := speed.toNat } } 224 0 []

/-- MG_PAUSE_STORM: the MG pause watchdog expires (R180, R185). -/
def execMgPauseStorm (s : State) : Host.Outcome State Fault Refusal :=
  .next <|
    if rd s 0x900014 = 0 ∨ mgPaused s = false then s
    else mgDrain (raiseN { s with mg := { s.mg with paused := false, storm := true } } 228 0 [])

/-- MG_PAUSE_HOLD_END: MG_PAUSE_HOLD ends and pause is honoured again (R180, R185). -/
def execMgPauseHoldEnd (s : State) : Host.Outcome State Fault Refusal :=
  .next (mgDrain { s with mg := { s.mg with storm := false } })

/-- MG_TRAFFIC_INTERVAL: a 1 s interval ends with that many bits, received plus transmitted (R189). -/
def execMgTrafficInterval (bits : Nat) (i2cOk : Bool) (s : State) : Host.Outcome State Fault Refusal :=
  .next <|
    if rb s 0x900000 1 = true then s
    else
      let autoLow := rb s 0x900028 0
      let s1 : State := { s with mg := { s.mg with holdOff := s.mg.holdOff - 1 } }
      if s.mg.lowered then
        if 50000000 < bits ∨ fld (rd s 0x900024) 0 8 ≠ 0 ∨ autoLow = false then mgSpeedChange s1 false i2cOk else s1
      else if autoLow = true ∧ s.mg.up = true ∧ s.mg.speed = 2 then
        let low := if bits < rf s 0x900028 1 7 * 1000000 then s.mg.lowSecs + 1 else 0
        let s2 : State := { s1 with mg := { s1.mg with lowSecs := low } }
        if 0 < low ∧ rf s 0x900028 8 8 ≤ low ∧ s.mg.holdOff = 0 then mgSpeedChange s2 true i2cOk else s2
      else { s1 with mg := { s1.mg with lowSecs := 0 } }

/-! ## Time (R41, R56) -/

/-- A CTRL restart whose time is over: firmware runs again, and the completions that waited for it are written (R17,
R478). -/
def ctrlBack (s : State) : State :=
  if s.glb.ctrlUntil = 0 ∨ clkRuns s.clk.ctrl = false ∨ s.tb.ticks < s.glb.ctrlUntil then s
  else
    let s1 := raiseN { s with glb := { s.glb with ctrlUntil := 0 } } 0 0 [(rd s 0x10).toNat]
    (List.range 28).foldl (fun t k => flushCompl (ringOf t (128 + k)).compl.length t (128 + k)) s1

/-- The empty queue: one TBCLK tick (log entry 2); a pause of MG that ends with it lets MG's queue leave, and a CTRL restart
that ends with it lets completions go; frames leave the packet buffer (R181). -/
def idleTick (s : State) : State := ctrlBack (mgDrain (tick (levelCount 1 (releaseHeld (raiseOvf s)))))

/-- TAI_SECOND_BOUNDARY: the anchor, its event and its mirror, PPS_OUT and the RTC (R41, R56, R386). -/
def execTaiSecondBoundary (s : State) : Host.Outcome State Fault Refusal :=
  .next <|
    if clkRuns s.clk.tbclk = false then s else
    let s1 := ctrlBack (mgDrain (toBoundary (releaseHeld (raiseOvf s))))
    let s2 : State := { s1 with tb := { s1.tb with
      anchorNs := 0, anchorSec := nowSec s1, anchorStep := s1.tb.stepCnt,
      ppsOut := s1.tb.ppsOut || s1.tb.timeValid } }
    let align := s2.tb.timeValid && rb s2 0x1100114 0
    let s3 : State := if align then
        { s2 with loam := { s2.loam with rtcBase := nowSec s2 * 32768, rtcTick := s2.tb.ticks, rtcValid := true,
                                         rtcAlign := nowSec s2 % 2 ^ 32 } }
      else s2
    userTouch (raise s3 48 0 (anchorPayload s3))

end Sys2Proof.Machine
end

