-- ==== Sys2Proof/Machine/LoamOps.lean ====
section
/-! DEFINITION. What a Loam record holds and how a commit is requested (R365, R373 to R375, R378, R383, R384). -/

namespace Sys2Proof.Machine

def clsFwmeta : Nat := 1
def clsKeys : Nat := 2
def clsCfg : Nat := 3
def clsTime : Nat := 4
def clsHist : Nat := 5
def clsGnss : Nat := 6
def clsAlmanac : Nat := 7
def clsLife : Nat := 8
def clsTrace : Nat := 9
def clsRblog : Nat := 10

/-- The key of a segment in the tables of the store. -/
def segKey (cls seg : Nat) : Nat := cls * 32 + seg

/-- The segments of a class (R365). -/
def segCount (cls : Nat) : Nat :=
  if cls = clsCfg then 10 else if cls = clsGnss ∨ cls = clsAlmanac then 8 else if cls = clsTrace then 4
  else if 1 ≤ cls ∧ cls ≤ 10 then 1 else 0

/-- The write budget of a class: ticks per token and burst; none for an exempt class (R365). -/
def budget (cls : Nat) : Option (Nat × Nat) :=
  if cls = clsKeys then some (60 * ticksPerSec, 16)
  else if cls = clsCfg then some (ticksPerSec, 64)
  else if cls = clsTime then some (60 * ticksPerSec, 8)
  else if cls = clsHist then some (60 * ticksPerSec, 2)
  else if cls = clsGnss ∨ cls = clsAlmanac ∨ cls = clsTrace then some (60 * ticksPerSec, 4)
  else if cls = clsLife then some (600 * ticksPerSec, 1)
  else none

/-- The refill that a class holds now, in ticks, and its cap. -/
def budgetLevel (s : State) (cls period burst : Nat) : Nat :=
  let t := tget (fun _ => (burst * period, 0)) s.loam.tokens cls
  min (burst * period) (t.1 + (s.tb.ticks - t.2))

/-- A token is taken where the class has one; an exempt class needs none (R375). -/
def takeToken (s : State) (cls : Nat) : Option State :=
  match budget cls with
  | none => some s
  | some (period, burst) =>
    let l := budgetLevel s cls period burst
    if l < period then none
    else some { s with loam := { s.loam with
      tokens := tset (fun _ => (burst * period, 0)) s.loam.tokens cls (l - period, s.tb.ticks) } }

/-- Why a commit is refused at its request. -/
inductive NoCommit where
  | throttled | noSpace | powerFail
  deriving DecidableEq, Repr

/-- The store refuses a class: READ_ONLY, or evicted (R383, R384). -/
def noSpace (s : State) (cls : Nat) : Bool := decide (s.loam.st = 3) || s.loam.evicted.contains cls

/-- PFAIL_N stands, or was released less than 10 ms ago, or a reset waits for the commit in progress
(R378, R380, R497). -/
def powerFailing (s : State) : Bool := s.loam.pfail || s.loam.holdoff || s.glb.deferred.isSome

/-- A commit is requested: refused, or queued with its token taken (R374, R375, R378). -/
def requestCommit (s : State) (c : Commit) (takesToken : Bool) : State × Option NoCommit :=
  if powerFailing s then (bump s 0x1100048 1, some .powerFail)
  else if noSpace s c.cls then (bump s 0x1100040 1, some .noSpace)
  else
    match (if takesToken then takeToken s c.cls else some s) with
    | none => (raiseLim (bump s 0x1100040 1) 333 0 c.cls [], some .throttled)
    | some s1 => ({ s1 with loam := { s1.loam with queue := s1.loam.queue ++ [c] } }, none)

/-- Firmware requests a commit; a refusal leaves the class as it stands (R375). -/
def fwCommit (s : State) (cls : Nat) (segs : List Nat) (p : Option Payload) : State :=
  (requestCommit s { by_ := .firmware, cls := cls, segs := segs, payload := p } true).1

/-- The class and segment that hold an "L" register (R365). -/
def segOfReg (a : Nat) : Nat := if isTimeReg a then segKey clsTime 0 else segKey clsCfg (cfgSegment a)

/-- The "L" fields of a segment that differ from their factory default, by register (R13, R365). -/
def regPayload (s : State) (cls seg : Nat) : List (Nat × Word) :=
  s.regs.filterMap fun e =>
    let m := loamMask e.1
    if m ≠ 0 ∧ segOfReg e.1 = segKey cls seg ∧ e.2 &&& m ≠ coldWord e.1 &&& m then some (e.1, e.2 &&& m) else none

def fwCode : FwState → Nat
  | .empty => 0
  | .valid => 1
  | .pending => 2
  | .trial => 3
  | .committed => 4
  | .rejected => 5

/-- The GNSS record of the running values; the broadcast offsets are those at hand (R157). -/
def gnRecordOf (s : State) : GnRec :=
  { s.gn.kept with isto := (List.range 4).map fun k =>
      let x := tget (fun _ => Isto.cold) s.gn.isto k
      if x.bcastAvail then some x.bcast else none }

/-- The payload bytes that a page holds beside the header (R365). -/
def pageRoom : Nat := 4064

/-- Ephemerides as far as they fit into a number of bytes. -/
def fitEph : Nat → List Eph → List Eph
  | _, [] => []
  | room, e :: es =>
    let n := 14 + e.data.length
    if n ≤ room then e :: fitEph (room - n) es else fitEph room es

/-- A segment of the GNSS record: everything but the ephemerides, then these by satellite number over the other seven
(log entry 21). -/
def gnSegment (r : GnRec) (seg : Nat) : GnRec :=
  if seg = 0 then
    { r with eph := [], iono := r.iono.take 1024, utc := r.utc.take 1024, rootKey := r.rootKey.take 1024 }
  else { GnRec.none with eph := fitEph pageRoom (r.eph.filter fun e => decide (e.sv % 7 + 1 = seg)) }

/-- The GNSS record that its segments make up. -/
def gnJoin (rs : List GnRec) : GnRec :=
  match rs with
  | [] => GnRec.none
  | r :: rest => { r with eph := rest.flatMap (·.eph) }

/-- A segment of a byte record. -/
def byteSegment (b : Bytes) (seg : Nat) : Bytes := (b.drop (pageRoom * seg)).take pageRoom

/-- The alarm table and the last records of each event ring as bytes (R365, R486). -/
def traceBytes (s : State) : Bytes :=
  (s.evt.alarms.flatMap fun e => leBytes 2 e.1 ++ leBytes 2 e.2.id ++ leBytes 2 e.2.count ++ leBytes 4 e.2.mask.toNat)
  ++ s.evt.recent.flatMap fun e => e.2.flatMap id

/-- The schema version of every class that this image writes (R365, R393). -/
def schemaOf (_cls : Nat) : Nat := 1

/-- The running values of a segment: the snapshot of a commit (R374). -/
def snapshot (s : State) (cls seg : Nat) : Payload :=
  if cls = clsCfg ∨ cls = clsTime then .words (regPayload s cls seg)
  else if cls = clsKeys then .keys s.nts.slots s.loam.csig
  else if cls = clsHist then
    match s.dpl.model with
    | some m => .hist m
    | none => .bytes []
  else if cls = clsFwmeta then
    .fwmeta (fwCode s.loam.slot0) (fwCode s.loam.slot1) s.loam.attempts s.loam.elapsed s.loam.trialStart
      ((List.range 11).map schemaOf)
  else if cls = clsGnss then .gnss (gnSegment (gnRecordOf s) seg)
  else if cls = clsAlmanac then .bytes (byteSegment s.gn.almanac seg)
  else if cls = clsTrace then .bytes (byteSegment (traceBytes s) seg)
  else .bytes []

/-- LOAM_CONFLICT and LOAM_LOST end once their segments are rewritten, KEYS with its conflict (R485). -/
def loamAlarmEnd (s : State) : State :=
  if s.nts.conflict = false ∧ (s.loam.repair.filter fun e => decide (e.1 ≠ clsKeys)) = [] then
    alarmClear (alarmClear s 328) 330
  else s

/-- A FWMETA commit: exempt from the budget (R365, R390). -/
def fwmetaCommit (s : State) : State × Option NoCommit :=
  requestCommit s { by_ := .firmware, cls := clsFwmeta, segs := [0], payload := none } false

/-! ## Loam descriptors (R397) -/

def loamOp (d : Bytes) : Nat := fld (descWord d 3) 0 8
def loamCls (d : Bytes) : Nat := fld (descWord d 3) 8 8
def loamSeg (d : Bytes) : Nat := fld (descWord d 3) 16 6
def loamLen (d : Bytes) : Nat := (descWord d 2).toNat
def loamOffset (d : Bytes) : Nat := (descWord d 4).toNat
def loamTag (d : Bytes) : Word := descWord d 5

def loamClean (d : Bytes) : Bool := decide (fld (descWord d 3) 22 10 = 0) && decide (leNat (sub d 24 8) = 0)

/-- The body of a Loam completion (R399). -/
def loamBody (result segs gen : Nat) (tag : Word) (n : Nat) : Bytes :=
  leBytes 2 0x0051 ++ leBytes 1 result ++ leBytes 1 segs ++ leBytes 4 gen ++ leBytes 4 tag.toNat ++ leBytes 4 n

/-- A body of a Loam completion with the type and the tag alone (R399). -/
def loamBare (tag : Word) : Bytes := leBytes 2 0x0051 ++ List.replicate 6 0 ++ leBytes 4 tag.toNat

/-- The class for which a command that is acceptable at its fetch requests a commit with a token: COMMIT, CSIG_SET,
WIPE (R375, R398). -/
def commitClass (s : State) (d : Bytes) : Option Nat :=
  if loamClean d = false then none
  else if loamOp d = 0x01 then (if loamCls d = clsCfg ∨ loamCls d = clsTime then some (loamCls d) else none)
  else if loamOp d = 0x20 then (if s.loam.csig.isNone ∧ loamLen d = 32 then some clsKeys else none)
  else if loamOp d = 0x30 then some clsKeys
  else none

/-- A host commit is requested at the fetch of its descriptor: refused at once, or with its token taken (R375, R378,
R384). -/
def fetchToken (s : State) (cls : Nat) : State × Option NoCommit :=
  if powerFailing s then (bump s 0x1100048 1, some .powerFail)
  else if noSpace s cls then (bump s 0x1100040 1, some .noSpace)
  else match takeToken s cls with
    | none => (raiseLim (bump s 0x1100040 1) 333 0 cls [], some .throttled)
    | some s1 => (s1, none)

end Sys2Proof.Machine
end

