-- ==== Sys2Proof/Machine/CryptoSym.lean ====
section
/-! DEFINITION. The symmetric algorithms that the spec names: AES (FIPS 197), CMAC, AES-SIV (RFC 5297; R251, R254,
R263), AES key wrap (RFC 3394) and SipHash-2-4 (R285). Blocks are lists of numbers below 256. -/

namespace Sys2Proof.Machine

/-- A block or key as byte values. -/
abbrev Oct := List Nat

def toOct (b : Bytes) : Oct := b.map (·.toNat)
def ofOct (o : Oct) : Bytes := o.map (BitVec.ofNat 8 ·)

def xorOct : Oct → Oct → Oct
  | a :: x, b :: y => (a ^^^ b) :: xorOct x y
  | _, _ => []

/-! ## AES -/

/-- The S-box as 256 bytes of one number. -/
def sboxTable : Nat :=
  0x637c777bf26b6fc53001672bfed7ab76ca82c97dfa5947f0add4a2af9ca472c0 * 256 ^ 224 +
  0xb7fd9326363ff7cc34a5e5f171d8311504c723c31896059a071280e2eb27b275 * 256 ^ 192 +
  0x09832c1a1b6e5aa0523bd6b329e32f8453d100ed20fcb15b6acbbe394a4c58cf * 256 ^ 160 +
  0xd0efaafb434d338545f9027f503c9fa851a3408f929d38f5bcb6da2110fff3d2 * 256 ^ 128 +
  0xcd0c13ec5f974417c4a77e3d645d197360814fdc222a908846eeb814de5e0bdb * 256 ^ 96 +
  0xe0323a0a4906245cc2d3ac629195e479e7c8376d8dd54ea96c56f4ea657aae08 * 256 ^ 64 +
  0xba78252e1ca6b4c6e8dd741f4bbd8b8a703eb5664803f60e613557b986c11d9e * 256 ^ 32 +
  0xe1f8981169d98e949b1e87e9ce5528df8ca1890dbfe6426841992d0fb054bb16 * 256 ^ 0

def invSboxTable : Nat :=
  0x52096ad53036a538bf40a39e81f3d7fb7ce339829b2fff87348e4344c4dee9cb * 256 ^ 224 +
  0x547b9432a6c2233dee4c950b42fac34e082ea16628d924b2765ba2496d8bd125 * 256 ^ 192 +
  0x72f8f66486689816d4a45ccc5d65b6926c704850fdedb9da5e154657a78d9d84 * 256 ^ 160 +
  0x90d8ab008cbcd30af7e45805b8b34506d02c1e8fca3f0f02c1afbd0301138a6b * 256 ^ 128 +
  0x3a9111414f67dcea97f2cfcef0b4e67396ac7422e7ad3585e2f937e81c75df6e * 256 ^ 96 +
  0x47f11a711d29c5896fb7620eaa18be1bfc563e4bc6d279209adbc0fe78cd5af4 * 256 ^ 64 +
  0x1fdda8338807c731b11210592780ec5f60517fa919b54a0d2de57a9f93c99cef * 256 ^ 32 +
  0xa0e03b4dae2af5b0c8ebbb3c83539961172b047eba77d626e169146355210c7d * 256 ^ 0

def sbox (x : Nat) : Nat := sboxTable / 256 ^ (255 - x) % 256
def invSbox (x : Nat) : Nat := invSboxTable / 256 ^ (255 - x) % 256

def xtime (x : Nat) : Nat := if x < 128 then 2 * x else (2 * x - 256) ^^^ 0x1B

/-- Multiplication in the AES field by a constant of at most 4 bits. -/
def gfMul (k x : Nat) : Nat :=
  let x2 := xtime x
  let x4 := xtime x2
  let x8 := xtime x4
  (if k % 2 = 1 then x else 0) ^^^ (if k / 2 % 2 = 1 then x2 else 0)
  ^^^ (if k / 4 % 2 = 1 then x4 else 0) ^^^ (if k / 8 % 2 = 1 then x8 else 0)

/-- The key schedule, newest word first: `w` is the reversed list of words so far, `i` the next index. -/
def expandKey (nk : Nat) : Nat → Nat → Nat → List Oct → List Oct
  | 0, _, _, w => w
  | n + 1, i, rcon, w =>
    let prev := w.headD []
    let back := w.getD (nk - 1) []
    let (t, rc) :=
      if i % nk = 0 then
        let r := (prev.drop 1 ++ prev.take 1).map sbox
        (xorOct r [rcon, 0, 0, 0], xtime rcon)
      else if 6 < nk ∧ i % nk = 4 then (prev.map sbox, rcon)
      else (prev, rcon)
    expandKey nk n (i + 1) rc (xorOct back t :: w)

/-- A list in groups of four. -/
def quads : Oct → List Oct
  | a :: b :: c :: d :: r => [a, b, c, d] :: quads r
  | _ => []

/-- A key schedule in groups of four words, as round keys of 16 bytes. -/
def roundKeys : List Oct → List Oct
  | a :: b :: c :: d :: r => (a ++ b ++ c ++ d) :: roundKeys r
  | _ => []

/-- The round keys of a 16 or 32 byte key, first round first. -/
def aesKeys (key : Oct) : List Oct :=
  let nk := key.length / 4
  let total := 4 * (nk + 7)
  roundKeys (expandKey nk (total - nk) nk 1 (quads key).reverse).reverse

def shiftRows (s : Oct) : Oct :=
  (List.range 16).map fun i => s.getD ((i + 4 * (i % 4)) % 16) 0

def invShiftRows (s : Oct) : Oct :=
  (List.range 16).map fun i => s.getD ((i + 12 * (i % 4)) % 16) 0

def mixWith (k0 k1 k2 k3 : Nat) : Oct → Oct
  | a :: b :: c :: d :: r =>
    (gfMul k0 a ^^^ gfMul k1 b ^^^ gfMul k2 c ^^^ gfMul k3 d)
    :: (gfMul k3 a ^^^ gfMul k0 b ^^^ gfMul k1 c ^^^ gfMul k2 d)
    :: (gfMul k2 a ^^^ gfMul k3 b ^^^ gfMul k0 c ^^^ gfMul k1 d)
    :: (gfMul k1 a ^^^ gfMul k2 b ^^^ gfMul k3 c ^^^ gfMul k0 d)
    :: mixWith k0 k1 k2 k3 r
  | _ => []

def aesRounds : List Oct → Oct → Oct
  | [], s => s
  | [k], s => xorOct (shiftRows (s.map sbox)) k
  | k :: ks, s => aesRounds ks (xorOct (mixWith 2 3 1 1 (shiftRows (s.map sbox))) k)

/-- One block under expanded round keys. -/
def aesEnc (ks : List Oct) (b : Oct) : Oct := aesRounds (ks.drop 1) (xorOct b (ks.headD []))

def aesInvRounds : List Oct → Oct → Oct
  | [], s => s
  | [k], s => xorOct s k
  | k :: ks, s =>
    let t := xorOct s k
    aesInvRounds ks ((invShiftRows (mixWith 14 11 13 9 t)).map invSbox)

/-- The inverse cipher. -/
def aesDec (ks : List Oct) (b : Oct) : Oct :=
  match ks.reverse with
  | [] => b
  | k :: rest => aesInvRounds rest ((invShiftRows (xorOct b k)).map invSbox)

/-! ## CMAC and AES-SIV -/

def octNat (o : Oct) : Nat := o.foldl (fun n b => n * 256 + b) 0

/-- A number as n big-endian byte values. -/
def natOct : Nat → Nat → Oct
  | 0, _ => []
  | n + 1, x => natOct n (x / 256) ++ [x % 256]

/-- Doubling in GF(2^128). -/
def dbl (o : Oct) : Oct :=
  let x := octNat o
  natOct 16 (if x < 2 ^ 127 then 2 * x else (2 * x - 2 ^ 128) ^^^ 0x87)

def zeros (n : Nat) : Oct := List.replicate n 0

/-- The chaining of CMAC over n blocks and the last, prepared block. -/
def cmacChain (ks : List Oct) : Nat → Oct → Oct → Oct
  | 0, st, m => aesEnc ks (xorOct st m)
  | n + 1, st, m => cmacChain ks n (aesEnc ks (xorOct st (m.take 16))) (m.drop 16)

def cmac (ks : List Oct) (m : Oct) : Oct :=
  let k1 := dbl (aesEnc ks (zeros 16))
  let n := (m.length + 15) / 16 - 1
  let last := m.drop (16 * n)
  let fin := if last.length = 16 then xorOct last k1
    else xorOct (last ++ [0x80] ++ zeros (15 - last.length)) (dbl k1)
  cmacChain ks n (zeros 16) (m.take (16 * n) ++ fin)

/-- S2V of RFC 5297 over associated data (the nonce last) and the plaintext. -/
def s2v (ks : List Oct) (ads : List Oct) (p : Oct) : Oct :=
  let d := ads.foldl (fun d a => xorOct (dbl d) (cmac ks a)) (cmac ks (zeros 16))
  let t := if 16 ≤ p.length then
      p.take (p.length - 16) ++ xorOct (p.drop (p.length - 16)) d
    else xorOct (dbl d) (p ++ [0x80] ++ zeros (15 - p.length))
  cmac ks t

/-- Counter mode over n blocks from a counter value. -/
def ctrRun (ks : List Oct) : Nat → Nat → Oct → Oct
  | 0, _, _ => []
  | n + 1, q, m => xorOct (m.take 16) (aesEnc ks (natOct 16 q)) ++ ctrRun ks n ((q + 1) % 2 ^ 128) (m.drop 16)

/-- The counter start of RFC 5297: bits 63 and 31 of the tag cleared. -/
def ctrStart (v : Oct) : Nat :=
  let q := octNat v
  q - (q / 2 ^ 63 % 2) * 2 ^ 63 - (q / 2 ^ 31 % 2) * 2 ^ 31

/-- AES-SIV: the tag and the ciphertext. The key is the MAC half, then the cipher half. -/
def sivSeal (key : Bytes) (ads : List Bytes) (p : Bytes) : Bytes × Bytes :=
  let k := toOct key
  let h := k.length / 2
  let v := s2v (aesKeys (k.take h)) (ads.map toOct) (toOct p)
  let c := ctrRun (aesKeys (k.drop h)) ((p.length + 15) / 16) (ctrStart v) (toOct p)
  (ofOct v, ofOct c)

/-- AES-SIV opening: the plaintext, none where the tag fails. -/
def sivOpen (key : Bytes) (ads : List Bytes) (tag c : Bytes) : Option Bytes :=
  let k := toOct key
  let h := k.length / 2
  let p := ctrRun (aesKeys (k.drop h)) ((c.length + 15) / 16) (ctrStart (toOct tag)) (toOct c)
  if s2v (aesKeys (k.take h)) (ads.map toOct) p = toOct tag then some (ofOct p) else none

/-! ## AES-GCM (R419) -/

/-- The product of GHASH: bit 127 of x first, over the powers of y. -/
def ghashMul : Nat → Nat → Nat → Nat → Nat
  | 0, _, _, z => z
  | n + 1, x, v, z =>
    ghashMul n x (if v % 2 = 1 then v / 2 ^^^ 0xE1 * 2 ^ 120 else v / 2) (if x.testBit n then z ^^^ v else z)

/-- GHASH over n blocks. -/
def ghash (h : Nat) : Nat → Nat → Oct → Nat
  | 0, y, _ => y
  | n + 1, y, m => ghash h n (ghashMul 128 (y ^^^ octNat (m.take 16)) h 0) (m.drop 16)

/-- Bytes padded with zeros to whole blocks. -/
def wholeBlocks (m : Oct) : Oct := m ++ zeros ((16 - m.length % 16) % 16)

/-- AES-GCM with a 12-byte nonce: the ciphertext, then the 16-byte tag. -/
def gcmSeal (key nonce ad p : Bytes) : Bytes :=
  let ks := aesKeys (toOct key)
  let j0 := octNat (toOct nonce) * 2 ^ 32 + 1
  let c := ctrRun ks ((p.length + 15) / 16) (j0 + 1) (toOct p)
  let m := wholeBlocks (toOct ad) ++ wholeBlocks c ++ natOct 8 (8 * ad.length) ++ natOct 8 (8 * c.length)
  let y := ghash (octNat (aesEnc ks (zeros 16))) (m.length / 16) 0 m
  ofOct c ++ ofOct (xorOct (natOct 16 y) (aesEnc ks (natOct 16 j0)))

/-- The AES blocks of one SIV operation: one for the zero block and per block of every part, and per counter block. -/
def sivBlocks (lens : List Nat) (p : Nat) : Nat :=
  lens.foldl (fun n l => n + max 1 ((l + 15) / 16)) (1 + max 1 ((p + 15) / 16) + (p + 15) / 16)

/-! ## AES key wrap (RFC 3394) -/

/-- A byte string in 8-byte halves. -/
def semis : Nat → Oct → List Oct
  | 0, _ => []
  | n + 1, o => o.take 8 :: semis n (o.drop 8)

/-- One pass over the registers: A, then the registers in order; `t` is the step counter. -/
def wrapPass (ks : List Oct) : Oct → Nat → List Oct → Oct × List Oct
  | a, _, [] => (a, [])
  | a, t, r :: rs =>
    let b := aesEnc ks (a ++ r)
    let (a1, rest) := wrapPass ks (xorOct (b.take 8) (natOct 8 t)) (t + 1) rs
    (a1, b.drop 8 :: rest)

def wrapLoop (ks : List Oct) (n : Nat) : Nat → Oct → Nat → List Oct → Oct × List Oct
  | 0, a, _, rs => (a, rs)
  | j + 1, a, t, rs =>
    let (a1, rs1) := wrapPass ks a t rs
    wrapLoop ks n j a1 (t + n) rs1

def wrapIv : Oct := List.replicate 8 0xA6

def keyWrap (key p : Bytes) : Bytes :=
  let n := p.length / 8
  let (a, rs) := wrapLoop (aesKeys (toOct key)) n 6 wrapIv 1 (semis n (toOct p))
  ofOct (a ++ rs.flatten)

/-- One inverse pass over the registers, last register first. -/
def unwrapPass (ks : List Oct) : Oct → Nat → List Oct → Oct × List Oct
  | a, _, [] => (a, [])
  | a, t, r :: rs =>
    let b := aesDec ks (xorOct a (natOct 8 t) ++ r)
    let (a1, rest) := unwrapPass ks (b.take 8) (t - 1) rs
    (a1, b.drop 8 :: rest)

def unwrapLoop (ks : List Oct) (n : Nat) : Nat → Oct → Nat → List Oct → Oct × List Oct
  | 0, a, _, rs => (a, rs)
  | j + 1, a, t, rs =>
    let (a1, rs1) := unwrapPass ks a t rs
    unwrapLoop ks n j a1 (t - n) rs1

/-- Key unwrap: none where the integrity check fails. -/
def keyUnwrap (key c : Bytes) : Option Bytes :=
  let o := toOct c
  let n := c.length / 8 - 1
  let (a, rs) := unwrapLoop (aesKeys (toOct key)) n 6 (o.take 8) (6 * n) (semis n (o.drop 8)).reverse
  if a = wrapIv then some (ofOct rs.reverse.flatten) else none

/-! ## SipHash-2-4 -/

abbrev W64 := BitVec 64

/-- One SipRound. -/
def sipRound : W64 × W64 × W64 × W64 → W64 × W64 × W64 × W64
  | (v0, v1, v2, v3) =>
    let v0 := v0 + v1
    let v1 := (v1.rotateLeft 13) ^^^ v0
    let v0 := v0.rotateLeft 32
    let v2 := v2 + v3
    let v3 := (v3.rotateLeft 16) ^^^ v2
    let v0 := v0 + v3
    let v3 := (v3.rotateLeft 21) ^^^ v0
    let v2 := v2 + v1
    let v1 := (v1.rotateLeft 17) ^^^ v2
    let v2 := v2.rotateLeft 32
    (v0, v1, v2, v3)

def sipWord (v : W64 × W64 × W64 × W64) (m : W64) : W64 × W64 × W64 × W64 :=
  let (a, b, c, d) := v
  let (a, b, c, d) := sipRound (sipRound (a, b, c, d ^^^ m))
  (a ^^^ m, b, c, d)

def sipBlocks : Nat → W64 × W64 × W64 × W64 → Bytes → W64 × W64 × W64 × W64
  | 0, v, _ => v
  | n + 1, v, m => sipBlocks n (sipWord v (BitVec.ofNat 64 (leNat (m.take 8)))) (m.drop 8)

/-- SipHash-2-4 of a byte string under a 128-bit key. -/
def sipHash (key : BitVec 128) (m : Bytes) : Nat :=
  let k0 := BitVec.ofNat 64 key.toNat
  let k1 := BitVec.ofNat 64 (key.toNat / 2 ^ 64)
  let v : W64 × W64 × W64 × W64 :=
    (k0 ^^^ 0x736f6d6570736575, k1 ^^^ 0x646f72616e646f6d, k0 ^^^ 0x6c7967656e657261, k1 ^^^ 0x7465646279746573)
  let n := m.length / 8
  let last := BitVec.ofNat 64 (leNat (m.drop (8 * n)) + m.length % 256 * 2 ^ 56)
  let (a, b, c, d) := sipWord (sipBlocks n v m) last
  let (a, b, c, d) := sipRound (sipRound (sipRound (sipRound (a, b, c ^^^ 0xFF, d))))
  (a ^^^ b ^^^ c ^^^ d).toNat

end Sys2Proof.Machine
end

