-- ==== Sys2Proof/Machine/CryptoHash.lean ====
section
/-! DEFINITION. The hash functions that the spec names: SHA-512 for Ed25519 (R333), SHA-256, SHA3-256 and HMAC-SHA-256
for OSNMA (R149). The two SHA-2 functions are one definition over the word width. -/

namespace Sys2Proof.Machine

/-- The n words of 64 bits of a number, highest first. -/
def words64 (n x : Nat) : List W64 := (List.range n).map fun i => BitVec.ofNat 64 (x / 2 ^ (64 * (n - 1 - i)))

/-! ## SHA-2 (FIPS 180-4) -/

/-- What tells the SHA-2 functions apart: constants, the first hash value, and the amounts of Σ0, Σ1, σ0 and σ1. -/
structure Sha2 (w : Nat) where
  ks : List (BitVec w)
  start : List (BitVec w)
  sumUp : Nat × Nat × Nat
  sumLo : Nat × Nat × Nat
  back15 : Nat × Nat × Nat
  back2 : Nat × Nat × Nat

/-- The round constants of SHA-512. -/
def sha512K : List W64 :=
  words64 8 0x428a2f98d728ae227137449123ef65cdb5c0fbcfec4d3b2fe9b5dba58189dbbc3956c25bf348b53859f111f1b605d019923f82a4af194f9bab1c5ed5da6d8118
   ++ words64 8 0xd807aa98a303024212835b0145706fbe243185be4ee4b28c550c7dc3d5ffb4e272be5d74f27b896f80deb1fe3b1696b19bdc06a725c71235c19bf174cf692694
   ++ words64 8 0xe49b69c19ef14ad2efbe4786384f25e30fc19dc68b8cd5b5240ca1cc77ac9c652de92c6f592b02754a7484aa6ea6e4835cb0a9dcbd41fbd476f988da831153b5
   ++ words64 8 0x983e5152ee66dfaba831c66d2db43210b00327c898fb213fbf597fc7beef0ee4c6e00bf33da88fc2d5a79147930aa72506ca6351e003826f142929670a0e6e70
   ++ words64 8 0x27b70a8546d22ffc2e1b21385c26c9264d2c6dfc5ac42aed53380d139d95b3df650a73548baf63de766a0abb3c77b2a881c2c92e47edaee692722c851482353b
   ++ words64 8 0xa2bfe8a14cf10364a81a664bbc423001c24b8b70d0f89791c76c51a30654be30d192e819d6ef5218d69906245565a910f40e35855771202a106aa07032bbd1b8
   ++ words64 8 0x19a4c116b8d2d0c81e376c085141ab532748774cdf8eeb9934b0bcb5e19b48a8391c0cb3c5c95a634ed8aa4ae3418acb5b9cca4f7763e373682e6ff3d6b2b8a3
   ++ words64 8 0x748f82ee5defb2fc78a5636f43172f6084c87814a1f0ab728cc702081a6439ec90befffa23631e28a4506cebde82bde9bef9a3f7b2c67915c67178f2e372532b
   ++ words64 8 0xca273eceea26619cd186b8c721c0c207eada7dd6cde0eb1ef57d4f7fee6ed17806f067aa72176fba0a637dc5a2c898a6113f9804bef90dae1b710b35131c471b
   ++ words64 8 0x28db77f523047d8432caab7b40c724933c9ebe0a15c9bebc431d67c49c100d4c4cc5d4becb3e42b6597f299cfc657e2a5fcb6fab3ad6faec6c44198c4a475817

/-- The first hash value of SHA-512. -/
def sha512H : List W64 := words64 8 0x6a09e667f3bcc908bb67ae8584caa73b3c6ef372fe94f82ba54ff53a5f1d36f1510e527fade682d19b05688c2b3e6c1f1f83d9abfb41bd6b5be0cd19137e2179

def sha512Family : Sha2 64 :=
  { ks := sha512K, start := sha512H, sumUp := (28, 34, 39), sumLo := (14, 18, 41), back15 := (1, 8, 7),
    back2 := (19, 61, 6) }

/-- The constants of SHA-256 are the upper halves of the first ones of SHA-512. -/
def upperHalf (x : W64) : BitVec 32 := x.extractLsb' 32 32

def sha256Family : Sha2 32 :=
  { ks := (sha512K.take 64).map upperHalf, start := sha512H.map upperHalf, sumUp := (2, 13, 22), sumLo := (6, 11, 25),
    back15 := (7, 18, 3), back2 := (17, 19, 10) }

/-- The exclusive or of three rotations: Σ0 and Σ1. -/
def threeTurns {w : Nat} (n : Nat × Nat × Nat) (x : BitVec w) : BitVec w :=
  x.rotateRight n.1 ^^^ x.rotateRight n.2.1 ^^^ x.rotateRight n.2.2

/-- Two rotations and a shift: σ0 and σ1. -/
def turnsShift {w : Nat} (n : Nat × Nat × Nat) (x : BitVec w) : BitVec w :=
  x.rotateRight n.1 ^^^ x.rotateRight n.2.1 ^^^ x >>> n.2.2

/-- The word that follows a window of 16 schedule words. -/
def Sha2.expand {w : Nat} (f : Sha2 w) (win : List (BitVec w)) : BitVec w :=
  win.headD 0 + turnsShift f.back15 (win.getD 1 0) + win.getD 9 0 + turnsShift f.back2 (win.getD 14 0)

/-- The two words that change in a round: the eight working variables are the last four values of each. -/
structure ShaPair (w : Nat) where
  up : List (BitVec w)
  lo : List (BitVec w)

/-- A round with the constant k and the schedule word m. -/
def Sha2.round {w : Nat} (f : Sha2 w) (v : ShaPair w) (k m : BitVec w) : ShaPair w :=
  let u := fun i => v.up.getD i 0
  let l := fun i => v.lo.getD i 0
  let choose := (l 0 &&& (l 1 ^^^ l 2)) ^^^ l 2
  let most := (u 0 &&& (u 1 ||| u 2)) ||| (u 1 &&& u 2)
  let t := m + k + l 3 + choose + threeTurns f.sumLo (l 0)
  { up := (t + most + threeTurns f.sumUp (u 0)) :: v.up.take 3, lo := (u 3 + t) :: v.lo.take 3 }

/-- The rounds of one block; the window moves by a word a round. -/
def Sha2.mix {w : Nat} (f : Sha2 w) (win : List (BitVec w)) (v : ShaPair w) : ShaPair w :=
  (f.ks.foldl (fun (x : List (BitVec w) × ShaPair w) k =>
    (x.1.drop 1 ++ [f.expand x.1], f.round x.2 k (x.1.headD 0))) (win, v)).2

/-- The 16 words of a block. -/
def blockWords (w : Nat) (block : Bytes) : List (BitVec w) :=
  (List.range 16).map fun i => BitVec.ofNat w (beNat (sub block (w / 8 * i) (w / 8)))

/-- The hash value after a block of 2w bytes. -/
def Sha2.step {w : Nat} (f : Sha2 w) (h : List (BitVec w)) (block : Bytes) : List (BitVec w) :=
  let v := f.mix (blockWords w block) { up := h.take 4, lo := h.drop 4 }
  List.zipWith (· + ·) h (v.up ++ v.lo)

/-- The padded message in blocks of 2w bytes; its length stands in the last w/4 bytes. -/
def shaBlocks (w : Nat) (m : Bytes) : List Bytes :=
  let n := (m.length + w / 4) / (2 * w) + 1
  let padded := subPad (m ++ [0x80]) 0 (2 * w * n - w / 4) ++ beBytes (w / 4) (8 * m.length)
  (List.range n).map fun i => sub padded (2 * w * i) (2 * w)

def Sha2.hash {w : Nat} (f : Sha2 w) (m : Bytes) : Bytes :=
  ((shaBlocks w m).foldl f.step f.start).flatMap fun x => beBytes (w / 8) x.toNat

def sha512 (m : Bytes) : Bytes := sha512Family.hash m
def sha256 (m : Bytes) : Bytes := sha256Family.hash m

/-- HMAC-SHA-256 (FIPS 198-1). -/
def hmac256 (key m : Bytes) : Bytes :=
  let k := subPad (if 64 < key.length then sha256 key else key) 0 64
  sha256 (k.map (· ^^^ 0x5C) ++ sha256 (k.map (· ^^^ 0x36) ++ m))

/-! ## SHA3-256 (FIPS 202) -/

/-- The round constants of ι. -/
def keccakRc : List W64 :=
  words64 8 0x00000000000000010000000000008082800000000000808a8000000080008000000000000000808b000000008000000180000000800080818000000000008009
  ++ words64 8 0x000000000000008a00000000000000880000000080008009000000008000000a000000008000808b800000000000008b80000000000080898000000000008003
  ++ words64 8 0x80000000000080028000000000000080000000000000800a800000008000000a8000000080008081800000000000808000000000800000018000000080008008

/-- The rotations of ρ, lane x + 5y. -/
def keccakTurn (i : Nat) : Nat :=
  [0, 1, 62, 28, 27, 36, 44, 6, 55, 20, 3, 10, 43, 25, 39, 41, 45, 15, 21, 8, 18, 2, 61, 56, 14].getD i 0

/-- A round on 25 lanes: θ, then ρ and π read backwards, then χ and ι. -/
def keccakRound (a : List W64) (rc : W64) : List W64 :=
  let col := fun x => [0, 5, 10, 15, 20].foldl (fun t k => t ^^^ a.getD (x % 5 + k) 0) 0
  let cols := (List.range 5).map col
  let d := (List.range 5).map fun x => cols.getD ((x + 4) % 5) 0 ^^^ (cols.getD ((x + 1) % 5) 0).rotateLeft 1
  let th := (List.range 25).map fun i => (a.getD i 0 ^^^ d.getD (i % 5) 0).rotateLeft (keccakTurn i)
  let b := (List.range 25).map fun i => th.getD ((i % 5 + 3 * (i / 5)) % 5 + 5 * (i % 5)) 0
  (List.range 25).map fun i =>
    let r := fun k => b.getD ((i % 5 + k) % 5 + 5 * (i / 5)) 0
    r 0 ^^^ (~~~r 1 &&& r 2) ^^^ (if i = 0 then rc else 0)

def keccakF (a : List W64) : List W64 := keccakRc.foldl keccakRound a

/-- The message with its padding in blocks of 136 bytes. -/
def sha3Blocks (m : Bytes) : List Bytes :=
  let n := m.length / 136 + 1
  let padded := subPad (m ++ [0x06]) 0 (136 * n)
  (List.range n).map fun i =>
    let b := sub padded (136 * i) 136
    if i + 1 = n then b.take 135 ++ [b.getD 135 0 ||| 0x80] else b

/-- A block enters the state. -/
def sha3Absorb (a : List W64) (block : Bytes) : List W64 :=
  keccakF ((List.range 25).map fun i =>
    a.getD i 0 ^^^ (if i < 17 then BitVec.ofNat 64 (leNat (sub block (8 * i) 8)) else 0))

def sha3 (m : Bytes) : Bytes :=
  (((sha3Blocks m).foldl sha3Absorb (List.replicate 25 0)).take 4).flatMap fun x => leBytes 8 x.toNat

end Sys2Proof.Machine
end

