-- ==== Sys2Proof/Machine/CryptoAsym.lean ====
section
/-! DEFINITION. The asymmetric algorithms that the spec names: modular arithmetic, RSA by CRT, ECDSA over P-256 and
P-384 (FIPS 186-5), Ed25519 with SHA-512 (RFC 8032) and X25519 (RFC 7748) (R333, R334, R336, R337). Every recipe runs
on the randomised representation of R337: its random numbers are arguments. -/

namespace Sys2Proof.Machine

/-! ## Modular arithmetic -/

/-- a^e mod m, over the low n bits of e, most significant first. -/
def powBits (a e m : Nat) : Nat → Nat → Nat
  | 0, acc => acc
  | n + 1, acc =>
    let sq := acc * acc % m
    powBits a e m n (if e / 2 ^ n % 2 = 1 then sq * a % m else sq)

def powMod (a e m : Nat) : Nat := powBits (a % m) e m (e.log2 + 1) (1 % m)

/-- The extended Euclidean algorithm, bounded: gcd and the coefficient of the first argument. -/
def egcd : Nat → Int → Int → Int → Int → Int × Int
  | 0, r0, _, s0, _ => (r0, s0)
  | n + 1, r0, r1, s0, s1 => if r1 = 0 then (r0, s0) else egcd n r1 (r0 % r1) s1 (s0 - r0 / r1 * s1)

/-- a⁻¹ mod m, none where gcd(a, m) ≠ 1. -/
def modInv (a m : Nat) : Option Nat :=
  let (g, x) := egcd (2 * m.log2 + 4) a m 1 0
  if g = 1 then some ((x % (m : Int)).toNat) else none

def inv0 (a m : Nat) : Nat := (modInv a m).getD 0

def subMod (a b m : Nat) : Nat := (a + m - b % m) % m

/-! ## RSA -/

/-- RSA private key material K: p, q, dp, dq, qinv, e (R340). -/
structure RsaKey where
  p : Nat
  q : Nat
  dp : Nat
  dq : Nat
  qinv : Nat
  e : Nat
  deriving Repr

def RsaKey.n (k : RsaKey) : Nat := k.p * k.q

/-- The CRT private operation with the exponents dp + k1 (p - 1) and dq + k2 (q - 1) (R337). -/
def rsaCrt (k : RsaKey) (k1 k2 c : Nat) : Nat :=
  let m1 := powMod c (k.dp + k1 * (k.p - 1)) k.p
  let m2 := powMod c (k.dq + k2 * (k.q - 1)) k.q
  m2 + k.q * (k.qinv * subMod m1 m2 k.p % k.p)

/-- The blinding factor from random bytes: a unit mod n; 1 where the drawn number is none. DESIGN CHOICE (log 100). -/
def rsaBlind (k : RsaKey) (b : Bytes) : Nat :=
  let r := beNat b % k.n
  if (modInv r k.n).isSome then r else 1

/-- The blinded input c r^e mod n (R337). -/
def rsaInput (k : RsaKey) (r c : Nat) : Nat := c * powMod r k.e k.n % k.n

/-- The result check: the private result raised to e is the blinded input (R339). -/
def rsaChecks (k : RsaKey) (input m : Nat) : Bool := decide (powMod m k.e k.n = input)

/-- The private operation: the result without r, none where the check fails (R337, R339). -/
def rsaPrivate (k : RsaKey) (r k1 k2 c : Nat) : Option Nat :=
  let x := rsaInput k r c
  let m := rsaCrt k k1 k2 x
  if rsaChecks k x m then some (m * inv0 r k.n % k.n) else none

/-! ## Short Weierstrass curves -/

structure Curve where
  p : Nat
  b : Nat
  gx : Nat
  gy : Nat
  n : Nat
  deriving Repr

def p256 : Curve :=
  { p := 0xffffffff00000001000000000000000000000000ffffffffffffffffffffffff,
    b := 0x5ac635d8aa3a93e7b3ebbd55769886bc651d06b0cc53b0f63bce3c3e27d2604b,
    gx := 0x6b17d1f2e12c4247f8bce6e563a440f277037d812deb33a0f4a13945d898c296,
    gy := 0x4fe342e2fe1a7f9b8ee7eb4a7c0f9e162bce33576b315ececbb6406837bf51f5,
    n := 0xffffffff00000000ffffffffffffffffbce6faada7179e84f3b9cac2fc632551 }

def p384 : Curve :=
  { p := 0xfffffffffffffffffffffffffffffffffffffffffffffffffffffffffffffffeffffffff0000000000000000ffffffff,
    b := 0xb3312fa7e23ee7e4988e056be3f82d19181d9c6efe8141120314088f5013875ac656398d8a2ed19d2a85c8edd3ec2aef,
    gx := 0xaa87ca22be8b05378eb1c71ef320ad746e1d3b628ba79b9859f741e082542a385502f25dbf55296c3a545e3872760ab7,
    gy := 0x3617de4a96262c6f5d9e98bf9292dc29f8f41dbd289a147ce9da3113b5f0b8c00a60b1ce1d7e819d7a431d7c90ea0e5f,
    n := 0xffffffffffffffffffffffffffffffffffffffffffffffffc7634d81f4372ddf581a0db248b0a77aecec196accc52973 }

/-- A point, none at infinity. -/
abbrev Pt := Option (Nat × Nat)

/-- A point in homogeneous projective coordinates, x = X/Z and y = Y/Z; Z = 0 at infinity. -/
structure Proj where
  x : Int
  y : Int
  z : Int
  deriving Repr

/-- A representation of a point with the given Z (R337). -/
def Proj.lift (p : Nat) (z : Nat) : Pt → Proj
  | none => { x := 0, y := 1, z := 0 }
  | some (a, b) => { x := (a * z % p : Nat), y := (b * z % p : Nat), z := (z % p : Nat) }

/-- The point of a representation. -/
def Proj.drop (p : Nat) (v : Proj) : Pt :=
  if v.z % p = 0 then none
  else
    let i := inv0 (v.z % p).toNat p
    some ((v.x % p).toNat * i % p, (v.y % p).toNat * i % p)

/-- A Z coordinate other than 0 from random bytes. -/
def zFrom (p : Nat) (b : Bytes) : Nat := beNat b % (p - 1) + 1

/-- 2·P, a = -3. -/
def Proj.twice (p : Nat) (v : Proj) : Proj :=
  let w := 3 * (v.x - v.z) * (v.x + v.z) % p
  let s := v.y * v.z % p
  let ys := v.y * s % p
  let b := v.x * ys % p
  let h := (w * w - 8 * b) % p
  { x := 2 * h * s % p, y := (w * (4 * b - h) - 8 * ys * ys) % p, z := 8 * s * s * s % p }

/-- P + Q. -/
def Proj.plus (p : Nat) (v w : Proj) : Proj :=
  if v.z % p = 0 then w
  else if w.z % p = 0 then v
  else
    let u := (w.y * v.z - v.y * w.z) % p
    let t := (w.x * v.z - v.x * w.z) % p
    if t = 0 then (if u = 0 then v.twice p else Proj.lift p 1 none)
    else
      let zz := v.z * w.z % p
      let t2 := t * t % p
      let t3 := t2 * t % p
      let r := t2 * (v.x * w.z) % p
      let a := (u * u * zz - t3 - 2 * r) % p
      { x := t * a % p, y := (u * (r - a) - t3 * (v.y * w.z)) % p, z := t3 * zz % p }

/-- k·P over the low n bits of k. -/
def projMul (p k : Nat) (v : Proj) : Nat → Proj → Proj
  | 0, acc => acc
  | n + 1, acc => projMul p k v n (if k / 2 ^ n % 2 = 1 then (acc.twice p).plus p v else acc.twice p)

def ecMul (c : Curve) (z k : Nat) (q : Pt) : Proj :=
  projMul c.p k (Proj.lift c.p z q) (k.log2 + 1) (Proj.lift c.p 1 none)

def Curve.g (c : Curve) : Pt := some (c.gx, c.gy)

/-- Q lies on the curve. -/
def onCurve (c : Curve) (x y : Nat) : Bool :=
  decide (x < c.p) && decide (y < c.p) && decide (y * y % c.p = (x * x * x + (c.p - 3) * x + c.b) % c.p)

/-- An ECDSA signature of the hash h under d, from the representation Z = z, with the nonce k. -/
def ecdsaSig (c : Curve) (z h d k : Nat) : Nat × Nat :=
  match (ecMul c z k c.g).drop c.p with
  | none => (0, 0)
  | some (x, _) =>
    let r := x % c.n
    (r, inv0 k c.n * (h + r * d) % c.n)

/-- ECDSA verification from the representation Z = z, r and s in range. -/
def ecdsaOk (c : Curve) (z h qx qy r s : Nat) : Bool :=
  let w := inv0 s c.n
  match ((ecMul c z (h * w % c.n) c.g).plus c.p (ecMul c z (r * w % c.n) (some (qx, qy)))).drop c.p with
  | none => false
  | some (x, _) => decide (x % c.n = r)

/-- A scalar in 1 to n − 1 from random bytes with 64 extra bits (FIPS 186-5, appendix A). -/
def scalarFrom (c : Curve) (b : Bytes) : Nat := beNat b % (c.n - 1) + 1

/-! ## Ed25519 (RFC 8032) -/

def q25519 : Nat := 2 ^ 255 - 19
def edL : Nat := 2 ^ 252 + 27742317777372353535851937790883648493
def edD : Nat := 37095705934669439343138083508754565189542113879843219016388785533085940283555

def edBase : Nat × Nat :=
  (15112221349535400772501151409588531511454012693041857206046113283949847762202,
   46316835694926478169428394003475163141307993866256225615783033603165251855960)

/-- A representation of an Edwards point with the given Z (R337). -/
def edLift (z : Nat) (q : Nat × Nat) : Proj := Proj.lift q25519 z (some q)

def edAdd (v w : Proj) : Proj :=
  let p : Int := q25519
  let a := v.z * w.z % p
  let b := a * a % p
  let c := v.x * w.x % p
  let d := v.y * w.y % p
  let e := edD * c % p * d % p
  { x := a * (b - e) % p * ((v.x + v.y) * (w.x + w.y) - c - d) % p, y := a * (b + e) % p * (d + c) % p,
    z := (b - e) * (b + e) % p }

def edMulBits (k : Nat) (v : Proj) : Nat → Proj → Proj
  | 0, acc => acc
  | n + 1, acc => edMulBits k v n (if k / 2 ^ n % 2 = 1 then edAdd (edAdd acc acc) v else edAdd acc acc)

/-- k·Q from a representation of Q. -/
def edMul (k : Nat) (v : Proj) : Proj := edMulBits k v (k.log2 + 1) (edLift 1 (0, 1))

def edEncode (v : Proj) : Bytes :=
  let q := (v.drop q25519).getD (0, 1)
  leBytes 32 (q.2 + q.1 % 2 * 2 ^ 255)

/-- Two representations of one point. -/
def edSame (v w : Proj) : Bool :=
  decide ((v.x * w.z - w.x * v.z) % q25519 = 0) && decide ((v.y * w.z - w.y * v.z) % q25519 = 0)

/-- A canonical point encoding, none where it does not decode. -/
def edDecode (b : Bytes) : Option (Nat × Nat) :=
  let p := q25519
  let v := leNat b
  let sign := v / 2 ^ 255 % 2
  let y := v % 2 ^ 255
  if p ≤ y then none
  else
    let u := subMod (y * y) 1 p
    let w := (edD * (y * y % p) + 1) % p
    let w3 := w * w % p * w % p
    let x0 := u * w3 % p * powMod (u * (w3 * w3 % p * w % p)) ((p - 5) / 8) p % p
    let vx := w * (x0 * x0 % p) % p
    let x1 := if vx = u then some x0
      else if vx = subMod 0 u p then some (x0 * powMod 2 ((p - 1) / 4) p % p)
      else none
    match x1 with
    | none => none
    | some x => if x = 0 ∧ sign = 1 then none else some (if x % 2 = sign then x else p - x, y)

def edScalar (h : Bytes) : Nat := leNat (h.take 32) % 2 ^ 254 / 8 * 8 + 2 ^ 254

def edPublic (z : Nat) (seed : Bytes) : Bytes := edEncode (edMul (edScalar (sha512 seed)) (edLift z edBase))

def edSign (z : Nat) (seed m : Bytes) : Bytes :=
  let h := sha512 seed
  let a := edScalar h
  let pub := edEncode (edMul a (edLift z edBase))
  let r := leNat (sha512 (h.drop 32 ++ m)) % edL
  let rb := edEncode (edMul r (edLift z edBase))
  let k := leNat (sha512 (rb ++ pub ++ m)) % edL
  rb ++ leBytes 32 ((r + k * a) % edL)

/-- The group equation of RFC 8032, with the cofactor. -/
def edVerify (z : Nat) (pub sig m : Bytes) : Bool :=
  match edDecode pub, edDecode (sig.take 32) with
  | some a, some r =>
    let s := leNat (sig.drop 32)
    let k := leNat (sha512 (sig.take 32 ++ pub ++ m)) % edL
    decide (s < edL)
      && edSame (edMul 8 (edMul s (edLift z edBase))) (edMul 8 (edAdd (edLift z r) (edMul k (edLift z a))))
  | _, _ => false

/-! ## X25519 (RFC 7748) -/

/-- The ladder over the low n bits of k: x2, z2, x3, z3 and the last bit. -/
def xLadder (k u : Nat) : Nat → Nat × Nat × Nat × Nat → Nat × Nat × Nat × Nat
  | 0, v => v
  | n + 1, (x2, z2, x3, z3) =>
    let p := q25519
    let bit := k / 2 ^ n % 2
    let (x2, z2, x3, z3) := if bit = 1 then (x3, z3, x2, z2) else (x2, z2, x3, z3)
    let a := x2 + z2
    let b := subMod x2 z2 p
    let aa := a * a % p
    let bb := b * b % p
    let e := subMod aa bb p
    let da := subMod x3 z3 p * a % p
    let cb := (x3 + z3) * b % p
    let s := (da + cb) * (da + cb) % p
    let d := subMod da cb p
    let x5 := aa * bb % p
    let z5 := e * (aa + 121665 * e) % p
    let z6 := u * (d * d % p) % p
    xLadder k u n (if bit = 1 then (s, z6, x5, z5) else (x5, z5, s, z6))

/-- The function of RFC 7748; the ladder starts from u in the representation Z = z (R337). -/
def x25519Fn (z : Nat) (scalar u : Bytes) : Bytes :=
  let k := leNat scalar % 2 ^ 254 / 8 * 8 + 2 ^ 254
  let x := leNat u % 2 ^ 255 % q25519
  let (a, b, _, _) := xLadder k x 255 (1, 0, x * z % q25519, z % q25519)
  leBytes 32 (a * powMod b (q25519 - 2) q25519 % q25519)

end Sys2Proof.Machine
end

