-- ==== Sys2Proof/Machine/Draw.lean ====
section
/-! DEFINITION. Draws from the DRBG and the nonce pool (R353, R355, R356). -/

namespace Sys2Proof.Machine

/-- ENT serves its consumers: READY and not BLOCKED (R352, R354). -/
def entDelivering (s : State) : Bool := s.ent.ready && !s.ent.blocked

/-- The next n bytes of the DRBG. -/
def drbg (s : State) (n : Nat) : Bytes := (List.range n).map fun i => Config.drbgByte (s.ent.drawn + i)

/-- n bytes are taken in generate requests of up to 2^16 bits (R353). -/
def takeDrbg (s : State) (n : Nat) : State :=
  { s with ent := { s.ent with drawn := s.ent.drawn + n, reqs := min (2 ^ 21 - 1) (s.ent.reqs + ceilDiv n 8192) } }

/-- Nonces that the pool can supply: while the DRBG serves, the pool is kept full (R355). -/
def poolLevel (s : State) : Nat := if entDelivering s then 65536 else s.nts.pool

/-- POOL_EMPTY follows the level; its event is raised when it is set (R281). -/
def notePool (s : State) : State :=
  let e := decide (poolLevel s = 0)
  if e = s.nts.poolEmpty then s
  else
    let s1 : State := { s with nts := { s.nts with poolEmpty := e } }
    if e then raiseN s1 252 0 [] else s1

/-- The pool is filled from the DRBG, in generate requests of 512 nonces (R353, R355). -/
def fillPool (s : State) : State :=
  notePool (takeDrbg { s with nts := { s.nts with pool := 65536 } } (16 * (65536 - s.nts.pool)))

/-- n nonces leave the pool; 512 of them make one generate request. -/
def takeNonces (s : State) (n : Nat) : State :=
  let reqs := if entDelivering s then (s.ent.drawn + 16 * n) / 8192 - s.ent.drawn / 8192 else 0
  notePool { s with
    ent := { s.ent with drawn := s.ent.drawn + 16 * n, reqs := min (2 ^ 21 - 1) (s.ent.reqs + reqs) },
    nts := { s.nts with pool := if entDelivering s then 65536 else s.nts.pool - n } }

/-- The k-th of the next nonces. -/
def nonce (s : State) (k : Nat) : Bytes := (List.range 16).map fun i => Config.drbgByte (s.ent.drawn + 16 * k + i)

end Sys2Proof.Machine
end

