-- ==== Sys2Proof/Machine/PkeOps.lean ====
section
/-! DEFINITION. The jobs of the public-key engine: descriptor fields, validation (R332 to R336), key material (R340),
the recipes' results, and what the fetch and the flush of a descriptor do (R338, R345, R346). -/

namespace Sys2Proof.Machine

/-! ## Descriptor fields (R332) -/

def pkeInLen (d : Bytes) : Nat := fld (descWord d 4) 0 16
def pkeOutLen (d : Bytes) : Nat := fld (descWord d 4) 16 16
def pkeOp (d : Bytes) : Nat := fld (descWord d 5) 0 8
def pkeSize (d : Bytes) : Nat := fld (descWord d 5) 8 3
def pkeUseSlot (d : Bytes) : Bool := flag (descWord d 5) 11
def pkeSlot (d : Bytes) : Nat := fld (descWord d 5) 12 8
def pkeTag (d : Bytes) : Word := descWord d 6

/-- The must-be-0 fields are 0. -/
def pkeClean (d : Bytes) : Bool := decide (fld (descWord d 5) 20 12 = 0) && decide (descWord d 7 = 0)

/-- The operand size in bytes. -/
def pkeBytes (size : Nat) : Nat := [32, 48, 256, 384, 512].getD size 0

/-- The opcodes that act on key slots or wrapped keys, which R342 orders as key commands. -/
def isKeyOp (op : Nat) : Bool := decide (0x18 ≤ op ∧ op ≤ 0x1B)

/-- The recipes that take random values (R337). -/
def drawsRandom (op : Nat) : Bool := decide (0x10 ≤ op ∧ op ≤ 0x15) || decide (op = 0x1A)

/-! ## Keys (R340) -/

/-- The plain length of a key type; 0 for none. -/
def plainLen (typ : Nat) : Nat := [0, 40, 56, 40, 40, 656, 976, 1296].getD typ 0

def keyType (plain : Bytes) : Nat := byteAt plain 0

/-- An 8-byte header is valid: a type and seven zero bytes. -/
def headerOk (h : Bytes) : Bool := decide (plainLen (keyType h) ≠ 0) && decide (leNat (sub h 1 7) = 0)

def slotKeyOf (s : State) (k : Nat) : Bytes := tget (fun _ => []) s.pke.slots k

def setSlotKey (s : State) (k : Nat) (b : Bytes) : State :=
  { s with pke := { s.pke with slots := tset (fun _ => []) s.pke.slots k b } }

def deviceKey (s : State) : Bytes := beBytes 32 s.fuse.deviceKey.toNat

/-! ## Validation (R336) -/

/-- The valid sizes of an opcode (R333). -/
def sizeOk (op size : Nat) : Bool :=
  if 0x01 ≤ op ∧ op ≤ 0x05 then decide (size ≤ 4)
  else if op = 0x10 ∨ op = 0x11 then decide (size ≤ 1)
  else if 0x12 ≤ op ∧ op ≤ 0x14 then decide (size = 0)
  else if op = 0x15 ∨ op = 0x16 then decide (2 ≤ size ∧ size ≤ 4)
  else isKeyOp op || decide (op = 0x20)

/-- USE_SLOT is as R334 requires. -/
def useSlotOk (op : Nat) (useSlot : Bool) : Bool :=
  if op = 0x19 then !useSlot else if isKeyOp op then useSlot else true

/-- The key type that an opcode and SIZE need; 0 where the opcode takes no private key (R336, R340). -/
def neededType (op size : Nat) : Nat :=
  if op = 0x10 then size + 1 else if op = 0x12 then 3 else if op = 0x14 then 4 else if op = 0x15 then size + 3 else 0

/-- Bytes of key material in the input with USE_SLOT = 0 (R333). -/
def inlineKey (op size : Nat) (useSlot : Bool) : Nat := if useSlot then 0 else plainLen (neededType op size) - 8

/-- The input length is as R333 requires. -/
def inLenOk (op size : Nat) (useSlot : Bool) (n : Nat) : Bool :=
  let b := pkeBytes size
  let k := inlineKey op size useSlot
  if op = 0x04 then decide (n = 2 * b)
  else if op ≤ 0x05 then decide (n = 3 * b)
  else if op = 0x10 then decide (n = b + k)
  else if op = 0x11 then decide (n = 5 * b)
  else if op = 0x12 then decide (k + 1 ≤ n ∧ n ≤ k + 16384)
  else if op = 0x13 then decide (97 ≤ n ∧ n ≤ 96 + 16384)
  else if op = 0x14 then decide (n = 32 + k)
  else if op = 0x15 then decide (n = b + k)
  else if op = 0x16 then decide (n = 2 * b + 8)
  else if op = 0x18 then [48, 64, 664, 984, 1304].contains n
  else if op = 0x19 then [40, 56, 656, 976, 1296].contains n
  else if op = 0x1A then decide (n = 8)
  else decide (n = 0)

/-- The least output length (R333); KEYGEN's depends on the type in its header. -/
def outLenMin (op size inLen : Nat) (input : Bytes) : Nat :=
  let b := pkeBytes size
  if op ≤ 0x05 then b
  else if op = 0x10 then 2 * b
  else if op = 0x12 then 64
  else if op = 0x14 then 32
  else if op = 0x15 ∨ op = 0x16 then b
  else if op = 0x19 then inLen + 8
  else if op = 0x1A then [0, 112, 160, 80, 80].getD (keyType input) 0
  else 0

/-- The output length is as R333 requires. -/
def outLenOk (op size inLen outLen : Nat) (input : Bytes) : Bool :=
  if op = 0x20 then decide (1 ≤ outLen ∧ outLen ≤ 4096) else decide (outLenMin op size inLen input ≤ outLen)

def pkeCurve (size : Nat) : Curve := if size = 0 then p256 else p384

/-- The private key of a job: slot key material, or the part of the input that R333 brackets. -/
def keyMaterial (d input slotKey : Bytes) : Bytes :=
  if pkeUseSlot d then slotKey.drop 8
  else
    let k := inlineKey (pkeOp d) (pkeSize d) false
    if pkeOp d = 0x12 ∨ pkeOp d = 0x14 then input.take k else input.drop (input.length - k)

/-- The operand of a job beside its key. -/
def operand (d input : Bytes) : Bytes :=
  let k := inlineKey (pkeOp d) (pkeSize d) (pkeUseSlot d)
  if pkeOp d = 0x12 ∨ pkeOp d = 0x14 then input.drop k else input.take (input.length - k)

/-- One of the big-endian fields of b bytes in the input (R334). -/
def field (x : Bytes) (b k : Nat) : Nat := beNat (sub x (b * k) b)

/-- The RSA key of key material (R340). -/
def rsaKeyOf (k : Bytes) : RsaKey :=
  let h := (k.length - 8) / 5
  { p := field k h 0, q := field k h 1, dp := field k h 2, dq := field k h 3, qinv := field k h 4,
    e := beNat (k.drop (5 * h)) }

/-- Checks 4 to 8 of R336 on the operands; 0 where they pass. -/
def checkOperands (d input slotKey : Bytes) : Nat :=
  let op := pkeOp d
  let b := pkeBytes (pkeSize d)
  if op ≤ 0x05 then
    let m := if op = 0x04 then field input b 1 else field input b 2
    if m % 2 = 0 ∨ m < 3 ∨ m ≤ field input b 0 then 3
    else if op ≤ 0x03 ∧ m ≤ field input b 1 then 3 else 0
  else if op = 0x10 then
    let x := beNat (keyMaterial d input slotKey)
    if x = 0 ∨ (pkeCurve (pkeSize d)).n ≤ x then 3 else 0
  else if op = 0x11 then
    let c := pkeCurve (pkeSize d)
    let r := field input b 3
    let t := field input b 4
    if onCurve c (field input b 1) (field input b 2) = false then 3
    else if r = 0 ∨ c.n ≤ r ∨ t = 0 ∨ c.n ≤ t then 5 else 0
  else if op = 0x13 then
    if (edDecode (sub input 0 32)).isNone ∨ (edDecode (sub input 32 32)).isNone ∨ edL ≤ leNat (sub input 64 32) then 5
    else 0
  else if op = 0x16 then
    let n := field input b 1
    let e := beNat (input.drop (2 * b))
    if n % 2 = 0 ∨ e % 2 = 0 ∨ e < 3 ∨ n ≤ field input b 0 then 3 else 0
  else if op = 0x15 then
    let k := rsaKeyOf (keyMaterial d input slotKey)
    if k.p * k.q ≤ beNat (operand d input) then 3 else 0
  else if op = 0x19 then
    if headerOk (input.take 8) = true ∧ plainLen (keyType input) = input.length then 0 else 3
  else if op = 0x1A then
    if headerOk input = true ∧ keyType input ≤ 4 then 0 else 3
  else 0

/-- The checks of R336 in their order; the RESULT code of the first that fails, 0 where none does. A failed read of
the input is DMA_ERR once the checks that need no input have passed. -/
def validate (wrapLocked : Bool) (d : Bytes) (input : Option Bytes) (slotKey : Bytes) : Nat :=
  let op := pkeOp d
  let size := pkeSize d
  let inp := input.getD []
  if sizeOk op size = false ∨ useSlotOk op (pkeUseSlot d) = false then 1
  else if inLenOk op size (pkeUseSlot d) (pkeInLen d) = false ∨ outLenOk op size (pkeInLen d) (pkeOutLen d) inp = false then 2
  else
    let need := neededType op size
    if pkeUseSlot d = true ∧ need ≠ 0 ∧ slotKey = [] then 6
    else if pkeUseSlot d = true ∧ need ≠ 0 ∧ keyType slotKey ≠ need then 7
    else if op = 0x19 ∧ wrapLocked = true then 9
    else if pkeInLen d ≠ 0 ∧ input = none then 0x0D
    else checkOperands d (subPad inp 0 (pkeInLen d)) slotKey

/-! ## The jobs -/

/-- RESULT of a job whose recipe has not run yet; never written to a completion. -/
def notRun : Nat := 0x100

def isInteractive (j : PkeJob) : Bool := decide (j.ring ≤ 135)

def isRunning (j : PkeJob) : Bool := match j.stage with | .running _ => true | _ => false

/-- A job that has started: running, or yielded (R342). -/
def hasStarted (j : PkeJob) : Bool := isRunning j || j.yielded

def runsOn (c : Nat) (j : PkeJob) : Bool := match j.stage with | .running k => decide (k = c) | _ => false

def jobOn (s : State) (c : Nat) : Option PkeJob := s.pke.jobs.find? (runsOn c)

def setJobs (s : State) (js : List PkeJob) : State := { s with pke := { s.pke with jobs := js } }

/-- One job is replaced, named by its ring and index. -/
def setJob (s : State) (j : PkeJob) : State :=
  setJobs s (s.pke.jobs.map fun x => if x.ring = j.ring ∧ x.idx = j.idx then j else x)

def dropJob (s : State) (j : PkeJob) : State :=
  setJobs s (s.pke.jobs.filter fun x => decide (x.ring ≠ j.ring ∨ x.idx ≠ j.idx))

/-- The earlier jobs of a job's ring. -/
def earlier (s : State) (j : PkeJob) : List PkeJob :=
  (s.pke.jobs.filter fun x => decide (x.ring = j.ring)).takeWhile fun x => decide (x.idx ≠ j.idx)

/-- The order rule of R342: the job may start. -/
def mayStart (s : State) (j : PkeJob) : Bool :=
  let es := earlier s j
  es.all (fun x => hasStarted x && !isKeyOp (pkeOp x.desc)) && (!isKeyOp (pkeOp j.desc) || es.isEmpty)

/-- The completion body of R335. -/
def pkeBody (result core outLen : Nat) (tag : Word) (time : Nat) : Bytes :=
  leBytes 2 0x0041 ++ [BitVec.ofNat 8 result, BitVec.ofNat 8 core] ++ leBytes 2 outLen ++ leBytes 2 0
  ++ leBytes 4 tag.toNat ++ leBytes 4 (min full time) ++ leBytes 8 0

/-- A body with the type and the tag alone, for a trailer other than OK. -/
def pkeBare (d : Bytes) : Bytes := pkeBody 0 0xFF 0 (pkeTag d) 0

/-- RANDOM completes NOT_READY (R356). -/
def randomNotReady (s : State) (r idx : Nat) (d : Bytes) : State :=
  complete (bump s 0x100014C 1) r idx stNotReady (pkeBare d)

/-- The ring number under which the baseband's own job stands: a reserved number (R303), so no host ring. -/
def gnssRing : Nat := 255

/-- The RESULT codes of the checks of R336 that leave a job without output. -/
def refusals : List Nat := [1, 2, 3, 6, 7, 9, 0x0D]

/-- The checks of a job against its slot. -/
def checkJob (s : State) (j : PkeJob) : Nat :=
  validate s.pke.wrapLock j.desc j.input (if pkeUseSlot j.desc then slotKeyOf s (pkeSlot j.desc) else [])

/-- A job stands at its draw: no key command of its ring comes first, and its checks pass (R336, R338, R342). -/
def atDraw (s : State) (j : PkeJob) : Bool :=
  decide (j.stage = .draw) && !((earlier s j).any fun x => isKeyOp (pkeOp x.desc)) && decide (checkJob s j = 0)

/-- While ENT does not deliver, each job at its draw waits: counted once, the event at most once per second (R338,
R361). -/
def noteDrawWaits (s : State) : State :=
  if entDelivering s then s
  else (s.pke.jobs.filter fun j => atDraw s j && !j.waited).foldl
    (fun t j => raiseLim (bump (setJob t { j with waited := true }) 0xF00150 1) 307 0 0 []) s

/-- A job joins the queue (R338). -/
def queueJob (s : State) (r idx : Nat) (d : Bytes) (input : Option Bytes) : State :=
  noteDrawWaits (setJobs s (s.pke.jobs ++ [
    { ring := r, idx := idx, desc := d, input := input,
      stage := if drawsRandom (pkeOp d) then .draw else .ready, yielded := false, abort := false, slotKey := [],
      rand := 0, core := 0xFF, time := 0, result := notRun, output := [], faulty := false, waited := false }]))

/-- A PKE descriptor has been fetched with its input (R335, R338, R356). -/
def pkeFetch (s : State) (r idx : Nat) (d : Bytes) (input : Option Bytes) : State :=
  if pkeClean d = false then complete s r idx stDescErr (pkeBare d)
  else if pkeOp d = 0x20 ∧ s.ent.ready = false then randomNotReady s r idx d
  else queueJob s r idx d input

/-- A job is aborted: cleared, no output, ABORTED; its core, 0xFF where it never ran, and the core time it has used
(R335, R345). -/
def abortJob (s : State) (j : PkeJob) : State :=
  complete (bump (dropJob s j) 0xF00148 1) j.ring j.idx stOk (pkeBody 0x0B j.core 0 (pkeTag j.desc) j.time)

/-- A job ends with its result: a completion, or the verdict that the baseband waits for (R149, R335). -/
def endJob (s : State) (j : PkeJob) (result : Nat) (body : Bytes) : State :=
  if j.ring = gnssRing then { s with gn := { s.gn with krootResult := some result } }
  else complete s j.ring j.idx stOk body

/-- What a fault writes over a job's output: zeros, and nothing for a refused job, which has no output (R336, R339). -/
def faultOutput (s : State) (j : PkeJob) : Bytes :=
  if refusals.contains j.result ∨ (j.result = notRun ∧ checkJob s j ≠ 0) then []
  else List.replicate (outLenMin (pkeOp j.desc) (pkeSize j.desc) (pkeInLen j.desc) (subPad (j.input.getD []) 0 (pkeInLen j.desc))) 0

/-- PKE_ABORT_DONE: the last flagged job of the ring has ended (R345). -/
def abortDone (s : State) (r : Nat) : State :=
  if s.pke.jobs.any fun x => decide (x.ring = r) && x.abort then s else raiseN s 308 r [r]

/-- The jobs of a stopping ring that have not started complete FLUSHED (R323, R346). -/
def flushJobs (s : State) (r : Nat) : State :=
  (s.pke.jobs.filter fun x => decide (x.ring = r) && !hasStarted x).foldl
    (fun t x => complete (dropJob t x) r x.idx stFlushed (pkeBare x.desc)) s

/-- The jobs of a ring are abandoned without completions (R321, R324). -/
def abandonJobs (s : State) (r : Nat) : State := setJobs s (s.pke.jobs.filter fun x => decide (x.ring ≠ r))

end Sys2Proof.Machine
end

