-- ==== Sys2Proof/Machine/Rings.lean ====
section
/-! DEFINITION. The host interface (R299 to R331): doorbells, descriptor fetch, ring enable, stop and errors, MSI-X,
function-level reset and the PCIe link. -/

namespace Sys2Proof.Machine

/-! ## Ring kinds (R303) -/

def isRxRing (r : Nat) : Bool := decide (r ≤ 63)
def isTxRing (r : Nat) : Bool := decide (64 ≤ r ∧ r ≤ 127)
def isPkeRing (r : Nat) : Bool := decide (128 ≤ r ∧ r ≤ 143)
def isMintRing (r : Nat) : Bool := decide (144 ≤ r ∧ r ≤ 151)
def isLoamRing (r : Nat) : Bool := decide (152 ≤ r ∧ r ≤ 155)
def isEventRing (r : Nat) : Bool := decide (160 ≤ r ∧ r ≤ 167)
def isMsgRing (r : Nat) : Bool := decide (176 ≤ r ∧ r ≤ 191)

/-- The completion type of a ring's kind, for a completion without anything else to say. -/
def ringType (r : Nat) : Nat :=
  if isRxRing r then 0x31 else if isTxRing r then 0x32 else if isPkeRing r then 0x41 else if isMintRing r then 0x21
  else if isLoamRing r then 0x51 else 0x61

def typeBody (r : Nat) : Bytes := leBytes 2 (ringType r)

/-! ## Doorbells (R305, R306) -/

/-- HIF_PROD_WRITE. -/
def execHifProdWrite (r : Fin 256) (value : Word) (s : State) : Host.Outcome State Fault Refusal :=
  .next <|
    if fld value 16 16 ≠ 0 then accessError s
    else if isRecordRing r then s
    else
      let g := ringOf s r
      let p : BitVec 16 := BitVec.ofNat 16 value.toNat
      if g.st ≠ .running then s
      else if ringSize s r - 1 < (p - g.q).toNat then ringError s r 2
      else setRing s r { g with p := p }

/-- Space has come free in a ring: waiting completions, then pending event counts (R308, R483). -/
def ringSpace (s : State) (r : Nat) : State :=
  let s1 := flushCompl (ringOf s r).compl.length s r
  if isEventRing r then flushPend (pendingOn s1 r).length s1 r else s1

/-- The ring is armed; a completion beyond C makes its vector pending at once (R325). -/
def armRing (s : State) (r : Nat) : State :=
  let g := ringOf s r
  let s1 := setRing s r { g with armed := true }
  if g.q ≠ g.c then vecRaise s1 (ringVec s r) 0 else s1

/-- HIF_CONS_WRITE: a vector all of whose armed rings have been read is pending no longer. -/
def execHifConsWrite (r : Fin 256) (value : Word) (s : State) : Host.Outcome State Fault Refusal :=
  .next <|
    if fld value 16 15 ≠ 0 then accessError s
    else
      let g := ringOf s r
      let c : BitVec 16 := BitVec.ofNat 16 value.toNat
      if g.st ≠ .running ∧ g.st ≠ .stopping then s
      else if (g.q - g.c).toNat < (c - g.c).toNat then ringError s r 3
      else
        let s1 := setRing s r { g with c := c }
        ringSpace (vecSettle (if flag value 31 then armRing s1 r else s1) (ringVec s r)) r

/-! ## Descriptor fetch (R307, R310 to R314) -/

/-- A TX frame after tag insertion (R170). -/
def txFrame (d data : Bytes) : Bytes :=
  let w2 := descWord d 2
  let f := subPad data 0 (fld w2 0 16)
  let ctag := beBytes 2 0x8100 ++ beBytes 2 (fld (descWord d 3) 0 16)
  let stag := beBytes 2 0x88A8 ++ beBytes 2 (fld (descWord d 3) 16 16)
  let t := if fld w2 20 2 = 0 then [] else if fld w2 20 2 = 1 then ctag else stag ++ ctag
  f.take 12 ++ t ++ f.drop 12

/-- Bytes that tag insertion adds. -/
def txTagLen (d : Bytes) : Nat := [0, 4, 8, 0].getD (fld (descWord d 2) 20 2) 0

/-- The launch instant in 1/16 ns: the seconds extended to the nearest of the timescale (R174). -/
def launchT16 (s : State) (d : Bytes) : Int :=
  let lsec := (descWord d 4).toNat
  let sec : Int := (nowSec s : Int) + signed 32 ((lsec + 2 ^ 32 - nowSec s % 2 ^ 32) % 2 ^ 32)
  sec * (16 * 10 ^ 9) + (descWord d 5).toNat * 16

/-- The launch rule fails (R174). -/
def launchBad (s : State) (d : Bytes) : Bool :=
  decide (10 ^ 9 ≤ (descWord d 5).toNat) || decide ((nowT16 s : Int) + 32 * 10 ^ 9 < launchT16 s d)

def txWords (d : Bytes) : List Word := (List.range 4).map (descWord d)

/-- A descriptor's own must-be-0 fields, TAG_INS and PORT (R310, R312). -/
def txDescBad (d : Bytes) : Bool :=
  let w2 := descWord d 2
  decide (fld w2 29 3 ≠ 0) || decide (fld w2 20 2 = 3) || decide (16 < fld w2 24 5) || decide (leNat (sub d 24 8) ≠ 0)

/-- The port takes host frames: enabled, and up or within LINK_HOLD (R184, R185). -/
def txTakes (s : State) (j : Nat) : Bool :=
  if j = 16 then mgUp s else portEnabled s j && ((portOf s j).up || (portOf s j).holding)

/-- A TX descriptor is checked in the order of R312, and its frame enters its queue. -/
def txFetch (s : State) (r idx : Nat) (d : Bytes) (data : Option Bytes) : State :=
  let w2 := descWord d 2
  let j := fld w2 24 5
  let len := fld w2 0 16 + txTagLen d
  let done := fun (t : State) (status : Nat) => complete t r idx status (txBody (txWords d) none 0)
  if txDescBad d then done s stDescErr
  else if j < 16 ∧ portExists s j = false then done s stPortAbsent
  else
    let maxLen := if j = 16 then (rd s 0x900004).toNat else (rd s (lpA j + 4)).toNat
    if fld w2 0 16 < 14 then done s stLenErr
    else if maxLen < len + 4 then done (bump s (cntBase j + 0x2C) 1) stLenErr
    else if flag w2 19 = true ∧ (j = 16 ∨ launchBad s d = true) then done (bump s (cntBase j + 0x40) 1) stLaunchBad
    else if txTakes s j = false then done s stLinkDown
    else
      match data with
      | none => done (dmaError s r) stDmaErr
      | some x =>
        let f := txFrame d x
        let i : TxItem :=
          { cls := fld w2 16 3, frame := if flag w2 23 then fillChecksums f else f,
            src := .host r idx (flag w2 22) (txWords d),
            launch := if flag w2 19 then some (launchT16 s d).toNat else none,
            tol := 0, ins := .none, req := 0, stamp := 0 }
        if j = 16 then enqueueMg s i else enqueue s j i

/-- An RX descriptor is malformed (R314). -/
def rxDescBad (d : Bytes) : Bool :=
  let blen := (descWord d 2).toNat
  decide (blen < 64) || decide (16384 < blen) || decide (leNat (sub d 12 20) ≠ 0)

/-- A commit that a command of the ring requested. -/
def commitOf (r : Nat) (c : Commit) : Bool :=
  match c.by_ with
  | .host ring _ _ _ => decide (ring = r)
  | _ => false

/-- Descriptors fetched and not yet in use (R307). -/
def notInUse (s : State) (r : Nat) : Nat :=
  (ringOf s r).fetched.length + (s.loam.queue.filter (commitOf r)).length + (s.pke.jobs.filter fun j => decide (j.ring = r) && !hasStarted j).length

/-- Another descriptor may be fetched (R307, R308). -/
def mayFetch (s : State) (r : Nat) : Bool :=
  let g := ringOf s r
  decide (g.st = .running) && decide (g.f ≠ g.p) && decide (notInUse s r < 8) &&
  (isRxRing r || decide (1 ≤ ringFree s r)) && !isRecordRing r

/-- HIF_DESC_FETCH: the descriptor at F, with the bytes of the buffer it names where its kind reads one. A Loam commit is
requested here (R375). -/
def execHifDescFetch (r : Fin 256) (desc : Bytes) (data : Option Bytes) (s : State) :
    Host.Outcome State Fault Refusal :=
  .next <|
    if mayFetch s r then
      let g := ringOf s r
      let d := subPad desc 0 32
      let idx := g.f.toNat
      let s0 := hostRead s r idx (addrPair s (ringA r) + 32 * (idx % ringSize s r)) 32
      let s2 := match data with
        | some x => if isTxRing r || isPkeRing r then hostRead s0 r idx (descAddr d 0) x.length else s0
        | none => s0
      let s1 := setRing s2 r { ringOf s2 r with f := g.f + 1 }
      if isTxRing r then txFetch s1 r idx d data
      else if isPkeRing r then pkeFetch s1 r idx d data
      else if isRxRing r = true ∧ rxDescBad d = true then complete s1 r idx stDescErr (typeBody r)
      else
        let keep := fun (t : State) (token : Bool) =>
          setRing t r { ringOf t r with fetched := (ringOf t r).fetched ++
            [{ idx := idx, desc := d, data := data, tick := s.tb.ticks, token := token }] }
        match (if isLoamRing r then commitClass s1 d else none) with
        | none => keep s1 false
        | some cls =>
          match fetchToken s1 cls with
          | (t, none) => keep t true
          | (t, some .throttled) => complete t r idx stThrottled (loamBare (loamTag d))
          | (t, some .noSpace) => complete t r idx stNoSpace (loamBare (loamTag d))
          | (t, some .powerFail) => complete t r idx stOk (loamBody 3 0 0 (loamTag d) 0)
    else s

/-! ## Ring states (R321 to R323) -/

/-- HIF_RING_ERROR's condition ends when no ring is in ERROR (R485). -/
def ringErrorEnd (s : State) : State :=
  if s.hif.rings.any fun e => decide (e.2.st = .error) then s else alarmClear s 272

/-- An enable is refused (R322). -/
def enableBad (s : State) (r : Nat) : Bool :=
  let size := rf s (ringA r + 0x10) 1 5
  decide (192 ≤ r) || decide (size < 6) || decide (16 < size) || decide (rf s (ringA r + 0x08) 0 12 ≠ 0)
  || (!isRecordRing r && decide (rf s (ringA r) 0 12 ≠ 0))

/-- HIF_RING_ENABLE: a write of HIF_RINGr_CFG with EN = 1. -/
def execHifRingEnable (r : Fin 256) (cfg : Word) (s : State) : Host.Outcome State Fault Refusal :=
  .next <|
    if (ringOf s r).st ≠ .disabled then s
    else
      let s1 := storeMask s (ringA r + 0x10) 0xFFE cfg
      if enableBad s1 r then
        ringErrorEnd (raiseN (setRing s1 r { ringOf s1 r with cause := 1 }) 272 r [r, 1])
      else
        let s2 := setRing s1 r { Ring.cold with st := .running, armed := true }
        vecSettle (vecSettle { s2 with brim := { s2.brim with txq := s2.brim.txq.filter fun m => decide (m.ring ≠ r.val) } }
          (ringVec s r)) (ringVec s2 r)

/-- The frames of a ring in the transmit queues. -/
def fromRing (r : Nat) (i : TxItem) : Bool :=
  match i.src with
  | .host ring _ _ _ => decide (ring = r)
  | _ => false

/-- The queued frames of a ring leave their queues and complete FLUSHED (R323). -/
def flushFrames (s : State) (r : Nat) : State :=
  let its := s.lp.flatMap (fun e => e.2.queue.filter (fromRing r)) ++ s.mg.queue.filter (fromRing r)
  let keep := fun (q : List TxItem) => q.filter fun i => !fromRing r i
  its.foldl (fun t i => finishItem t i stFlushed none 0)
    { s with lp := s.lp.map (fun e => (e.1, { e.2 with queue := keep e.2.queue })),
             mg := { s.mg with queue := keep s.mg.queue } }

/-- The queued commits of a ring have not started and complete FLUSHED (R323, R374). -/
def flushCommits (s : State) (r : Nat) : State :=
  (s.loam.queue.filter (commitOf r)).foldl
    (fun t c => match c.by_ with
      | .host _ idx tag _ => complete t r idx stFlushed (loamBare tag)
      | _ => t)
    { s with loam := { s.loam with queue := s.loam.queue.filter fun c => !commitOf r c } }

/-- The fetched descriptors that nothing uses complete FLUSHED (R323). -/
def flushFetched (s : State) (r : Nat) : State :=
  (ringOf s r).fetched.foldl (fun t x => complete t r x.idx stFlushed (typeBody r)) s

/-- The posted descriptors that were never fetched complete FLUSHED (R323). -/
def flushPosted (s : State) (r : Nat) : State :=
  let g := ringOf s r
  (List.range (g.p - g.f).toNat).foldl
    (fun t k => complete t r (g.f + BitVec.ofNat 16 k).toNat stFlushed (typeBody r)) (setRing s r { g with f := g.p })

/-- What still names a ring that is being abandoned names no ring any more: its frames in transmission and its commit
in progress end without a completion. -/
def orphan (s : State) (r : Nat) : State :=
  let src := fun (i : TxItem) => match i.src with
    | .host ring idx st ws => if ring = r then { i with src := .host 256 idx st ws } else i
    | _ => i
  let by_ := fun (c : Commit) => match c.by_ with
    | .host ring idx tag op => if ring = r then { c with by_ := .host 256 idx tag op } else c
    | _ => c
  { s with
    lp := s.lp.map (fun e => (e.1, { e.2 with sending := e.2.sending.map src, queue := e.2.queue.filter fun i => !fromRing r i })),
    mg := { s.mg with sending := s.mg.sending.map src, queue := s.mg.queue.filter fun i => !fromRing r i },
    loam := { s.loam with queue := s.loam.queue.map by_,
                          cur := s.loam.cur.map fun c => { c with req := by_ c.req } } }

/-- The ring's jobs, frames and commits are abandoned without completions (R321, R324). -/
def abandonRing (s : State) (r : Nat) : State := orphan (abandonJobs s r) r

/-- HIF_RING_DISABLE: a write of HIF_RINGr_CFG with EN = 0 (R321, R323). -/
def execHifRingDisable (r : Fin 256) (s : State) : Host.Outcome State Fault Refusal :=
  .next <|
    match (ringOf s r).st with
    | .running =>
      let s1 := setRing (dropPend s r) r { ringOf (dropPend s r) r with st := .stopping }
      flushPosted (flushFetched (flushCommits (flushJobs (flushFrames s1 r) r) r) r) r
    | .error =>
      let s1 := abandonRing s r
      ringErrorEnd (setRing s1 r { ringOf s1 r with st := .disabled })
    | _ => s

/-- HIF_RING_STOPPED: every posted descriptor has its completion written; a record ring has none (R323). -/
def execHifRingStopped (r : Fin 256) (s : State) : Host.Outcome State Fault Refusal :=
  .next <|
    let g := ringOf s r
    if g.st = .stopping ∧ (isRecordRing r = true ∨ g.q = g.p) then
      raiseN (setRing s r { g with st := .disabled }) 273 r [r]
    else s

/-- HIF_DMA_FAIL: a descriptor fetch or a completion write fails (R321, R331). -/
def execHifDmaFail (r : Fin 256) (onFetch : Bool) (s : State) : Host.Outcome State Fault Refusal :=
  .next <|
    match (ringOf s r).st with
    | .running | .stopping => ringError (dmaError s r) r (if onFetch then 4 else 5)
    | _ => s

/-! ## MSI-X (R326) -/

/-- MSIX_TIMER: the vector fires if an armed ring still holds a completion. -/
def execMsixTimer (v : Fin 64) (s : State) : Host.Outcome State Fault Refusal :=
  .next <|
    if (vecOf s v).pending then
      if vecDue s v then vecFire s v else vecSettle s v
    else s

/-- MSIX_UNMASK: the vector's mask bit is cleared; a set pending bit fires. -/
def execMsixUnmask (v : Fin 64) (s : State) : Host.Outcome State Fault Refusal :=
  .next <|
    let s1 := wrf s (0xE0800C + 0x10 * v.val) 0 1 0
    if (vecOf s1 v).pba then vecFire s1 v else s1

/-! ## Resets of the function and the link (R324) -/

/-- The MSI-X table returns to its reset state. -/
def clearMsix (s : State) : State :=
  { s with regs := s.regs.filter (fun e => decide (e.1 < 0xE08000 ∨ 0xE08400 ≤ e.1)),
           hif := { s.hif with vecs := [], funcMask := false } }

/-- Every ring is DISABLED at once; its pending event counts are discarded. -/
def resetRings (s : State) : State :=
  let live := s.hif.rings.map (·.1)
  let s1 := live.foldl (fun t r => dropPend (abandonRing t r) r) s
  { s1 with hif := { s1.hif with rings := [] } }

/-- HIF_FLR. -/
def execHifFlr (s : State) : Host.Outcome State Fault Refusal :=
  .next (raiseN (orReg (ringErrorEnd (clearMsix (resetRings s))) 0x10 0x200) 278 0 [])

/-- HIF_PCIE_LINK_DOWN: every RUNNING or STOPPING ring enters ERROR. -/
def execHifPcieLinkDown (s : State) : Host.Outcome State Fault Refusal :=
  .next <|
    let live := (s.hif.rings.filter fun e => decide (e.2.st = .running ∨ e.2.st = .stopping)).map (·.1)
    let s1 := live.foldl (fun t r => ringError t r 6) s
    raiseN { s1 with hif := { s1.hif with linkUp := false, speed := 0, width := 0 } } 277 0 []

/-- HIF_STATUS's width. -/
def widthNum : PcieWidth → Nat
  | .x1 => 1
  | .x2 => 2
  | .x4 => 4
  | .x8 => 8

/-- The vectors whose pending bit waits, unmasked by the Function Mask alone, fire (R326). -/
def fireWaiting (s : State) : State :=
  (s.hif.vecs.filter fun e => e.2.pba && !vecMasked s e.1).foldl (fun t e => vecFire t e.1) s

/-- HIF_PCIE_LINK: the link comes up or changes speed or width (R299, R331), with what the host has set: at most 512 bytes
of payload and 4,096 of a read are honoured (R300); a Function Mask that is cleared lets waiting vectors fire (R326). -/
def execHifPcieLink (speed : Fin 5) (width : PcieWidth) (ctl : PcieCtl) (s : State) : Host.Outcome State Fault Refusal :=
  .next (raiseN (fireWaiting { s with hif := { s.hif with
    linkUp := true, speed := speed.val + 1, width := widthNum width, mps := min 512 (128 * 2 ^ ctl.mps.val),
    mrrs := min 4096 (128 * 2 ^ ctl.mrrs.val), tag10 := ctl.tag10, funcMask := ctl.funcMask } }) 277 0 [])

/-! ## The configuration space and BAR2 (R299, R301, R302, R305, R327) -/

/-- A dword of the configuration space without its free bits: the mask of the bits that R299 and R301 fix, and their
values. Device ID; Class Code and Revision ID; one function with a header of type 0; BAR0, BAR2 and BAR4, each 64-bit and
non-prefetchable and of its size; no interrupt pin; AER as the first extended capability (its place and version are DESIGN
CHOICE, log entry 98). -/
def configFixed (i : Nat) : Word × Word :=
  if i = 0 then (0xFFFF0000, 0x48800000)
  else if i = 2 then (full, 0x088000B0)
  else if i = 3 then (0x00FF0000, 0)
  else if i = 4 then (0x01FFFFFF, 4)
  else if i = 6 then (0x003FFFFF, 4)
  else if i = 8 then (0x0000FFFF, 4)
  else if i = 15 then (0x0000FF00, 0)
  else if i = 64 then (0x000FFFFF, 0x00020001)
  else (0, 0)

/-- A dword of the function's configuration space. -/
def configWord (i : Nat) : Word :=
  (Config.pcieConfig i &&& ~~~(configFixed i).1) ||| (configFixed i).2

/-- The capability IDs of the function: PCI Express, power management and MSI-X, and of the extended ones AER; no MSI, no
SR-IOV, no ATS (R299). -/
def capabilities : List Nat := [0x10, 0x01, 0x11]
def extendedCapabilities : List Nat := [0x0001]

/-- A write of a BAR2 word: the doorbells; anywhere else it is ignored, and no error is counted (R302). -/
def bar2Write (s : State) (o : Nat) (v : Word) : Host.Outcome State Fault Refusal :=
  if o % 4 ≠ 0 then .next (accessError s)
  else if o < 0x100000 then
    let r : Fin 256 := Fin.ofNat 256 (o / 0x1000)
    if o % 0x1000 = 0 then execHifProdWrite r v s else if o % 0x1000 = 4 then execHifConsWrite r v s else .next s
  else .next s

end Sys2Proof.Machine
end

