-- ==== Sys2Proof/Machine/Board.lean ====
section
/-! DEFINITION. The board control ports (R432 to R446): the board controller's address space over the SPI and I2C
targets, the exchange RAM and its collisions, the mailboxes, the I2C controllers, DISC. -/

namespace Sys2Proof.Machine

def setBcp (s : State) (b : Bcp) : State := { s with bcp := b }

/-! ## Exchange RAM (R440, R441) -/

def xbyte (s : State) (a : Nat) : Byte := tget (fun _ => 0) s.bcp.xram (a % 65536)

def setXbyte (s : State) (a : Nat) (b : Byte) : State :=
  setBcp s { s.bcp with xram := tset (fun _ => 0) s.bcp.xram (a % 65536) b }

def xread (s : State) (a n : Nat) : Bytes := (List.range n).map fun i => xbyte s (a + i)

def xwrite (s : State) (a : Nat) (bs : Bytes) : State :=
  (bs.zipIdx a).foldl (fun t e => setXbyte t e.2 e.1) s

/-- Two RAM cycles within 8 CTRL cycles of 600 MHz: at most 6 TBCLK ticks apart. -/
def near (s : State) (x : XAcc) : Bool := decide (s.tb.ticks ≤ x.tick + 6)

/-- The data that an earlier read returned are undefined (R441). -/
def undefRead (s : State) (x : XAcc) : State :=
  match x.data with
  | none => s
  | some n =>
    let i := s.out.length - 1 - n
    match s.out[i]? with
    | some (.readData path _) => { s with out := s.out.set i (.readData path (Config.xramUndefined x.tick)) }
    | _ => s

/-- One side is warned of a collision: the board controller by COLLIDE and BCP_BUSY, PCIe by COLLIDE (R441). -/
def xwarn (s : State) (pcie : Bool) : State :=
  let s1 := if pcie then orReg (bump s 0x1400220 1) 0x1400004 1
    else setBcp (bump s 0x140021C 1) { (bump s 0x140021C 1).bcp with collide := true, busy := true }
  raiseLim s1 361 0 0 [if pcie then 1 else 0]

/-- The accesses of the other side that an access of one side to word w collides with. -/
def xhits (s : State) (pcie : Bool) (w : Nat) (write : Bool) : List XAcc :=
  (if pcie then s.bcp.lastBc else s.bcp.lastPcie).filter fun x => decide (x.word = w) && near s x && (x.write || write)

/-- An access of one side to word w meets the other side's accesses (R441). The later side is warned; of one tick, the
board controller counts as the later (log entry 125). A colliding read returns undefined data, also one that came first.
The flags: this access is such a read; this write is the earlier one, and its bytes do not stand. -/
def xaccess (s : State) (pcie : Bool) (w : Nat) (write : Bool) : State × Bool × Bool :=
  let hits := xhits s pcie w write
  let same := hits.filter fun x => decide (x.tick = s.tb.ticks)
  let s1 := if write then hits.foldl undefRead s else s
  let s2 := if (if pcie then !same.isEmpty else !hits.isEmpty) then xwarn s1 false else s1
  let s3 := if pcie && hits.any (fun x => decide (x.tick ≠ s.tb.ticks)) then xwarn s2 true else s2
  (s3, !write && !hits.isEmpty, pcie && write && same.any (·.write))

/-- An access is kept for 8 CTRL cycles; `data` is the place of a read's data. -/
def xnote (s : State) (pcie : Bool) (w : Nat) (data : Option Nat) : State :=
  let x : XAcc := { word := w, write := data.isNone, tick := s.tb.ticks, data := data }
  setBcp s (if pcie then { s.bcp with lastPcie := x :: s.bcp.lastPcie.filter (near s) }
    else { s.bcp with lastBc := x :: s.bcp.lastBc.filter (near s) })

/-- An accepted BAR4 access to the bytes from a on. -/
def xramDo (s : State) (a width : Nat) (write : Option Word) : State :=
  let words := (List.range width).foldl (fun l i => if l.contains ((a + i) % 65536 / 4) then l else l ++ [(a + i) % 65536 / 4]) []
  let (s1, undef, lost) := words.foldl (fun (acc : State × Bool × List Nat) w =>
    let (t, u, l) := xaccess acc.1 true w write.isSome
    (t, acc.2.1 || u, if l then w :: acc.2.2 else acc.2.2)) (s, false, [])
  match write with
  | some v =>
    let put := ((leBytes width v.toNat).zipIdx a).filter fun e => !lost.contains (e.2 % 65536 / 4)
    words.foldl (fun t w => xnote t true w none) (put.foldl (fun t e => setXbyte t e.2 e.1) s1)
  | none =>
    let v := if undef then Config.xramUndefined s.tb.ticks else BitVec.ofNat 32 (leNat (xread s1 a width))
    words.foldl (fun t w => xnote t true w (some s1.out.length)) (emit s1 (.readData 4 v))

/-- XRAM_ACCESS: one BAR4 access, a write with its value; the data of a read goes to the reader. -/
def execXramAccess (offset width : Nat) (write : Option Word) (s : State) : Host.Outcome State Fault Refusal :=
  if 65536 ≤ offset then .fault .bar4Outside
  else
    let k := rf s 0x1400000 0 2
    let aligned := decide (width = 4 ∧ offset % 4 = 0)
    let small := decide ((width = 1 ∨ width = 2) ∧ offset % 4 + width ≤ 4)
    if aligned = false ∧ (small = false ∨ k ≠ 0) then
      .next (match write with
        | some _ => accessError s
        | none => emit (accessError s) (.readData 4 0))
    else .next (xramDo s ((offset + if aligned then k else 0) % 65536) width write)

/-! ## The board controller's words (R432, R433) -/

/-- The SPI_STATUS word. -/
def spiStatus (s : State) : Word :=
  BitVec.ofNat 32 (boolBit s.bcp.collide 0 + boolBit s.bcp.inFull 1 + boolBit s.bcp.outFull 2 + boolBit s.tb.timeValid 3
    + boolBit (alarmLow s) 4 + boolBit s.hif.linkUp 5)

/-- The next word address: it wraps inside the exchange RAM only. -/
def nextAddr (a : Nat) : Nat := if a = 0xFFFC then 0 else a + 4

/-- One complete word written by the board controller; `bad` counts an address that is not listed. -/
def bcWrite (s : State) (bad a : Nat) (v : Word) : State :=
  if a < 65536 then xnote (xwrite (xaccess s false (a / 4) true).1 a (leBytes 4 v.toNat)) false (a / 4) none
  else if a = 0x1000C then
    if s.bcp.outFull then bump s 0x1400218 1
    else raiseN (setBcp s { s.bcp with mboxOut := v, outFull := true }) 362 0 []
  else if a = 0x10000 ∨ a = 0x10004 ∨ a = 0x10008 then s
  else bump s bad 1

/-- One complete word read by the board controller on a path, with its side effects. -/
def bcRead (s : State) (path bad a : Nat) : State :=
  if a < 65536 then
    let (s1, undef, _) := xaccess s false (a / 4) false
    let v := if undef then Config.xramUndefined s.tb.ticks else BitVec.ofNat 32 (leNat (xread s1 a 4))
    xnote (emit s1 (.readData path v)) false (a / 4) (some s1.out.length)
  else if a = 0x10000 then emit s (.readData path 0x4D5A4880)
  else if a = 0x10004 then emit (setBcp s { s.bcp with collide := false, busy := false }) (.readData path (spiStatus s))
  else if a = 0x10008 then emit (setBcp s { s.bcp with inFull := false }) (.readData path s.bcp.mboxIn)
  else if a = 0x1000C then emit s (.readData path 0)
  else emit (bump s bad 1) (.readData path 0)

def bcWrites (bad : Nat) : List Word → Nat → State → State
  | [], _, s => s
  | v :: vs, a, s => bcWrites bad vs (nextAddr a) (bcWrite s bad a v)

def bcReads (path bad : Nat) : Nat → Nat → State → State
  | 0, _, s => s
  | n + 1, a, s => bcReads path bad n (nextAddr a) (bcRead s path bad a)

/-! ## SPI target (R435, R436) -/

/-- The commands of the SPI target. -/
inductive SpiOp where
  | write | read
  deriving DecidableEq, Repr

/-- The instruction byte: the opcode in bits 7:4, and one less than the word count in bits 3:0 (R435). -/
def spiInstr (b : Byte) : Option (SpiOp × Nat) :=
  let n := b.toNat % 16 + 1
  if b.toNat / 16 = 2 then some (.write, n) else if b.toNat / 16 = 3 then some (.read, n) else none

/-- A transaction with an unknown opcode is discarded and counted; one with a known opcode does `f` with its command and
word count (R435). -/
def spiTransaction (instr : Byte) (s : State) (f : SpiOp → Nat → State) : State :=
  match spiInstr instr with
  | none => bump s 0x1400210 1
  | some (op, n) => f op n

/-- An irregular transaction: its counter, and BCP_SPI_ERR. -/
def spiErr (s : State) (ctr : Nat) : State := raiseLim (bump s ctr 1) 360 0 0 []

/-- SPI_WRITE: the complete words of the transaction; the READ opcode is no SPI_WRITE. -/
def execSpiWrite (instr : Byte) (addr : BitVec 24) (words : List Word) (fin : BusEnd) (s : State) :
    Host.Outcome State Fault Refusal :=
  .next <| spiTransaction instr s fun op n =>
    if op = .read then s
    else if addr.toNat % 4 ≠ 0 then bump s 0x1400214 1
    else
      let s1 := bcWrites 0x1400214 (words.take n) addr.toNat s
      match fin with
      | .partialWord => spiErr s1 0x1400204
      | .extraClocks _ => spiErr s1 0x140020C
      | _ => s1

/-- SPI_READ: after 8 wait clocks, `shifted` words are shifted out in full; clocks after the last word return 0xFF bytes.
The WRITE opcode is no SPI_READ. -/
def execSpiRead (instr : Byte) (addr : BitVec 24) (shifted : Nat) (fin : BusEnd) (s : State) :
    Host.Outcome State Fault Refusal :=
  .next <| spiTransaction instr s fun op n =>
    if op = .write then s
    else if addr.toNat % 4 ≠ 0 then bump s 0x1400214 1
    else if fin = .waitClocks then spiErr s 0x1400208
    else
      let s1 := bcReads 5 0x1400214 (min n shifted) addr.toNat (emit s (.miso [0xFF]))
      match fin with
      | .partialWord => spiErr s1 0x1400208
      | .extraClocks k => spiErr (emit s1 (.miso (List.replicate (ceilDiv k 8) 0xFF))) 0x140020C
      | _ => s1

/-- SPI_BAD_INSTR: discarded with no effect. -/
def execSpiBadInstr (instr : Byte) (s : State) : Host.Outcome State Fault Refusal :=
  .next (spiTransaction instr s fun _ _ => s)

/-- SPI_HDR_SHORT. -/
def execSpiHdrShort (s : State) : Host.Outcome State Fault Refusal := .next (spiErr s 0x1400200)

/-! ## I2C target (R437, R438) -/

def i2ctErr (s : State) : State := raiseLim (bump s 0x1400230 1) 366 0 0 []

/-- The I2C target answers its own 7-bit address (R437). -/
def i2ctAnswers (s : State) (target : BitVec 7) : Bool := decide (rf s 0x1400010 0 7 = target.toNat)

/-- I2CT_WRITE: the address bytes that arrived, then the complete data words. -/
def execI2ctWrite (target : BitVec 7) (addr : Bytes) (words : List Word) (fin : BusEnd) (s : State) :
    Host.Outcome State Fault Refusal :=
  .next <|
    let a := beNat (addr.take 3)
    if i2ctAnswers s target = false then s
    else if addr.length < 3 ∨ a % 4 ≠ 0 then i2ctErr s
    else
      let s1 := bcWrites 0x1400230 words a s
      match fin with
      | .partialWord => i2ctErr s1
      | _ => s1

/-- I2CT_READ. -/
def execI2ctRead (target : BitVec 7) (addr : BitVec 24) (shifted : Nat) (fin : BusEnd) (s : State) :
    Host.Outcome State Fault Refusal :=
  .next <|
    if i2ctAnswers s target = false then s
    else if addr.toNat % 4 ≠ 0 then i2ctErr s
    else
      let s1 := bcReads 6 0x1400230 shifted addr.toNat s
      match fin with
      | .partialWord => i2ctErr s1
      | _ => s1

/-! ## Mailboxes (R433) -/

/-- BCP_MBOX_TO_BC_WRITE. -/
def execBcpMboxToBcWrite (value : Word) (s : State) : Host.Outcome State Fault Refusal :=
  .next (setBcp s { s.bcp with mboxIn := value, inFull := true })

/-- BCP_MBOX_FROM_BC_READ. DESIGN CHOICE (log entry 118): the read clears the FULL flag, the word stays (R11, R433). -/
def execBcpMboxFromBcRead (s : State) : Host.Outcome State Fault Refusal :=
  .next (emit (setBcp s { s.bcp with outFull := false }) (.readData 0 s.bcp.mboxOut))

/-! ## I2C controllers (R442 to R444) -/

/-- The host's transfer goes out: the bytes to write, from TX_LO and TX_HI, then RLEN bytes to read. -/
def i2cSend (s : State) (c : Nat) : State :=
  let tx := leBytes 4 (rd s (i2cA c + 8)).toNat ++ leBytes 4 (rd s (i2cA c + 0xC)).toNat
  emit s (.i2c c (rf s (i2cA c + 4) 0 7) (tx.take (rf s (i2cA c + 4) 8 4)) (rf s (i2cA c + 4) 12 4) (rf s (i2cA c) 0 2))

/-- BCP_I2C_GO: ignored while BUSY, which sets COLLIDE. -/
def execBcpI2cGo (c : Fin 2) (s : State) : Host.Outcome State Fault Refusal :=
  .next <|
    if (i2cOf s c).busy then orReg s (i2cA c) 0x800
    else i2cSend (setI2c s c { i2cOf s c with busy := true, tries := 0, waiting := false }) c

/-- The host's transfer ends with a STATUS, and the firmware's that waited go out (R442). -/
def i2cEnd (s : State) (c status : Nat) : State :=
  let x := i2cOf s c
  x.fw.foldl (fun t e => fwTransfer t c e.1 e.2.1 e.2.2)
    (setI2c s c { x with busy := false, waiting := false, status := status, fw := [] })

/-- BCP_I2C_FAIL (R443, R444). -/
def i2cFail (s : State) (c : Nat) : State := raiseN (bump s 0x140022C 1) 364 c [c]

/-- BCP_I2C_DONE: the end of a transfer; lost arbitration is retried up to RETRY times, and a bus with SDA held low is
cleared, which ends no transfer. -/
def execBcpI2cDone (c : Fin 2) (e : I2cEnd) (s : State) : Host.Outcome State Fault Refusal :=
  .next <|
    let x := i2cOf s c
    match x.busy, e with
      | _, .sdaStuck n => raiseN (emit s (.i2cClear c n.val)) 365 0 []
      | false, _ => s
      | true, .ok rx => i2cEnd (setI2c s c { x with rx := subPad (rx.take (rf s (i2cA c + 4) 12 4)) 0 8 }) c 0
      | true, .nackAddr => i2cEnd s c 1
      | true, .nackData => i2cEnd s c 2
      | true, .arbLost =>
        let s1 := raiseN (bump s (0x1400224 + 4 * c.val) 1) 363 c [c]
        if x.tries < rf s (i2cA c) 2 4 then setI2c s1 c { x with tries := x.tries + 1, waiting := true }
        else i2cFail (i2cEnd s1 c 3) c

/-- BCP_I2C_RETRY: the bus has been free for 50 µs. -/
def execBcpI2cRetry (c : Fin 2) (s : State) : Host.Outcome State Fault Refusal :=
  .next <|
    let x := i2cOf s c
    if x.busy && x.waiting then i2cSend (setI2c s c { x with waiting := false }) c else s

/-- BCP_I2C_TIMEOUT. -/
def execBcpI2cTimeout (c : Fin 2) (s : State) : Host.Outcome State Fault Refusal :=
  .next (if (i2cOf s c).busy then i2cFail (i2cEnd s c 4) c else s)

/-! ## DISC (R446) -/

/-- BCP_DISC_STUCK: the search is suspended. -/
def execBcpDiscStuck (s : State) : Host.Outcome State Fault Refusal :=
  .next (raiseN { s with brim := { s.brim with discStuck := true, searching := false, found := [] } } 367 0 [])

end Sys2Proof.Machine
end

