-- ==== Sys2Proof/Machine/MitOps.lean ====
section
/-! DEFINITION. What a Mitten unit sends: in-band heartbeat frames and the last gasp (R422). Kinds of messages on the
MIT lane in the output record: 1 heartbeat, 2 last gasp, 3 takeover notice. Mirrored records and
pairing messages have outputs of their own (R419, R420). -/

namespace Sys2Proof.Machine

/-- The instant now in ns. -/
def nowNs (s : State) : Nat := secOf s.tb.counter * 10 ^ 9 + nsOf s.tb.counter

/-- The unit is in a serving state (R418). -/
def mitServes (s : State) : Bool :=
  match s.mit.st with
  | .solo | .active | .activeAlone => true
  | .pairing => s.mit.serving
  | _ => false

/-- The witness is asserted (R423). -/
def witnessed (s : State) : Bool := s.mit.witness && rb s 0x1300000 2

/-- The active unit of a pair, alone or not. -/
def mitActive (s : State) : Bool := s.mit.en && decide (s.mit.st = .active ∨ s.mit.st = .activeAlone)

/-- The in-band frame: broadcast, from MIT_UNIT_MAC, with a C-tag, EtherType 0x88B6, 64 bytes with its FCS. The spec
gives no payload; here a kind, the serving flag and the entry instant (DESIGN CHOICE, log entry 60). -/
def inbandFrame (s : State) (kind : Nat) : Bytes :=
  let tag := beBytes 2 0x8100 ++ beBytes 2 (rf s 0x1300014 5 12)
  let body := leBytes 1 kind ++ leBytes 1 (if mitServes s then 1 else 0) ++ leBytes 8 s.mit.since
  subPad (List.replicate 6 (0xFF : Byte) ++ beBytes 6 s.fuse.unitMac.toNat ++ tag ++ beBytes 2 0x88B6 ++ body) 0 60

/-- An in-band frame enters its port's queue, class 0. -/
def sendInband (s : State) (kind : Nat) : State :=
  if rb s 0x1300014 0 then
    enqueue s (rf s 0x1300014 1 4)
      { cls := 0, frame := inbandFrame s kind, src := .device, launch := none, tol := 0, ins := .none, req := 0, stamp := 0 }
  else s

/-- The last gasp before a reset that takes the ports down: both frames leave first (R422, R497). -/
def gaspFirst (s : State) : State :=
  if mitActive s then
    let s1 := if s.mit.linkUp then emit s (.mitten 2) else s
    let j := rf s 0x1300014 1 4
    if rb s 0x1300014 0 && (portOf s j).up then emit s1 (.frame j (inbandFrame s 2 ++ fcs (inbandFrame s 2))) else s1
  else s

/-- The last gasp of an active unit, on both paths (R422). -/
def lastGasp (s : State) : State :=
  if mitActive s then sendInband (if s.mit.linkUp then emit s (.mitten 2) else s) 2 else s

/-! ## The pair key and the mirror (R419, R420) -/

/-- Pairing is wanted: EN and a pair identifier (R418). -/
def mitWanted (s : State) : Bool := s.mit.en && decide ((rd s 0x1300008).toNat ≠ 0)

/-- The pairing message: the unit draws its secret of the X25519 exchange, and signs its part with its fused identity key
(R419). -/
def sendPairing (s : State) : State :=
  let k := (List.range 32).map fun i => Config.drbgByte (s.ent.drawn + i)
  let pub := x25519Fn 1 k (leBytes 32 9)
  let s1 := takeDrbg { s with mit := { s.mit with eph := k } } 32
  emit s1 (.pairing (rd s 0x1300008) (decide (s.mit.st = .active ∨ s.mit.st = .activeAlone)) (mitServes s) s.mit.since
    (rb s 0x1300000 1) s.fuse.brimId pub (edSign 1 (beBytes 32 s.fuse.identityKey.toNat) pub))

/-- The bytes of a mirrored record that are sealed (DESIGN CHOICE, log entry 121: the spec gives no layout). -/
def mirrorBytes (r : MirrorRec) : Bytes :=
  leBytes 1 r.cls.val ++ leBytes 1 r.seg.val ++ leBytes 2 r.words.length
  ++ (r.words.flatMap fun e => leBytes 4 e.1 ++ leBytes 4 e.2.toNat)
  ++ (r.keys.flatMap fun e => leBytes 4 e.1 ++ leBytes 64 e.2.1 ++ leBytes 6 e.2.2.1 ++ leBytes 1 e.2.2.2)
  ++ leBytes 1 (if r.csig.isSome then 1 else 0) ++ r.csig.getD []

/-- A record sealed with AES-256-GCM under the pair key, its number as the nonce: ciphertext, then tag (R419). -/
def sealMirror (key : Bytes) (serial : Nat) (r : MirrorRec) : Bytes := gcmSeal key (beBytes 12 serial) [] (mirrorBytes r)

/-- The tag of a sealed record. -/
def mirrorTag (key : Bytes) (serial : Nat) (r : MirrorRec) : Bytes := (sealMirror key serial r).drop (mirrorBytes r).length

/-- The record that carries a payload to the partner: 1 CURRENT, 2 ACCEPTED, 0 otherwise. -/
def mirrorRecOf (cls seg : Nat) (p : Payload) : MirrorRec :=
  let code := fun (st : SlotState) => match st with
    | .current => 1
    | .accepted => 2
    | _ => 0
  let base : MirrorRec := { cls := Fin.ofNat 16 cls, seg := Fin.ofNat 32 seg, words := [], keys := [], csig := none }
  match p with
  | .words ws => { base with words := ws }
  | .keys slots csig =>
    { base with csig := csig, keys := (List.range 8).map fun k =>
        let x := tget (fun _ => KeySlot.cold) slots k
        (x.id.toNat, beNat x.key, x.born, code x.st) }
  | _ => base

/-- A committed record is mirrored: it awaits its acknowledgement, and leaves on an up lane, sealed (R420). -/
def sendMirror (s : State) (cls seg : Nat) (p : Payload) : State :=
  let n := s.mit.serial
  let s1 : State := { s with mit := { s.mit with
    serial := n + 1, keysSerial := if cls = 2 then n else s.mit.keysSerial,
    toMirror := s.mit.toMirror ++ [{ cls := cls, seg := seg, serial := n, late := false }] } }
  match s.mit.linkUp, s.mit.pairKey with
  | true, some k => emit s1 (.mirror n (mirrorRecOf cls seg p) (sealMirror k n (mirrorRecOf cls seg p)))
  | _, _ => s1

end Sys2Proof.Machine
end

