-- ==== Sys2Proof/Machine/Brim.lean ====
section
/-! DEFINITION. The Brim ring (R404 to R417): enumeration on DISC, lanes and two-way exchanges, the leader, the
management token, control messages and host messages. -/

namespace Sys2Proof.Machine

def setBrim (s : State) (b : Brim) : State := { s with brim := b }

/-- The member number of an ID. -/
def memberNum (b : Brim) (id : BitVec 64) : Option Nat := b.members.findIdx? fun m => decide (m = id)

def myNum (s : State) : Option Nat := memberNum s.brim s.fuse.brimId

def inRing (b : Brim) : Bool := decide (b.st = .ring ∨ b.st = .line)

/-- The way to an ID: hops, and whether it leaves by BRIM_W. The shorter way, by BRIM_E where both are equal (R407). -/
def pathTo (b : Brim) (id : BitVec 64) : Option (Nat × Bool) :=
  match b.east.findIdx? (fun m => decide (m = id)), b.west.findIdx? (fun m => decide (m = id)) with
  | some e, some w => if w < e then some (w + 1, true) else some (e + 1, false)
  | some e, none => some (e + 1, false)
  | none, some w => some (w + 1, true)
  | none, none => none

/-- Member k is this device or one that its lanes reach. -/
def reaches (s : State) (k : Nat) : Bool :=
  decide (myNum s = some k) || (decide (k < s.brim.members.length) && (pathTo s.brim (s.brim.members.getD k 0)).isSome)

/-- This device leads. -/
def leads (s : State) : Bool := inRing s.brim && s.brim.leader.isSome && decide (s.brim.leader = myNum s)

/-! ## Presence and search (R409 to R411) -/

/-- BRIM_ENABLE: the lanes are powered, and a presence pulse is sent (R404, R410). -/
def execBrimEnable (s : State) : Host.Outcome State Fault Refusal :=
  .next <|
    let s1 := wrf s 0x1200000 0 1 1
    if s.brim.en then s1
    else emit (setBrim (setUnit (setUnit s1 61 0) 62 0) { s1.brim with en := true, st := .search, discPulse := true, searching := false, found := [] })
      .discPulse

/-- BRIM_DISABLE: the device leaves the ring, drives nothing and powers its lanes down (R404). -/
def execBrimDisable (s : State) : Host.Outcome State Fault Refusal :=
  .next (sourceChanged s (setBrim (wrf s 0x1200000 0 1 0) { Brim.cold with tokenSeq := s.brim.tokenSeq }))

/-- A presence pulse starts. -/
def presencePulse (s : State) : State :=
  if s.brim.en then emit (setBrim s { s.brim with discPulse := true, searching := false, found := [] }) .discPulse else s

/-- BRIM_RESEARCH (R410). -/
def execBrimResearch (s : State) : Host.Outcome State Fault Refusal := .next (presencePulse s)

/-- BRIM_PRESENCE: the search is abandoned and will restart (R410). -/
def execBrimPresence (s : State) : Host.Outcome State Fault Refusal :=
  .next <|
    if s.brim.en then raiseN (bump (setBrim s { s.brim with searching := false, found := [] }) 0x12000A4 1) 350 0 [] else s

/-- BRIM_PRESENCE_PULSE_END (R410). -/
def execBrimPresencePulseEnd (s : State) : Host.Outcome State Fault Refusal :=
  .next (setBrim s { s.brim with discPulse := false })

/-- BRIM_SEARCH_START: DISC has been high for 5 ms; a stuck line is over (R410, R446). -/
def execBrimSearchStart (s : State) : Host.Outcome State Fault Refusal :=
  .next <|
    if s.brim.en = true ∧ s.brim.discPulse = false then
      let s1 := setBrim s { s.brim with searching := true, found := [], discStuck := false }
      if s.brim.discStuck then alarmClear s1 367 else s1
    else s

/-- An ID takes its place in ascending order. -/
def insertId (id : BitVec 64) : List (BitVec 64) → List (BitVec 64)
  | [] => [id]
  | m :: ms => if id < m then id :: m :: ms else if id = m then m :: ms else m :: insertId id ms

/-- A new leader: the event, and for every other member a change of time selection at the next ring offset (R412). -/
def takeLeader (s : State) (l : Option Nat) : State :=
  if s.brim.leader = l then s
  else sourceChanged s
    (raiseN (setBrim s { s.brim with leader := l, winner := none, streak := 0, leadNew := true }) 346 0 [])

/-- A destination that a message can reach: every member, or one (R417). -/
def destOk (b : Brim) (dest : Nat) : Bool := inRing b && (decide (dest = 15) || decide (dest < b.members.length))

/-- The waiting messages whose destination is no member any more complete NOT_READY (R417). -/
def settleTx (s : State) : State :=
  let gone := s.brim.txq.filter fun m => !destOk s.brim m.dest
  gone.foldl (fun t m => complete t m.ring m.idx stNotReady m.body)
    (setBrim s { s.brim with txq := s.brim.txq.filter fun m => destOk s.brim m.dest })

/-- The devices of a lane list that the search found, up to the first that it did not find. -/
def foundPath (up : Bool) (self : BitVec 64) (found l : List (BitVec 64)) : List (BitVec 64) :=
  if up then l.takeWhile fun i => found.contains i && decide (i ≠ self) else []

/-- The search has ended: numbers, state and events of R411. The leader keeps its role under its new number; if it is
gone the next election takes effect at once. -/
def enumerated (s : State) (east west : List (BitVec 64)) (ms : Nat) : State :=
  let b := s.brim
  let found := b.found.foldl (fun l i => insertId i l) []
  let e := foundPath b.upE s.fuse.brimId found east
  let w := foundPath b.upW s.fuse.brimId found west
  let st : BrimState :=
    if !found.contains s.fuse.brimId then .alone
    else if e ≠ [] ∧ e.length + 1 = found.length ∧ w = e.reverse then .ring
    else if e ≠ [] ∨ w ≠ [] then .line else .alone
  let leaderId := b.leader.map fun l => b.members.getD l 0
  let b1 : Brim := { b with members := found, prev := b.members, st := st, searching := false, found := [], enumMs := ms,
                            east := e, west := w,
                            eqls := found.map fun i => ((memberNum b i).map fun k => b.eqls.getD k 15).getD 15 }
  let lead := match leaderId with
    | some i => if st = .alone then none else memberNum b1 i
    | none => none
  let s1 := settleTx (sourceChanged s (raiseN (setBrim s { b1 with leader := lead }) 344 0 []))
  let s2 := if b.members = found then s1 else raiseN s1 345 0 []
  if st = .ring ∧ b.restoreDue = true then raiseN (setBrim s2 { s2.brim with restoreDue := false }) 348 0 [] else s2

/-- The ID bits of a pass, most significant first: a contender whose bit is 0 pulls low, one whose bit is 1 leaves where
the line is low, and a bit that samples high reads 1 (R409). -/
def scanId (own pulled : BitVec 64) : Nat → Bool → BitVec 64 → BitVec 64
  | 0, _, id => id
  | n + 1, contends, id =>
    let low := (contends && !own.getLsbD n) || pulled.getLsbD n
    scanId own pulled n (contends && !(low && own.getLsbD n)) (if low then id else id ||| BitVec.ofNat 64 (2 ^ n))

/-- BRIM_SEARCH_PASS: `others` is what the other devices pull low, `east` and `west` the devices that the lanes reach. A
ring has at most 8 members (R1, R426); an ID read after the eighth is not taken (DESIGN CHOICE, log entry 93). -/
def execBrimSearchPass (others : DiscPulls) (east west : List (BitVec 64)) (ms : Nat) (s : State) :
    Host.Outcome State Fault Refusal :=
  .next <|
    if s.brim.searching = false then s
    else
      let self := s.fuse.brimId
      let contends := !s.brim.found.contains self
      if contends || others.start then
        let id := scanId self others.bits 64 contends 0
        if (contends && decide (id = self)) || others.verify then
          (if s.brim.found.length < 8 then setBrim s { s.brim with found := s.brim.found ++ [id] } else s)
        else bump s 0x12000A8 1
      else enumerated s east west ms

/-! ## Lanes (R405 to R407, R416) -/

/-- BRIM_LANE_UP: a new search runs. -/
def execBrimLaneUp (x : BrimSide) (s : State) : Host.Outcome State Fault Refusal :=
  .next <|
    if s.brim.en then
      presencePulse (match x with
        | .east => setBrim s { s.brim with upE := true }
        | .west => setBrim s { s.brim with upW := true })
    else s

/-- The token is passed on: by BRIM_E, in a line to one end and back (R413). -/
def passToken (s : State) (side : BrimSide) (seq : BitVec 16) : State :=
  let east := match side with
    | .west => decide (s.brim.east ≠ [])
    | .east => decide (s.brim.west = [])
  emit s (.brimToken east seq)

/-- The leader regenerates the token (R414, R416). -/
def regenToken (s : State) : State :=
  if leads s then
    let s1 := raiseN (bump (setBrim s { s.brim with token := true, tokenSeq := s.brim.tokenSeq + 1 }) 0x12000A0 1) 349 0 []
    passToken s1 .west s1.brim.tokenSeq
  else s

/-- A path is cut at the first hop that `at_` names. -/
def cutPath (at_ : BitVec 64 → BitVec 64 → Bool) : BitVec 64 → List (BitVec 64) → List (BitVec 64)
  | _, [] => []
  | prev, x :: xs => if at_ prev x then [] else x :: cutPath at_ x xs

/-- A lane between two members is lost: the paths end there, a ring becomes a line, the leader regenerates the token, and
a member that the leader no longer reaches runs in holdover (R22, R416). -/
def ringBreak (s : State) (eastEnd westEnd : BitVec 64) : State :=
  let b := s.brim
  let e := cutPath (fun p x => decide (p = eastEnd ∧ x = westEnd)) s.fuse.brimId b.east
  let w := cutPath (fun p x => decide (x = eastEnd ∧ p = westEnd)) s.fuse.brimId b.west
  if inRing b = false ∨ (e = b.east ∧ w = b.west) then s
  else
    let st : BrimState := if e = [] ∧ w = [] then .alone else .line
    let s1 := setBrim s { b with east := e, west := w, st := st, restoreDue := true,
                                 leader := if st = .alone then none else b.leader, token := b.token && decide (st ≠ .alone) }
    let lost := match s1.brim.leader with
      | some l => !reaches s1 l
      | none => true
    let s2 := setBrim s1 { s1.brim with fresh := b.fresh && !lost }
    settleTx (sourceChanged s (regenToken (raiseN s2 347 0 [])))

/-- BRIM_LANE_DOWN: the break is reported in both directions with its two ends; a device with no lane left is alone, a
member cut off from the leader runs in holdover (R411, R415, R416). -/
def execBrimLaneDown (x : BrimSide) (s : State) : Host.Outcome State Fault Refusal :=
  .next <|
    let s1 := match x with
      | .east => setBrim s { s.brim with upE := false, hopE := 0 }
      | .west => setBrim s { s.brim with upW := false, hopW := 0 }
    let far := match x with
      | .east => s.brim.east.head?
      | .west => s.brim.west.head?
    match far, inRing s.brim with
    | some i, true =>
      let ends := match x with
        | .east => (s.fuse.brimId, i)
        | .west => (i, s.fuse.brimId)
      emit (ringBreak s1 ends.1 ends.2) (.brim 2 (leBytes 8 ends.1.toNat ++ leBytes 8 ends.2.toNat))
    | _, _ => s1

/-- The delay and the offset of an exchange (R406). -/
def exchangeDelay (e : Exchange) : Int := ((e.t2 - e.t1) + (e.t4 - e.t3)) / 2
def exchangeOffset (e : Exchange) (asym : Int) : Int := ((e.t2 - e.t1) - (e.t4 - e.t3)) / 2 - asym

/-- An offset of the ring (8) or the pair (9) joins those of the servo's interval. -/
def addOffset (s : State) (i : Nat) (o : Int) : State :=
  let c := candOf s i
  setCand s i { c with offset := o, fresh := true, sum := c.sum + o, cnt := c.cnt + 1 }

/-- A ring offset reaches the member's servo. The first one after a change of leader is a switch of R108: built out,
or refused, in which case it is not used and the member holds. DESIGN CHOICE (log entry 113): the refusal carries ID 8 and
is raised once per second at most. -/
def ringOffset (s : State) (o : Int) : State :=
  let s1 := setBrim s { s.brim with offset := o, fresh := true, leadNew := false }
  if s.brim.leadNew then
    match buildOut s1 (o - s.brim.offset) with
    | some t => sourceChanged s (addOffset t 8 o)
    | none => sourceChanged s
        (raiseLim (setBrim s1 { s1.brim with offset := s.brim.offset, leadNew := true, fresh := false }) 83 8 8 [8])
  else sourceChanged s (addOffset s1 8 o)

/-- The ring offset after an exchange on one side: along the shorter path to the leader, this device's offset to its
neighbour there and the sum of the further hops that the neighbour reports (R407). The exchange gives the neighbour's
offset to this device, the A of R406. -/
def ringSum (s : State) (west : Bool) (beyond : Option Int) : Option Int :=
  match s.brim.leader with
  | none => none
  | some l =>
    match pathTo s.brim (s.brim.members.getD l 0) with
    | some (n, w) =>
      let hop := if w then s.brim.hopW else s.brim.hopE
      if w ≠ west then none else if n = 1 then some (-hop) else beyond.map fun r => r - hop
    | none => none

/-- BRIM_EXCHANGE: one exchange on a lane that is up; `beyond` is the neighbour's own ring offset away from this device,
where its leader lies further on (R406, R407, R421). -/
def execBrimExchange (x : XLane) (e : Exchange) (beyond : Option Int) (s : State) : Host.Outcome State Fault Refusal :=
  .next <|
    let d := exchangeDelay e
    match x with
    | .mit =>
      if s.mit.linkUp then
        let o := exchangeOffset e (rsf s 0x1300020 0 32)
        let s1 : State := { s with mit := { s.mit with delay := d, offset := o } }
        if mitStandby s1 then addOffset s1 9 o else s1
      else s
    | side =>
      let east := decide (side = .east)
      if (if east then s.brim.upE else s.brim.upW) then
        let o := exchangeOffset e (rsf s (if east then 0x1200088 else 0x120008C) 0 32)
        let s1 := setBrim s (if east then { s.brim with delayE := d, hopE := o } else { s.brim with delayW := d, hopW := o })
        match ringSum s1 (!east) beyond with
        | some r => if brimMember s1 then ringOffset s1 r else s1
        | none => s1
      else s

/-- BRIM_ALIGN_LOSS: no ring offset has reached the member's servo for 1 s; it holds (R22, R431). -/
def execBrimAlignLoss (s : State) : Host.Outcome State Fault Refusal :=
  .next (if brimMember s then sourceChanged s (raiseN (setBrim s { s.brim with fresh := false }) 351 0 []) else s)

/-! ## The leader (R412) -/

/-- Member k may be elected: as it reports, and for this device by LEADER_ELIG and the Mitten state. -/
def mayLead (s : State) (eligible : List Bool) (k : Nat) : Bool :=
  eligible.getD k false &&
  (decide (myNum s ≠ some k) || (rb s 0x1200000 1 && !decide (s.mit.st = .standby ∨ s.mit.st = .ready ∨ s.mit.st = .isolated)))

/-- The eligible member on this side of a break with the lowest eQL, the lowest number among equals. -/
def bestMember (s : State) (eqls : List Nat) (eligible : List Bool) : Option Nat :=
  (List.range s.brim.members.length).foldl (fun best k =>
    if mayLead s eligible k && reaches s k then
      match best with
      | some b => if eqls.getD k 15 < eqls.getD b 15 then some k else best
      | none => some k
    else best) none

/-- The eQL of this device's selected time candidate, 15 without one. A device that follows the ring or the pair counts
the candidate that its selector would take (R86, R412; log entry 67). -/
def ownQl (s : State) : Nat :=
  let t := if follows s then choose s 0 (rd s 0x400004) 7 true [0, 1, 2, 3] [] else s.ref.tsel
  if t = 7 then 15 else eql s t

/-- The qualities that the election compares: this device's own, and those the others report. -/
def electionQls (s : State) (eqls : List (Fin 16)) : List Nat :=
  (List.range s.brim.members.length).map fun k => if myNum s = some k then ownQl s else ((eqls.getD k 15).val)

/-- The leader has left: there is none, or no lane reaches it any more (R412, R416). -/
def leaderGone (s : State) : Bool := (s.brim.leader.map fun l => !reaches s l).getD true

/-- A winner becomes the leader, and the change is reported both ways (R412, R415). -/
def elect (s : State) (w : Option Nat) : State :=
  if s.brim.leader = w then s else emit (takeLeader s w) (.brim 1 (leBytes 1 (w.getD 0)))

/-- BRIM_ELECTION: a change takes effect after three evaluations with one winner, at once where the leader has left. What
the servo may follow can change with the leader's eQL (R22). -/
def execBrimElection (eqls : List (Fin 16)) (eligible : List Bool) (s : State) : Host.Outcome State Fault Refusal :=
  .next <|
    if inRing s.brim then
      let qs := electionQls s eqls
      let w := bestMember s qs eligible
      let s1 := sourceChanged s (setBrim s { s.brim with eqls := qs })
      if leaderGone s then elect s1 w
      else if w = s.brim.leader ∨ w = none then setBrim s1 { s1.brim with winner := none, streak := 0 }
      else
        let n := if s.brim.winner = w then s.brim.streak + 1 else 1
        if 3 ≤ n then elect s1 w else setBrim s1 { s1.brim with winner := w, streak := n }
    else s

/-! ## The management channel (R413 to R417) -/

/-- The holder of the token sends its oldest waiting message, whose descriptor then completes OK (R413, R417). -/
def sendWaiting (s : State) : State :=
  let live := s.brim.txq.filter fun m => (ringOf s m.ring).fetched.any fun x => decide (x.idx = m.idx)
  match live with
  | [] => setBrim s { s.brim with txq := [] }
  | m :: ms => complete (emit (setBrim s { s.brim with txq := ms }) (.brimMsg m.dest m.data)) m.ring m.idx stOk m.body

/-- BRIM_TOKEN_ARRIVE: the leader destroys a token older than its latest and counts each pass; the holder sends at most
one message and passes the token on (R413, R414). -/
def execBrimTokenArrive (side : BrimSide) (seq : BitVec 16) (rotNs : Nat) (s : State) :
    Host.Outcome State Fault Refusal :=
  .next <|
    if inRing s.brim then
      let old := decide (0 < (s.brim.tokenSeq - seq).toNat ∧ (s.brim.tokenSeq - seq).toNat < 0x8000)
      if leads s && old then s
      else
        let next := if leads s then seq + 1 else seq
        passToken (sendWaiting (setBrim s { s.brim with tokenSeq := next, token := true, rotNs := rotNs })) side next
    else s

/-- BRIM_TOKEN_REGEN (R414). -/
def execBrimTokenRegen (s : State) : Host.Outcome State Fault Refusal := .next (regenToken s)

/-- BRIM_CONTROL_MESSAGE (R415). -/
def execBrimControlMessage (m : CtrlMsg) (s : State) : Host.Outcome State Fault Refusal :=
  .next <|
    if inRing s.brim then
      match m with
      | .leaderChange l => takeLeader s (some l.val)
      | .ringBreak e w => ringBreak s e w
      | .takeover => s
    else s

/-- The body of a message completion; a send returns its tag (R417). -/
def msgBody (typ src len : Nat) (tag : Word) : Bytes :=
  leBytes 2 typ ++ leBytes 1 src ++ leBytes 1 0 ++ leBytes 2 len ++ leBytes 2 0 ++ leBytes 4 tag.toNat

/-- A send descriptor is judged: LEN 1 to 240; NOT_READY where nobody can take it or its buffer cannot be read; else the
buffer is read and the message goes to `f` with its destination and the body of its completion (R417). -/
def sendMsg (s : State) (r : Nat) (x : Fetched) (data : Option Bytes) (ok : Nat → Bool)
    (f : Nat → Bytes → Bytes → State → State) : State :=
  let len := fld (descWord x.desc 2) 0 16
  let dest := fld (descWord x.desc 2) 16 4
  let body := msgBody 0x61 0 len (descWord x.desc 5)
  if len = 0 ∨ 240 < len then complete s r x.idx stDescErr body
  else if ok dest = false then complete s r x.idx stNotReady body
  else
    let s1 := hostRead s r x.idx (descAddr x.desc 0) len
    match data with
    | none => complete (dmaError s1 r) r x.idx stNotReady body
    | some b => f dest body (subPad b 0 len) s1

/-- A message arrives: the next buffer of its ring takes it, or it is dropped; a full completion ring only delays the
completion. `ok` says that the write to the buffer does not fail (R308, R317, R331). -/
def recvMsg (s : State) (r src : Nat) (data : Bytes) (ok : Bool) : State :=
  let g := ringOf s r
  match g.st, g.fetched with
  | .running, x :: _ =>
    let b := data.take 256
    let body := msgBody 0x62 src b.length 0
    if ok then bufferDone s r x.idx (descAddr x.desc 0) b true body
    else complete (dmaError (hostWrite s r x.idx (descAddr x.desc 0) ((List.range b.length).map Config.bufferUndefined)) r)
      r x.idx stNotReady body
  | _, _ => bump s 0x12000AC 1

/-- The first descriptor of a send ring whose message does not wait for the token yet. -/
def nextSend (s : State) (r : Nat) : Option Fetched :=
  (ringOf s r).fetched.find? fun x => !s.brim.txq.any fun m => decide (m.ring = r ∧ m.idx = x.idx)

/-- BRIM_MSG_SEND: the message waits for the token (R413, R417). -/
def execBrimMsgSend (r : Fin 256) (data : Option Bytes) (s : State) : Host.Outcome State Fault Refusal :=
  .next <|
    if 176 ≤ r.val ∧ r.val ≤ 183 ∧ r.val % 2 = 0 then
      match nextSend s r with
      | none => s
      | some x =>
        sendMsg s r x data (destOk s.brim) fun dest body b t =>
          setBrim t { t.brim with txq := t.brim.txq ++ [{ ring := r, idx := x.idx, dest := dest, body := body, data := b }] }
    else s

/-- BRIM_MSG_RECEIVE. -/
def execBrimMsgReceive (r : Fin 256) (src : Fin 8) (data : Bytes) (hostOk : Bool) (s : State) : Host.Outcome State Fault Refusal :=
  .next (if 176 ≤ r.val ∧ r.val ≤ 183 ∧ r.val % 2 = 1 then recvMsg s r src data hostOk else s)

/-- MIT_MSG_SEND: over the lane at once, DEST ignored (R417). -/
def execMitMsgSend (r : Fin 256) (data : Option Bytes) (s : State) : Host.Outcome State Fault Refusal :=
  .next <|
    if 184 ≤ r.val ∧ r.val ≤ 191 ∧ r.val % 2 = 0 then
      match (ringOf s r).fetched with
      | [] => s
      | x :: _ =>
        sendMsg s r x data (fun _ => s.mit.en && s.mit.linkUp) fun _ body b t =>
          complete (emit t (.brim 4 b)) r x.idx stOk body
    else s

/-- MIT_MSG_RECEIVE. -/
def execMitMsgReceive (r : Fin 256) (data : Bytes) (hostOk : Bool) (s : State) : Host.Outcome State Fault Refusal :=
  .next (if 184 ≤ r.val ∧ r.val ≤ 191 ∧ r.val % 2 = 1 then recvMsg s r 0 data hostOk else s)

end Sys2Proof.Machine
end

