-- ==== Sys2Proof/Machine/Loam.lean ====
section
/-! DEFINITION. The Loam store (R362 to R384): pages, block retirement, the commit engine, power fail, wear moves,
and the Loam commands of the rings that commit or read (R397 to R399). -/

namespace Sys2Proof.Machine

def setLoam (s : State) (l : Loam) : State := { s with loam := l }

/-! ## Pages and blocks (R362, R363, R381) -/

/-- The copy group of a block: a spare joins the group of the retired block that it replaces (R362). -/
def groupOf (retired : List Nat) : Nat → Nat → Nat
  | 0, _ => 0
  | n + 1, b =>
    if b < 8 then 0 else if b < 224 then (b - 8) % 3 + 1
    else match retired[b - 224]? with
      | some r => groupOf retired n r
      | none => 0

/-- The blocks of a copy group that are in service. -/
def groupBlocks (l : Loam) (k : Nat) : List Nat :=
  (List.range 256).filter fun b => decide (groupOf l.retired 33 b = k) && !l.retired.contains b

def pgmOf (l : Loam) (page : Nat) : Nat := tget (fun _ => 0) l.pgm page

/-- The page with the least program count, the lowest first among equals. -/
def leastPage (l : Loam) : List Nat → Option Nat
  | [] => none
  | p :: ps =>
    match leastPage l ps with
    | none => some p
    | some q => if pgmOf l p ≤ pgmOf l q then some p else some q

/-- The least-programmed free page of a copy group, outside the blocks that have just failed (R381, R382). -/
def freePage (l : Loam) (bad : List Nat) (k : Nat) : Option Nat :=
  let used := l.copies.map (·.page)
  leastPage l (((groupBlocks l k).filter fun b => !bad.contains b).flatMap fun b =>
    ((List.range 16).map (b * 16 + ·)).filter fun p => !used.contains p)

/-- A page has been programmed a number of times, failed tries among them (R363). -/
def programmed (l : Loam) (page n : Nat) : Loam :=
  { l with pgm := tset (fun _ => 0) l.pgm page (min full (pgmOf l page + n)) }

/-- A copy is written to the page that R381 gives it. Each failed page takes four programs, and its block fails; the copy
goes to another block of its group, and is lost where that has no free page (R363, R382). -/
def writeCopy : Nat → Nat → Loam × List Nat → Copy → Loam × List Nat
  | 0, retries, (l, bad), c =>
    match freePage l bad c.copy with
    | none => (l, bad)
    | some p => (programmed { l with copies := l.copies ++ [{ c with page := p }] } p (retries + 1), bad)
  | n + 1, retries, (l, bad), c =>
    match freePage l bad c.copy with
    | none => (l, bad)
    | some p => writeCopy n retries (programmed l p 4, bad ++ [p / 16]) c

/-- A copy is moved to another page of its group, outside the failed blocks. -/
def moveCopy (bad : List Nat) (l : Loam) (c : Copy) : Loam :=
  match freePage l bad c.copy with
  | none => l
  | some p => programmed { l with copies := l.copies.map fun x => if x = c then { c with page := p } else x } p 1

/-! ## The system blocks (R364) -/

/-- The tables are committed to every copy that is left. -/
def saveTables (l : Loam) : Loam :=
  let t : Tables := { gen := (l.sys.foldl (fun m e => max m e.2.gen) 0) + 1, dir := l.dir, retired := l.retired,
                      pgm := l.pgm, csigFlag := l.csigFlag }
  { l with sys := l.sys.map fun e => (e.1, t) }

/-- The tables that the copies vote: the newest version that two copies agree on, else the newest that there is. -/
def votedTables (l : Loam) : Option Tables :=
  let ts := l.sys.map (·.2)
  let newest := fun (xs : List Tables) => xs.foldl (fun b t => match b with
    | none => some t
    | some u => if u.gen < t.gen then some t else some u) none
  match newest (ts.filter fun t => decide (2 ≤ (ts.filter fun u => decide (u = t)).length)) with
  | some t => some t
  | none => newest ts

/-- The running tables are read from the system blocks. -/
def loadTables (l : Loam) : Loam :=
  match votedTables l with
  | some t => { l with dir := t.dir, retired := t.retired, pgm := t.pgm, csigFlag := t.csigFlag }
  | none => l

/-! ## Retirement (R382 to R384) -/

/-- The store enters a later state; LOAM_STATE carries its severity. -/
def loamState (s : State) (n : Nat) : State :=
  if s.loam.st < n then raiseSev (setLoam s { s.loam with st := n }) 332 0 n (leBytes 4 n) else s

/-- The records and directory entries of a class are gone. -/
def eraseClass (l : Loam) (cls : Nat) : Loam :=
  { l with copies := l.copies.filter (fun c => decide (c.cls ≠ cls)), dir := l.dir.filter (fun e => decide (e.1 ≠ cls)),
           genUse := l.genUse.filter (fun e => decide (e.1 / 32 ≠ cls)),
           recUse := l.recUse.filter (fun e => decide (e.1 / 32 ≠ cls)),
           lineUse := l.lineUse.filter (fun e => decide (e.1 / 32 ≠ cls)),
           repair := l.repair.filter (fun e => decide (e.1 ≠ cls)) }

/-- A class is evicted (R384). -/
def evictClass (s : State) (cls : Nat) : State :=
  let l := eraseClass s.loam cls
  let v := (List.range (segCount cls)).foldl (fun t k => tset (fun _ => Verdict.absent) t (segKey cls k) .evicted) l.verdict
  raiseN (setLoam s { l with evicted := cls :: l.evicted, verdict := v }) 337 cls [cls]

/-- What a retirement without a spare evicts: LIFE, then ALMANAC; nothing left makes the store READ_ONLY. -/
def evictNext (s : State) : State :=
  if s.loam.evicted.contains clsLife = false then evictClass s clsLife
  else if s.loam.evicted.contains clsAlmanac = false then evictClass s clsAlmanac
  else loamState s 3

/-- A data block that failed is retired: its live records are moved, outside the other failed blocks, and then a spare
joins its group (R382, R383). -/
def retire (bad : List Nat) (s : State) (b : Nat) : State :=
  if s.loam.retired.contains b = true ∨ groupOf s.loam.retired 33 b = 0 then s
  else
    let had := s.loam.spares
    let moved := (s.loam.copies.filter fun c => decide (c.page / 16 = b)).foldl (moveCopy bad) s.loam
    let s1 := raiseN (setLoam s { moved with retired := moved.retired ++ [b], spares := had - 1 }) 331 b [b]
    if had = 0 then evictNext s1
    else if had = 1 then evictClass (loamState s1 2) clsTrace
    else if had ≤ 5 then loamState s1 1
    else s1

/-- A system block fails: block 6 or 7 takes its place, and with both in use its copy of the tables is lost and the store
becomes READ_ONLY (R364, R383). -/
def retireSystem (s : State) (b : Nat) : State :=
  match s.loam.sysHome.lookup b with
  | none => s
  | some k =>
    let home := s.loam.sysHome.filter fun e => decide (e.1 ≠ b)
    let s1 := raiseN (setLoam s { s.loam with sysRetired := s.loam.sysRetired ++ [b], sysHome := home }) 331 b [b]
    match [6, 7].find? fun x => (s.loam.sysHome.lookup x).isNone && !s.loam.sysRetired.contains x with
    | some x => setLoam s1 { s1.loam with sysHome := tput home x k }
    | none => loamState (setLoam s1 { s1.loam with sys := s1.loam.sys.filter fun e => decide (e.1 ≠ k) }) 3

/-! ## Record bytes (R366, R398) -/

def slotCode : SlotState → Nat
  | .empty => 0
  | .pending => 1
  | .current => 2
  | .accepted => 3

/-- A payload as READ writes it: master keys as zeros. -/
def payloadBytes : Payload → Bytes
  | .words ws => ws.flatMap fun e => leBytes 4 e.1 ++ leBytes 4 e.2.toNat
  | .keys slots csig =>
    (List.range 8).flatMap (fun k =>
      let x := tget (fun _ => KeySlot.cold) slots k
      leBytes 4 x.id.toNat ++ List.replicate 64 0 ++ leBytes 6 x.born ++ leBytes 2 (slotCode x.st))
    ++ leBytes 1 (if csig.isSome then 1 else 0) ++ subPad (csig.getD []) 0 32
  | .hist m => [m.f0, m.age, m.tc1, m.tc2, m.t0, m.sigF, m.sigA, m.sigT].flatMap (fun x => leBytes 4 (twos 32 x))
    ++ leBytes 4 m.th
  | .fwmeta a b n e t sch => leBytes 1 a ++ leBytes 1 b ++ leBytes 1 n ++ leBytes 1 e ++ leBytes 6 t ++ sch.flatMap (leBytes 2)
  | .gnss r =>
    (r.eph.flatMap fun e => leBytes 1 e.signal ++ leBytes 1 e.sv ++ leBytes 6 e.start ++ leBytes 6 e.stop ++ e.data)
    ++ (match r.pos with
      | some (x, y, z) => [x, y, z].flatMap (fun v => leBytes 4 (twos 32 v)) ++ leBytes 4 r.posUnc
      | none => [])
    ++ r.iono ++ r.utc ++ (r.isto.flatMap fun x => leBytes 4 (twos 32 (x.getD 0))) ++ r.rootKey
  | .bytes b => b

/-- The stored payload, master keys included, over which the header's CRC runs. -/
def storedBytes : Payload → Bytes
  | .keys slots csig =>
    (List.range 8).flatMap (fun k =>
      let x := tget (fun _ => KeySlot.cold) slots k
      leBytes 4 x.id.toNat ++ subPad x.key 0 64 ++ leBytes 6 x.born ++ leBytes 2 (slotCode x.st))
    ++ leBytes 1 (if csig.isSome then 1 else 0) ++ subPad (csig.getD []) 0 32
  | p => payloadBytes p

/-- The 32-byte header of a copy (R366, R367). -/
def copyHeader (c : Copy) : Bytes :=
  let b := storedBytes c.payload
  let h := [0x4C, 0x4D] ++ leBytes 1 c.cls ++ leBytes 1 (c.seg + 64 * c.copy) ++ leBytes 4 c.gen ++ leBytes 2 c.schema
    ++ leBytes 1 c.line ++ leBytes 1 c.flags ++ leBytes 4 b.length ++ leBytes 6 c.written ++ List.replicate 6 0
  h ++ leBytes 4 (crc32c (h ++ b))

/-! ## The commit engine (R367, R373 to R378) -/

/-- The line that the running image writes (R393). -/
def runLine (s : State) : Nat := s.loam.runSlot

def genUseOf (s : State) (cls seg : Nat) : Nat := tget (fun _ => 0) s.loam.genUse (segKey cls seg)

def recOf (s : State) (cls seg : Nat) : Option Payload := s.loam.recUse.lookup (segKey cls seg)

/-- The next generation of a segment (R367). -/
def nextGen (s : State) (cls seg : Nat) : Nat :=
  (s.loam.copies.filter fun c => decide (c.cls = cls) && decide (c.seg = seg) && c.intact).foldl
    (fun m c => max m c.gen) (genUseOf s cls seg) + 1

/-- A record that the standby cannot commit leaves its mirror stale (R420, R421). -/
def mirrorStale (s : State) : State := mitReadyCheck { s with nts := { s.nts with stale := true } }

/-- A host's commit completes; a log of a rollback or a mirrored record that is refused has its own end. -/
def commitDone (s : State) (c : Commit) (status result segs gen : Nat) : State :=
  match c.by_ with
  | .host ring idx tag _ => complete s ring idx status (loamBody result segs gen tag 0)
  | .trial => if status = stOk then s else refreshServing (raiseN s 340 0 [])
  | .mirror _ => if status = stOk then s else mirrorStale s
  | _ => s

def slotState (s : State) (k : Nat) : FwState := if k = 0 then s.loam.slot0 else s.loam.slot1

def setSlotState (s : State) (k : Nat) (st : FwState) : State :=
  if k = 0 then setLoam s { s.loam with slot0 := st } else setLoam s { s.loam with slot1 := st }

/-- A TRIAL image runs (R390, R391). -/
def trialRunning (s : State) : Bool := decide (slotState s s.loam.runSlot = .trial)

/-- A standby has committed a mirrored segment and acknowledges it: with KEYS and every CFG segment of its partner its
mirror is not stale (R274, R420). A KEYS record runs from here on (R273). -/
def noteMirrored (s : State) (c : Commit) (serial : Nat) : State :=
  let s0 : State := match c.payload with
    | some (.keys slots key) =>
      let held := s.loam.csig.or key
      { s with nts := { s.nts with slots := slots },
               loam := { s.loam with csig := held, csigFlag := s.loam.csigFlag || held.isSome } }
    | _ => s
  let s1 := c.segs.foldl (fun t k => emit t (.mirrorAck c.cls k serial)) s0
  let got := s1.mit.gotMirror ++ c.segs.map fun k => (c.cls, k)
  let all := (clsKeys, 0) :: (List.range (segCount clsCfg)).map fun k => (clsCfg, k)
  refreshServing { s1 with
    mit := { s1.mit with gotMirror := got },
    nts := { s1.nts with stale := s1.nts.stale && !(mitStandby s1 && all.all got.contains) } }

/-- The classes of a mask of UNREADABLE classes. -/
def maskClasses (m : BitVec 16) : List Nat := (List.range 16).filter fun k => m.getLsbD k

/-- The classes that were UNREADABLE at FW_COMMIT keep their defaults: these are committed as their settings (R395). KEYS
stays in conflict until the host acts (R271). -/
def settleUnreadable (s : State) : State :=
  let cls := (maskClasses s.loam.unreadable).filter fun c => decide (c ≠ clsKeys)
  let cs : List Commit := cls.map fun c =>
    { by_ := .firmware, cls := c, segs := List.range (segCount c), payload := none }
  refreshServing (setLoam s { s.loam with unreadable := 0, queue := s.loam.queue ++ cs })

/-- The records and directory entries of every class but FWMETA and KEYS are erased (R398). -/
def wipeAll (l : Loam) : Loam :=
  saveTables ([clsCfg, clsTime, clsHist, clsGnss, clsAlmanac, clsLife, clsTrace, clsRblog].foldl eraseClass l)

/-- What a commit that has ended brings about beside its completion: FW_COMMIT (R395), CSIG_SET (R389), WIPE (R398), the
power-fail snapshot (R378), a mirrored record (R420), the log of a rollback, which then deletes the trial line (R396). -/
def commitEffect (s : State) (c : Commit) : State :=
  match c.by_ with
  | .host _ _ _ 0x12 =>
    let k := s.loam.runSlot
    let s1 := setSlotState (setSlotState s k .committed) (1 - k) .valid
    let l := { s1.loam with copies := s1.loam.copies.filter (fun x => decide (x.line = k)), runState := 0,
                            attempts := 0, elapsed := 0, oldSlot := some (1 - k) }
    settleUnreadable (alarmClear (raiseN (setLoam s1 l) 339 0 []) 341)
  | .host _ _ _ 0x20 =>
    match c.payload with
    | some (.keys _ key) => setLoam s (saveTables { s.loam with csig := s.loam.csig.or key, csigFlag := true })
    | _ => s
  | .host _ _ _ 0x30 => setLoam s (wipeAll s.loam)
  | .pfail => raiseN s 335 0 []
  | .mirror serial => mitReadyCheck (noteMirrored s c serial)
  | .trial =>
    let k := s.loam.runSlot
    let kept := s.loam.copies.filter fun x => decide (x.line = k ∨ x.cls = clsFwmeta)
    refreshServing (raiseN (setLoam s { s.loam with copies := kept }) 340 0 [])
  | _ => s

/-- The slots of the KEYS record in use; of KEYS in conflict, those of the previous record, where two copies of it agree
(log entry 122). -/
def recordSlots (s : State) : Tab KeySlot :=
  match (recOf s clsKeys 0).or s.loam.prevKeys with
  | some (.keys sl _) => sl
  | _ => []

/-- The payload that a segment of a commit writes: given at the request, or the running values at its start (R374).
KEYS always keeps the countersignature key (R389); CSIG_SET keeps the slots that the record in use holds when its commit
starts, and a rewrite takes that record as it then is, so that neither drops a generation (R273). -/
def commitPayload (s : State) (c : Commit) (seg : Nat) : Payload :=
  match c.by_, c.payload with
  | .host _ _ _ 0x20, some (.keys _ key) => .keys (recordSlots s) (s.loam.csig.or key)
  | .rewrite, some p => (recOf s c.cls seg).getD p
  | _, some (.keys slots key) => .keys slots (s.loam.csig.or key)
  | _, some p => p
  | _, none => snapshot s c.cls seg

/-- The segments that a commit writes: a COMMIT skips those whose running values equal the record in use (R373). -/
def commitSegs (s : State) (c : Commit) : List (Nat × Payload) :=
  let all := c.segs.map fun k => (k, commitPayload s c k)
  match c.by_ with
  | .host _ _ _ 0x01 => all.filter fun e => decide (e.2 ≠ (recOf s c.cls e.1).getD (.words []))
  | _ => all

/-- A CSIG_SET whose turn comes after another one: a key is held by now, and it never changes (R389, R398). -/
def csigTooLate (s : State) (c : Commit) : Bool :=
  match c.by_ with
  | .host _ _ _ 0x20 => s.loam.csig.isSome
  | _ => false

/-- LOAM_COMMIT_START: the oldest queued commit starts and takes its snapshot (R374). -/
def execLoamCommitStart (s : State) : Host.Outcome State Fault Refusal :=
  .next <|
    match s.loam.cur, s.loam.queue with
    | none, c :: rest =>
      if powerFailing s = true ∧ c.by_ ≠ .pfail then s else
      let s1 := setLoam s { s.loam with queue := rest }
      if noSpace s c.cls then commitDone (bump s1 0x1100040 1) c stNoSpace 0 0 0
      else if csigTooLate s c then commitDone s1 c stOk 1 0 0
      else
        match commitSegs s1 c with
        | [] => commitDone s1 c stOk 0 0 0
        | (k, p) :: more =>
          setLoam s1 { s1.loam with cur := some { req := c, seg := k, gen := nextGen s1 c.cls k, payload := p,
                                                  rest := more, written := 0, lastGen := 0 } }
    | _, _ => s

/-- A new copy of the segment in progress. -/
def newCopy (s : State) (c : CurCommit) (k : Nat) : Copy :=
  { cls := c.req.cls, seg := c.seg, copy := k, gen := c.gen, schema := schemaOf c.req.cls, line := runLine s,
    flags := if c.req.by_ = .pfail then 1 else 0, written := if s.tb.timeValid then nowSec s else 0, page := 0,
    intact := true, payload := c.payload }

/-- The three copies are in the array, with the blocks that failed on the way; of the running line, the generations before
the two newest are released (R368, R376, R382, R393). -/
def placeCopies (s : State) (c : CurCommit) (p1 p2 p3 : CopyProg) : Loam × List Nat :=
  let old := genUseOf s c.req.cls c.seg
  let put := fun (x : Loam × List Nat) (k : Nat) (p : CopyProg) => writeCopy p.failed p.retries.val x (newCopy s c k)
  let (l, bad) := put (put (put (s.loam, []) 1 p1) 2 p2) 3 p3
  let keep := fun (x : Copy) => decide (x.cls ≠ c.req.cls ∨ x.seg ≠ c.seg ∨ x.line ≠ runLine s ∨ x.gen = c.gen ∨ x.gen = old)
  ({ l with copies := l.copies.filter keep }, bad)

/-- A segment is committed: its record is in use, its class and segment are listed (R364, R376). -/
def recordUse (l : Loam) (c : CurCommit) (line : Nat) : Loam :=
  let k := segKey c.req.cls c.seg
  { l with genUse := tput l.genUse k c.gen, recUse := tput l.recUse k c.payload, lineUse := tput l.lineUse k line,
           dir := if l.dir.contains (c.req.cls, c.seg) then l.dir else l.dir ++ [(c.req.cls, c.seg)],
           repair := l.repair.filter fun e => decide (e ≠ (c.req.cls, c.seg)) }

/-- A committed record of a mirrored class goes to the Mitten partner (R365, R420). -/
def noteMirror (s : State) (c : CurCommit) : State :=
  let own := match c.req.by_ with
    | .mirror _ | .keyRotation => false
    | _ => true
  if mitActive s = true ∧ s.mit.linkUp = true ∧ own = true ∧ (c.req.cls = clsKeys ∨ c.req.cls = clsCfg) then
    sendMirror s c.req.cls c.seg c.payload
  else s

/-- A copy that is programmed at the first try. -/
def cleanProg : CopyProg := { failed := 0, retries := 0 }

/-- A segment is programmed: its copies, its record, the tables; then the failed blocks retire (R363, R364, R376, R382). -/
def programSegment (s : State) (c : CurCommit) (res : ProgResult) : State :=
  let (l, bad) := placeCopies s c res.copy1 res.copy2 res.copy3
  let n := 3 * (res.copy1.failed + res.copy2.failed + res.copy3.failed)
    + res.copy1.retries.val + res.copy2.retries.val + res.copy3.retries.val
  let s1 := statInc (setLoam s (recordUse l c (runLine s))) 0x1100030 1
  let s2 := bad.foldl (retire bad) (if n = 0 then s1 else bump s1 0x1100044 n)
  let s3 := match res.sysFail with
    | some b => retireSystem s2 b.val
    | none => s2
  setLoam s3 (saveTables s3.loam)

/-- LOAM_SEGMENT_DONE: the segment in progress has its three copies. The next segment follows, or the commit ends; a class
that a retirement on the way has evicted keeps nothing (R376, R378, R382, R384). -/
def execLoamSegmentDone (res : ProgResult) (s : State) : Host.Outcome State Fault Refusal :=
  .next <|
    match s.loam.cur with
    | none => s
    | some c =>
      let s1 := programSegment s c res
      if s1.loam.evicted.contains c.req.cls then
        commitDone (bump (setLoam s1 { s1.loam with cur := none }) 0x1100040 1) c.req stNoSpace 0 0 0
      else
        let s2 := loamAlarmEnd (noteMirror s1 c)
        let n := c.written + 1
        match c.rest with
        | (k, p) :: more =>
          if powerFailing s2 then
            commitDone (setLoam s2 { s2.loam with cur := none }) c.req stOk 3 n c.gen
          else
            setLoam s2 { s2.loam with cur := some { c with seg := k, gen := nextGen s2 c.req.cls k, payload := p,
                                                           rest := more, written := n, lastGen := c.gen } }
        | [] =>
          commitDone (commitEffect (setLoam s2 { s2.loam with cur := none }) c.req) c.req stOk 0 n c.gen

/-! ## Rewrites, power fail, wear (R372, R378 to R381) -/

/-- A copy that the rewrite pass releases: of a segment that needs no rewrite, one of an interrupted commit, or of a
generation older than the two most recent (R368, R372). -/
def toRelease (l : Loam) (c : Copy) : Bool :=
  let k := segKey c.cls c.seg
  let inUse := tget (fun _ => 0) l.genUse k
  let mine := fun (x : Copy) => decide (x.cls = c.cls ∧ x.seg = c.seg ∧ x.line = c.line)
  let older := l.copies.filter fun x => mine x && decide (c.gen < x.gen ∧ x.gen < inUse)
  decide (l.lineUse.lookup k = some c.line) && !l.repair.contains (c.cls, c.seg) &&
    (decide (inUse < c.gen) || (decide (c.gen < inUse) && !older.isEmpty))

/-- The rewrite of a segment: its record in use, or its factory default. -/
def rewriteOf (s : State) (e : Nat × Nat) : Commit :=
  let dflt : Payload :=
    if e.1 = clsCfg ∨ e.1 = clsTime then .words [] else if e.1 = clsFwmeta then snapshot s clsFwmeta 0 else .bytes []
  { by_ := .rewrite, cls := e.1, segs := [e.2], payload := some ((recOf s e.1 e.2).getD dflt) }

/-- LOAM_REWRITE: at an idle moment, the record in use of every listed segment is to be committed as a new generation,
without a token, and the pages that the pass releases are free; the countersignature flag follows a key that KEYS holds
(R372, R389). -/
def execLoamRewrite (s : State) : Host.Outcome State Fault Refusal :=
  .next <|
    if s.loam.queue ≠ [] ∨ s.loam.cur ≠ none ∨ s.loam.restored = false then s
    else
      let s1 := setLoam s (saveTables { s.loam with csigFlag := s.loam.csigFlag || s.loam.csig.isSome })
      if powerFailing s1 = true ∨ s1.loam.st = 3 then s1
      else
        let segs := s1.loam.repair.filter fun e => !(decide (e.1 = clsKeys) && s1.nts.conflict)
        setLoam s1 { s1.loam with queue := segs.map (rewriteOf s1), copies := s1.loam.copies.filter fun c => !toRelease s1.loam c }

/-- A queued commit is refused by the power fail. -/
def powerFailOne (s : State) (c : Commit) : State := commitDone (bump s 0x1100048 1) c stOk 3 0 0

/-- The power-fail snapshot: the fitted model, else the record in use. -/
def histSnapshot (s : State) : Commit :=
  { by_ := .pfail, cls := clsHist, segs := [0], payload := if s.dpl.model.isSome then none else recOf s clsHist 0 }

/-- LOAM_PFAIL: no commit starts; the HIST snapshot is queued where it is enabled and there is a model (R378). -/
def execLoamPfail (s : State) : Host.Outcome State Fault Refusal :=
  .next <|
    if s.loam.pfail then s
    else
      let q := s.loam.queue
      let s1 := q.foldl powerFailOne (setLoam s { s.loam with pfail := true, queue := [] })
      let hist := rb s1 0x1100000 0 && (s1.dpl.model.isSome || (recOf s1 clsHist 0).isSome) && decide (s1.loam.st ≠ 3)
      let s2 := if hist then
          setLoam s1 { s1.loam with queue := [histSnapshot s1] }
        else s1
      lastGasp (raiseN s2 334 0 [])

/-- PFAIL_RELEASE: commits stay refused for 10 ms (R380). -/
def execPfailRelease (s : State) : Host.Outcome State Fault Refusal :=
  .next (if s.loam.pfail then setLoam s { s.loam with pfail := false, holdoff := true } else s)

/-- PFAIL_HOLDOFF_END (R380). -/
def execPfailHoldoffEnd (s : State) : Host.Outcome State Fault Refusal :=
  .next (setLoam s { s.loam with holdoff := false })

/-- The copy on the least-programmed page that a group's records occupy. -/
def staticCopy (l : Loam) (k : Nat) : Option Copy :=
  let cs := l.copies.filter fun c => decide (groupOf l.retired 33 (c.page / 16) = k)
  match leastPage l (cs.map (·.page)) with
  | none => none
  | some p => cs.find? fun c => decide (c.page = p)

/-- LOAM_WEAR_MOVE (R381). -/
def execLoamWearMove (s : State) : Host.Outcome State Fault Refusal :=
  .next (setLoam s (saveTables ([1, 2, 3].foldl (fun l k => match staticCopy l k with | some c => moveCopy [] l c | none => l) s.loam)))

/-- LOAM_FIRMWARE_COMMIT: firmware commits a class that it owns; the request of TRACE answers a major alarm
(R365, R375, R486). -/
def execLoamFirmwareCommit (sid : SegId) (payload : Bytes) (s : State) : Host.Outcome State Fault Refusal :=
  .next <|
    let cls := sid.cls.val
    if segCount cls ≤ sid.seg.val ∨ cls = clsCfg ∨ cls = clsTime ∨ cls = clsKeys then s
    else
      let s1 : State := if cls = clsTrace then { s with evt := { s.evt with traceDue := false } } else s
      let own := decide (cls = clsFwmeta ∨ cls = clsHist ∨ cls = clsTrace ∨ cls = clsGnss ∨ cls = clsAlmanac)
      fwCommit s1 cls [sid.seg.val] (if own = true ∧ payload = [] then none else some (.bytes (payload.take pageRoom)))

/-! ## Loam commands (R397 to R399) -/

/-- An earlier command of the ring is still being committed (R397). -/
def ringCommits (s : State) (r : Nat) : Bool :=
  s.loam.queue.any (commitOf r) || (s.loam.cur.map fun c => commitOf r c.req).getD false

/-- The next command of a Loam ring, if it has the opcode that the caller serves and its turn has come. A descriptor
with a must-be-0 field that is not 0 completes DESC_ERR. -/
def loamCommand (s : State) (r : Nat) (ok : Nat → Bool) (f : Fetched → State) : State :=
  match (ringOf s r).fetched with
  | [] => s
  | x :: _ =>
    if isLoamRing r = false ∨ ringCommits s r = true then s
    else if loamClean x.desc = false then complete s r x.idx stDescErr (loamBare (loamTag x.desc))
    else if ok (loamOp x.desc) then f x else s

/-- A command completes with a RESULT. -/
def loamEnd (s : State) (r : Nat) (x : Fetched) (result : Nat) : State :=
  complete s r x.idx stOk (loamBody result 0 0 (loamTag x.desc) 0)

/-- A command's descriptor is in use: it leaves the fetched list. -/
def takeFetched (s : State) (r : Nat) (x : Fetched) : State :=
  let g := ringOf s r
  setRing s r { g with fetched := g.fetched.filter fun y => decide (y.idx ≠ x.idx) }

/-- A command's commit joins the queue, with the token that its fetch took; a refusal completes the command (R375, R378,
R384, R399). -/
def hostCommit (s : State) (r : Nat) (x : Fetched) (cls : Nat) (segs : List Nat) (p : Option Payload) : State :=
  let c : Commit := { by_ := .host r x.idx (loamTag x.desc) (loamOp x.desc), cls := cls, segs := segs, payload := p }
  match requestCommit s c (!x.token) with
  | (t, none) => takeFetched t r x
  | (t, some .throttled) => complete t r x.idx stThrottled (loamBare (loamTag x.desc))
  | (t, some .noSpace) => complete t r x.idx stNoSpace (loamBare (loamTag x.desc))
  | (t, some .powerFail) => loamEnd t r x 3

/-- COMMIT (R373, R398). -/
def execLoamCommit (r : Fin 256) (s : State) : Host.Outcome State Fault Refusal :=
  .next <| loamCommand s r (· == 0x01) fun x =>
    let cls := loamCls x.desc
    if cls = clsCfg ∨ cls = clsTime then hostCommit s r x cls (List.range (segCount cls)) none
    else loamEnd s r x 1

/-- The lowest copy of the record in use. -/
def copyInUse (s : State) (cls seg : Nat) : Option Copy :=
  s.loam.copies.find? fun c => decide (c.cls = cls ∧ c.seg = seg ∧ c.gen = genUseOf s cls seg ∧
    some c.line = s.loam.lineUse.lookup (segKey cls seg)) && c.intact

/-- READ (R398). -/
def execLoamRead (r : Fin 256) (writeOk : Bool) (s : State) : Host.Outcome State Fault Refusal :=
  .next <| loamCommand s r (· == 0x02) fun x =>
    let cls := loamCls x.desc
    let seg := loamSeg x.desc
    if cls = clsKeys ∧ s.nts.conflict = true then loamEnd s r x 4
    else match recOf s cls seg, copyInUse s cls seg with
      | some _, some c =>
        let b := copyHeader c ++ payloadBytes c.payload
        if loamLen x.desc < b.length then loamEnd s r x 7
        else if writeOk then
          complete (hostWrite s r x.idx (descAddr x.desc 0) b) r x.idx stOk
            (loamBody 0 0 c.gen (loamTag x.desc) b.length)
        else loamEnd (dmaError (hostWrite s r x.idx (descAddr x.desc 0) ((List.range b.length).map Config.bufferUndefined)) r) r x 8
      | _, _ => loamEnd s r x 2

/-- CSIG_SET: the key is committed in KEYS beside the record's slots, then the flag is set (R389, R398). -/
def execCsigSet (r : Fin 256) (key : Option Bytes) (s : State) : Host.Outcome State Fault Refusal :=
  .next <| loamCommand s r (· == 0x20) fun x =>
    if s.loam.csig.isSome then loamEnd s r x 1
    else if loamLen x.desc ≠ 32 then loamEnd s r x 7
    else
      let s1 := hostRead s r x.idx (descAddr x.desc 0) 32
      match key with
      | none => loamEnd (dmaError s1 r) r x 8
      | some k => hostCommit s1 r x clsKeys [0] (some (.keys [] (some (subPad k 0 32))))

/-- WIPE: KEYS is committed with empty slots, and every class but FWMETA and KEYS is erased with that commit (R398). -/
def execWipe (r : Fin 256) (s : State) : Host.Outcome State Fault Refusal :=
  .next <| loamCommand s r (· == 0x30) fun x => hostCommit s r x clsKeys [0] (some (.keys [] s.loam.csig))

/-- The opcodes of R398. -/
def loamOpcodes : List Nat := [0x01, 0x02, 0x10, 0x11, 0x12, 0x13, 0x20, 0x30]

/-- LOAM_UNKNOWN_OPCODE: BAD_CMD (R399). -/
def execLoamUnknownOpcode (r : Fin 256) (s : State) : Host.Outcome State Fault Refusal :=
  .next <| loamCommand s r (fun op => !loamOpcodes.contains op) fun x => loamEnd s r x 1

/-! ## Firmware slots (R390 to R395, R398) -/

/-- The slot that a firmware command names. -/
def fwSlot (x : Fetched) : Nat := loamSeg x.desc % 2

/-- Bytes of an image are written to the boot flash. -/
def writeFlash (s : State) (at_ : Nat) (b : Bytes) : State :=
  setLoam s { s.loam with flash := (b.zipIdx at_).foldl (fun t e => tset (fun _ => (0xFF : Byte)) t e.2 e.1) s.loam.flash }

/-- A firmware command gives a slot a state, which FWMETA is to hold: refused where that commit is (R378, R384, R390). -/
def fwSlotTo (s : State) (r : Nat) (x : Fetched) (k : Nat) (st : FwState) (result : Nat) (f : State → State) : State :=
  match fwmetaCommit s with
  | (t, none) => loamEnd (setSlotState (f t) k st) r x result
  | (t, some .powerFail) => loamEnd t r x 3
  | (t, some _) => complete t r x.idx stNoSpace (loamBare (loamTag x.desc))

/-- FW_WRITE (R398). -/
def execFwWrite (r : Fin 256) (image : Option Bytes) (s : State) : Host.Outcome State Fault Refusal :=
  .next <| loamCommand s r (· == 0x10) fun x =>
    let k := fwSlot x
    let st := slotState s k
    let d := x.desc
    if k = s.loam.runSlot then loamEnd s r x 6
    else if st ≠ .empty ∧ st ≠ .valid ∧ st ≠ .rejected then loamEnd s r x 1
    else if 0x800000 < loamOffset d + loamLen d then loamEnd s r x 7
    else
      let s0 := hostRead s r x.idx (descAddr d 0) (loamLen d)
      match image with
      | none => loamEnd (dmaError s0 r) r x 8
      | some b =>
        let put := fun (t : State) =>
          let t1 := writeFlash t (k * 0x800000 + loamOffset d) (subPad b 0 (loamLen d))
          if t1.loam.oldSlot = some k then setLoam t1 { t1.loam with oldSlot := none } else t1
        if st = .empty then loamEnd (put s0) r x 0 else fwSlotTo s0 r x k .empty 0 put

/-- An image is accepted under the countersignature key that is required (R388). -/
def imageAccepted (key : Option Bytes) (x : ImageCheck) : Bool :=
  x.vendor && match key with
    | none => true
    | some k => decide (x.counter = some k)

/-- FW_ACTIVATE: the image check of R388 and R389 has ended (R398). -/
def execFwActivate (r : Fin 256) (image : ImageCheck) (s : State) : Host.Outcome State Fault Refusal :=
  .next <| loamCommand s r (· == 0x11) fun x =>
    let k := fwSlot x
    let st := slotState s k
    if s.nts.conflict then loamEnd s r x 4
    else if k = s.loam.runSlot ∨ trialRunning s = true then loamEnd s r x 6
    else if st ≠ .empty ∧ st ≠ .valid then loamEnd s r x 1
    else if imageAccepted s.loam.csig image = false then fwSlotTo s r x k .rejected 5 id
    else
      let next : FwState := if st = .empty ∧ flag (descWord x.desc 3) 17 = true then .valid else .pending
      fwSlotTo s r x k next 0 id

/-- FW_COMMIT: one FWMETA commit makes the TRIAL slot COMMITTED and the old slot VALID (R395). -/
def execFwCommit (r : Fin 256) (s : State) : Host.Outcome State Fault Refusal :=
  .next <| loamCommand s r (· == 0x12) fun x =>
    if trialRunning s then
      let c := fun (k : Nat) => if k = s.loam.runSlot then fwCode .committed else fwCode .valid
      hostCommit s r x clsFwmeta [0] (some (.fwmeta (c 0) (c 1) 0 0 0 ((List.range 11).map schemaOf)))
    else loamEnd s r x 1

/-- FW_TRIAL_MINUTE: the running sum is committed; at the end of the window the slot becomes REJECTED and the image
serves on (R391). -/
def execFwTrialMinute (s : State) : Host.Outcome State Fault Refusal :=
  .next <|
    if trialRunning s then
      let n := min 255 (s.loam.elapsed + 1)
      let s1 := setLoam s { s.loam with elapsed := n }
      let s2 := if rf s 0x40 8 8 ≤ n then raiseN (setSlotState s1 s.loam.runSlot .rejected) 343 0 []
        else s1
      (fwmetaCommit s2).1
    else s

end Sys2Proof.Machine
end

