-- ==== Sys2Proof/Machine/Gauntlet.lean ====
section
/-! DEFINITION. The Gauntlet: filters, token buckets, windows and the amplification cap, with its commands (R282 to
R298, R535). -/

namespace Sys2Proof.Machine

/-! ## Filters (R282, R283, R535) -/

/-- The service addresses of a line port (R219, R247): entry k of IPv4. -/
def sa4 (s : State) (n k : Nat) : Bytes := beBytes 4 (rd s (0xB04000 + 0x1000 * n + 8 * k)).toNat
def sa4Ctl (s : State) (n k : Nat) : Word := rd s (0xB04004 + 0x1000 * n + 8 * k)

def sa6 (s : State) (n k : Nat) : Bytes :=
  (List.range 4).flatMap fun i => beBytes 4 (rd s (0xB04400 + 0x1000 * n + 0x20 * k + 4 * i)).toNat
def sa6Ctl (s : State) (n k : Nat) : Word := rd s (0xB04410 + 0x1000 * n + 0x20 * k)

/-- An address equals an enabled service address of line port n that `use` accepts by its control word. -/
def isServiceAddr (s : State) (n : Nat) (a : Bytes) (use : Word → Bool) : Bool :=
  if a.length = 4 then
    (List.range 64).any fun k => flag (sa4Ctl s n k) 4 && use (sa4Ctl s n k) && decide (sa4 s n k = a)
  else (List.range 64).any fun k => flag (sa6Ctl s n k) 4 && use (sa6Ctl s n k) && decide (sa6 s n k = a)

/-- A service address of logical port j. -/
def isMine (s : State) (j : Nat) (a : Bytes) : Bool := isServiceAddr s (j / 4) a (fun c => flag c (j % 4))

/-- An address with the bits beyond a prefix length cleared. -/
def maskPrefix (len : Nat) (a : Bytes) : Bytes :=
  let w := 8 * a.length
  beBytes a.length (beNat a / 2 ^ (w - len) * 2 ^ (w - len))

/-- A source lies within DENY entry d (R282). -/
def denied (s : State) (a : Bytes) (d : Nat) : Bool :=
  let ctl := rd s (0xD00110 + 0x20 * d)
  let word := fun i => beBytes 4 (rd s (0xD00100 + 0x20 * d + 4 * i)).toNat
  let p := if flag ctl 1 then (List.range 4).flatMap word else word 3
  let len := min (8 * p.length) (fld ctl 8 8)
  flag ctl 0 && decide (a.length = p.length) && decide (maskPrefix len a = maskPrefix len p)

/-- IPv4 and IPv6 bogon sources. -/
def bogon4 (a : Bytes) : Bool :=
  decide (a.length = 4) && (decide (byteAt a 0 = 0) || decide (byteAt a 0 = 127) || decide (224 ≤ byteAt a 0))

def bogon6 (a : Bytes) : Bool :=
  decide (a.length = 16) &&
  (decide (beNat a ≤ 1) || decide (byteAt a 0 = 255) || decide (beNat (a.take 12) = 0xFFFF))

/-- The LEN filter; `n` is the frame's length without FCS. -/
def lenBad (f : Bytes) (p : Pkt) (n : Nat) : Bool :=
  let e := parseEth f
  (!p.v6 && decide (p.ihl < 5)) || decide (n < e.l3 + p.ipLen) ||
  (!p.frag && decide (p.proto = 17) && (decide (be16 f (p.l4 + 4) < 8) || decide (p.l4Len < be16 f (p.l4 + 4))))

/-- The SPORT list (R282). -/
def sportHit (s : State) (f : Bytes) (p : Pkt) : Bool :=
  !p.frag && decide (p.proto = 17) &&
  (List.range 16).any fun i => rb s (0xD00040 + 4 * i) 16 && decide (rf s (0xD00040 + 4 * i) 0 16 = be16 f p.l4)

/-- Whether filter i catches a frame (FCS not included) of port j. -/
def filterHit (s : State) (j : Nat) (f : Bytes) (p : Pkt) (i : Nat) : Bool :=
  match i with
  | 0 => bogon4 p.src
  | 1 => bogon6 p.src
  | 2 => isServiceAddr s (j / 4) p.src (fun _ => true)
  | 3 => decide (p.src = p.dst)
  | 4 => lenBad f p f.length
  | 5 => sportHit s f p
  | _ => (List.range 16).any (denied s p.src)

/-- The enabled filter that decides, if any; SPORT applies only to a frame of an NTP or NTS profile. -/
def filterOf (s : State) (j : Nat) (f : Bytes) (p : Pkt) (ntp : Bool) : Option Nat :=
  (List.range 7).find? fun i => rb s 0xD00004 i && (decide (i ≠ 5) || ntp) && filterHit s j f p i

/-- A filter drops a frame; its first in a TAI second raises GNT_FILTER. -/
def filterDrop (s : State) (i : Nat) : State :=
  let s1 := bump s (0xD02040 + 4 * i) 1
  if tget (fun _ => 0) s1.gnt.filtSec i = nowSec s1 + 1 then s1
  else raiseN { s1 with gnt := { s1.gnt with filtSec := tset (fun _ => 0) s1.gnt.filtSec i (nowSec s1 + 1) } } 260 i [i]

/-! ## Policies and buckets (R284 to R291, R295) -/

def polA (k : Nat) : Nat := 0xD00400 + 8 * k
def polEn (s : State) (k : Nat) : Bool := rb s (polA k) 0
def polAction (s : State) (k : Nat) : Nat := rf s (polA k) 1 2
def polSize (s : State) (k : Nat) : Nat := rf s (polA k) 3 5
def polBase (s : State) (k : Nat) : Nat := rf s (polA k) 10 22
def polRate (s : State) (k : Nat) : Nat := rf s (polA k + 4) 0 16
def polBurst (s : State) (k : Nat) : Nat := rf s (polA k + 4) 16 8
def polKodPoll (s : State) (k : Nat) : Int := rsf s (polA k + 4) 24 8

/-- The stamp unit of an instant in 1/16 ns: 2^24 ns (R286). -/
def stampUnit (t : Nat) : Nat := t / 16 / 2 ^ 24 % 256

/-- The refill of R286. -/
def refill (s : State) (k u : Nat) (b : Nat × Nat) : Nat × Nat :=
  let el := (u + 256 - b.2) % 256
  if 0 < el then (min (b.1 + el * polRate s k * 67108864 / 10 ^ 9) (polBurst s k * 1024), u) else b

/-- Tokens and stamp of an index that is not listed. -/
def fillOf (s : State) (idx : Nat) : Nat × Nat :=
  ((s.gnt.fill.find? fun e => decide (e.1 ≤ idx ∧ idx < e.2.1)).map fun e => e.2.2).getD (8192, 0)

/-- The bucket of an index. -/
def bucketOf (s : State) (idx : Nat) : Nat × Nat := (s.gnt.buckets.lookup idx).getD (fillOf s idx)

/-- The parts of the segments outside a region. -/
def segsOut (lo hi : Nat) (segs : List (Nat × Nat × Nat × Nat)) : List (Nat × Nat × Nat × Nat) :=
  segs.flatMap fun e => [(e.1, min e.2.1 lo, e.2.2), (max e.1 hi, e.2.1, e.2.2)].filter fun x => decide (x.1 < x.2.1)

/-- The parts of the segments inside a region. -/
def segsIn (lo hi : Nat) (segs : List (Nat × Nat × Nat × Nat)) : List (Nat × Nat × Nat × Nat) :=
  (segs.map fun e => (max e.1 lo, min e.2.1 hi, e.2.2)).filter fun x => decide (x.1 < x.2.1)

def setBucket (s : State) (idx : Nat) (b : Nat × Nat) : State :=
  { s with gnt := { s.gnt with buckets := tput s.gnt.buckets idx b } }

/-- The masked source of a request and its family (R285). -/
def bucketSrc (s : State) (f : Bytes) : Nat × Bytes :=
  match parseIp f with
  | some p => if p.v6 then (6, maskPrefix (rf s 0xD00008 8 8) p.src) else (4, maskPrefix (rf s 0xD00008 0 6) p.src)
  | none => (0, sub f 6 6)

def bucketIdx (s : State) (k : Nat) (f : Bytes) : Nat :=
  let (fam, src) := bucketSrc s f
  polBase s k + sipHash s.gnt.key (Config.sipInput k fam src) % 2 ^ polSize s k

/-- A sampled bucket notes its access (R295). -/
def sampleAccess (s : State) (idx : Nat) (f : Bytes) : State :=
  if idx % 1024 ≠ 0 then s else
  let fp := Config.fingerprint (bucketSrc s f).2
  let sec := nowSec s
  let s1 := match s.gnt.samples.lookup idx with
    | some (old, at_) => if old ≠ fp ∧ sec ≤ at_ + 1 then bump s 0xD02068 1 else s
    | none => s
  { s1 with gnt := { s1.gnt with samples := tput s1.gnt.samples idx (fp, sec) } }

/-- The verdicts of stage 5. -/
inductive Verdict5 where
  | pass | kod | host | drop
  deriving DecidableEq, Repr

/-- A window of one TAI millisecond: the count after one more, none where the limit is reached (R290, R294). -/
def windowTake (w : Tab (Nat × Nat)) (j ms limit : Nat) : Option (Tab (Nat × Nat)) :=
  let (m, n) := (w.lookup j).getD (ms, 0)
  let n1 := if m = ms then n else 0
  if n1 < limit then some (tput w j (ms, n1 + 1)) else none

/-- Stage 5: the bucket of a request is refilled and charged (R286, R290). Requests are charged in the order of their
commands: the sender gives FRAME_RECEIVED in the order of the ingress stamps, and of the ports where these are equal, and
its operand says how long ago the stamp point was (R288, log entry 97). -/
def charge (s : State) (j k : Nat) (f : Bytes) (t : Nat) (ntp : Bool) : State × Verdict5 :=
  let idx := bucketIdx s k f
  let s0 := sampleAccess (pmcSignal s 0x203 j 1) idx f
  let b := refill s k (stampUnit t) (bucketOf s idx)
  if 1024 ≤ b.1 then (setBucket s0 idx (b.1 - 1024, b.2), .pass)
  else if polAction s k = 1 ∧ ntp = true ∧ 512 ≤ b.1 then
    match windowTake s.gnt.kodWin j (t / 16000000) (rd s 0xD00010).toNat with
    | some w =>
      let s1 := setBucket s0 idx (b.1 - 512, b.2)
      ({ s1 with gnt := { s1.gnt with kodWin := w } }, .kod)
    | none => (raiseLim (bump (setBucket s0 idx b) 0xD02060 1) 257 j j [j], .drop)
  else if polAction s k = 2 then (setBucket s0 idx b, .host)
  else (bump (setBucket s0 idx b) 0xD0205C 1, .drop)

/-! ## The amplification cap (R292, R293) -/

/-- A request's wire bytes add to the credit. -/
def addCredit (s : State) (j wire : Nat) : State :=
  setCredit s j (min (ampBurst s j) (creditOf s j + wire * rf s (0xD01000 + 0x10 * j) 0 7 / 16))

/-- A reply of class 1 to 3 is checked against the credit; the flag says that it proceeds. -/
def ampCheck (s : State) (j cls wire : Nat) : State × Bool :=
  if rb s 0xD00000 0 = false ∨ cls = 0 ∨ 3 < cls then (s, true)
  else if wire ≤ creditOf s j then (setCredit s j (creditOf s j - wire), true)
  else (raiseLim (bump s (0xD01008 + 0x10 * j) 1) 256 j j [j], false)

/-! ## Commands -/

/-- Every bucket of a policy's region takes the BURST of that policy (R285, R291). -/
def fillRegion (s : State) (k : Nat) : State :=
  let lo := polBase s k
  let hi := lo + 2 ^ polSize s k
  { s with gnt := { s.gnt with
      buckets := s.gnt.buckets.filter (fun e => decide (e.1 < lo ∨ hi ≤ e.1)),
      fill := (lo, hi, polBurst s k * 1024, stampUnit (nowT16 s)) :: segsOut lo hi s.gnt.fill } }

/-- GNT_REKEY: the draw is requested and waits for ENT (R285). -/
def execGntRekey (s : State) : Host.Outcome State Fault Refusal :=
  .next { s with gnt := { s.gnt with rekey := true } }

/-- Every bucket takes the BURST of its policy (R285): the enabled policies' regions are filled last, since those of
disabled ones may name their buckets too (log entry 96). -/
def fillAll (s : State) : State :=
  ((List.range 64).filter (polEn s)).foldl fillRegion (((List.range 64).filter fun k => !polEn s k).foldl fillRegion s)

/-- GNT_KEY_DRAWN: the draw requested by REKEY or by ENT's first delivery is in force (R285). -/
def execGntKeyDrawn (s : State) : Host.Outcome State Fault Refusal :=
  .next <|
    if entDelivering s = true ∧ (s.gnt.rekey = true ∨ s.gnt.drbgKey = false) then
      let key := BitVec.ofNat 128 (leNat (drbg s 16))
      let s1 := takeDrbg s 16
      let s2 : State := { s1 with gnt := { s1.gnt with key := key, drbgKey := true, rekey := false } }
      raiseN (fillAll s2) 258 0 []
    else s

/-- The buckets of an enabled policy are refilled. -/
def sweepRegion (u : Nat) (s : State) (k : Nat) : State :=
  let lo := polBase s k
  let hi := lo + 2 ^ polSize s k
  { s with gnt := { s.gnt with
      buckets := s.gnt.buckets.map fun e => if lo ≤ e.1 ∧ e.1 < hi then (e.1, refill s k u e.2) else e,
      fill := (segsIn lo hi s.gnt.fill).map (fun e => (e.1, e.2.1, refill s k u e.2.2)) ++ segsOut lo hi s.gnt.fill } }

/-- GNT_SWEEP: every bucket of every enabled policy is refilled (R287). -/
def execGntSweep (s : State) : Host.Outcome State Fault Refusal :=
  .next (((List.range 64).filter (polEn s)).foldl (sweepRegion (stampUnit (nowT16 s))) s)

/-- R291: a region that a policy may not take. -/
def regionBad (s : State) (k : Nat) : Bool :=
  let z := polSize s k
  let b := polBase s k
  decide (z < 10) || decide (22 < z) || decide (b % 2 ^ z ≠ 0) || decide (4194304 < b + 2 ^ z) ||
  (List.range 64).any fun q => decide (q ≠ k) && polEn s q &&
    decide (b < polBase s q + 2 ^ polSize s q ∧ polBase s q < b + 2 ^ z)

/-- GNT_POLICY_WRITE: ACTION = 0b11 is ignored; EN = 1 over a bad region is refused; an accepted write that changes the
region fills it (R291, R297). -/
def execGntPolicyWrite (k : Fin 64) (value : Word) (s : State) : Host.Outcome State Fault Refusal :=
  .next <|
    let v := if fld value 1 2 = 3 then putFld value 1 2 (polAction s k) else value
    let s1 := storeMask s (polA k) 0xFFFFFCFF v
    if polEn s1 k = true ∧ regionBad s1 k = true then raiseN s 259 k [k]
    else if polSize s1 k = polSize s k ∧ polBase s1 k = polBase s k then s1
    else fillRegion s1 k

/-- GNT_AMP_CFG_WRITE: a lower AMP_BURST cuts the credit at once (R292). -/
def execGntAmpCfgWrite (j : Fin 16) (value : Word) (s : State) : Host.Outcome State Fault Refusal :=
  .next <|
    let s1 := storeMask s (0xD01000 + 0x10 * j) 0x7FF7F value
    setCredit s1 j (min (creditOf s1 j) (ampBurst s1 j))

/-- GNT_SAMPLE_SECOND: the sampled buckets accessed in the TAI second that has ended (R295). -/
def execGntSampleSecond (s : State) : Host.Outcome State Fault Refusal :=
  .next { s with gnt := { s.gnt with
    occ := (s.gnt.samples.filter fun e => decide (e.2.2 + 1 = nowSec s)).length } }

end Sys2Proof.Machine
end

