-- ==== Sys2Proof/Machine/NtsOps.lean ====
section
/-! DEFINITION. What the NTS lanes do: extension fields, cookies, verification and sealing (R251 to R263, R272). -/

namespace Sys2Proof.Machine

/-- An extension field of a payload. -/
structure Ext where
  typ : Nat
  off : Nat
  len : Nat
  deriving DecidableEq, Repr

/-- The extension fields from an offset to the end; none where one is shorter than 16 bytes, no multiple of 4 or
overruns the payload (R224). -/
def extWalk (q : Bytes) : Nat → Nat → Option (List Ext)
  | 0, o => if o = q.length then some [] else none
  | n + 1, o =>
    if o = q.length then some []
    else
      let l := be16 q (o + 2)
      if l < 16 ∨ l % 4 ≠ 0 ∨ q.length < o + l then none
      else (extWalk q n (o + l)).map fun r => { typ := be16 q o, off := o, len := l } :: r

/-- The extension fields of an NTP payload. -/
def extFields (q : Bytes) : Option (List Ext) := extWalk q (q.length / 16) 48

def extBody (q : Bytes) (e : Ext) : Bytes := sub q (e.off + 4) (e.len - 4)

/-- The drop and error counters of NTS (R279). -/
def ntsCtr (k : Nat) : Nat := 0xC00140 + 4 * k

/-- The slot of an accepted generation (R265). -/
def acceptedSlot? (s : State) (id : Nat) : Option KeySlot :=
  (((List.range 8).map (slotOf s)).find? fun k => decide ((k.st = .current ∨ k.st = .accepted) ∧ k.id.toNat = id))

/-- A cookie of the CURRENT generation (R262, R263). -/
def mintCookie (k : KeySlot) (keys nonce : Bytes) : Bytes :=
  let id := beBytes 4 k.id.toNat
  let (tag, c) := sivSeal k.key [id, nonce] ([0, 15] ++ keys ++ [0, 0])
  id ++ nonce ++ c ++ tag

/-- The keys in a cookie, none where its tag or its AEAD ID is wrong. -/
def openCookie (k : KeySlot) (ck : Bytes) : Option Bytes :=
  match sivOpen k.key [sub ck 0 4, sub ck 4 16] (sub ck 88 16) (sub ck 20 68) with
  | none => none
  | some p => if be16 p 0 = 15 then some (sub p 2 64) else none

/-- Outcomes of the verification: dropped or NTSN, each with its counter, or verified. -/
inductive NtsCheck where
  | drop (ctr : Nat)
  | ntsn (ctr : Nat) (uid : Bytes)
  | good (keys uid : Bytes) (n bad : Nat)
  deriving DecidableEq, Repr

def pad4 (n : Nat) : Nat := (n + 3) / 4 * 4

/-- Placeholders among fields: those of exactly 104 bytes, and the others (R256). -/
def placeholders (es : List Ext) : Nat × Nat :=
  let ps := es.filter fun e => decide (e.typ = 0x0304)
  ((ps.filter fun e => decide (e.len = 108)).length, (ps.filter fun e => decide (e.len ≠ 108)).length)

/-- The encrypted extension fields, as far as they parse. -/
def innerFields (p : Bytes) : List Ext := (extWalk p (p.length / 16) 0).getD []

/-- R252, row by row, over the UDP payload of a request; `kod` asks for one cookie (R261). -/
def ntsVerify (s : State) (q : Bytes) (kod : Bool) : NtsCheck :=
  match extFields q with
  | none => .drop (ntsCtr 3)
  | some es =>
    let by_ := fun t => es.filter fun e => decide (e.typ = t)
    match by_ 0x0104, by_ 0x0204, by_ 0x0404 with
    | [u], [c], [a] =>
      let nl := be16 q (a.off + 4)
      let cl := be16 q (a.off + 6)
      let ct := a.off + 8 + pad4 nl
      if u.len < 36 ∨ a.off + a.len ≠ q.length ∨ nl < 16 ∨ cl < 16 ∨ a.off + a.len < ct + pad4 cl then
        .drop (ntsCtr 3)
      else
        let uid := sub q u.off u.len
        let ck := extBody q c
        if ck.length ≠ 104 then .ntsn (ntsCtr 5) uid
        else match acceptedSlot? s (be32 ck 0) with
          | none => .ntsn (ntsCtr 4) uid
          | some k =>
            match openCookie k ck with
            | none => .ntsn (ntsCtr 5) uid
            | some keys =>
              match sivOpen (keys.take 32) [q.take a.off, sub q (a.off + 8) nl] (sub q ct 16) (sub q (ct + 16) (cl - 16)) with
              | none => .ntsn (ntsCtr 6) uid
              | some inner =>
                let p1 := placeholders es
                let p2 := placeholders (innerFields inner)
                let n := if kod then 1 else min (1 + p1.1 + p2.1) 8
                if poolLevel s < n + 1 then .ntsn (ntsCtr 9) uid else .good keys uid n (p1.2 + p2.2)
    | _, _, _ => .drop (ntsCtr 3)

/-- A sealed reply payload: header, Unique Identifier field, Authenticator (R256). -/
def ntsSeal (k : KeySlot) (hdr keys uid : Bytes) (n base : Nat) : Bytes :=
  let nonceAt := fun i => (List.range 16).map fun b => Config.drbgByte (base + 16 * i + b)
  let cookies := (List.range n).flatMap fun i => [0x02, 0x04, 0, 108] ++ mintCookie k keys (nonceAt (i + 1))
  let (tag, c) := sivSeal (keys.drop 32) [hdr ++ uid, nonceAt 0] cookies
  let ct := tag ++ c
  hdr ++ uid ++ [0x04, 0x04] ++ beBytes 2 (24 + ct.length) ++ [0, 16] ++ beBytes 2 ct.length ++ nonceAt 0 ++ ct

/-- Why the NTS lanes do not serve: none where they do, else the counter of the drop, if it has one. Time comes first
(R224, R225), then EN, whose drop no counter names, then ENT and the keys; a takeover with a stale mirror keeps NTS down
like a conflict (R22, R272, R274, R424). -/
def ntsDown (s : State) : Option (Option Nat) :=
  if s.tb.timeValid = false then some (some 0xB08040)
  else if rb s 0xC00000 0 = false then some none
  else if s.ent.ready = false then some (some (ntsCtr 0))
  else if s.nts.conflict = true ∨ s.nts.staleDown = true then some (some (ntsCtr 2))
  else if curSlot? s = none then some (some (ntsCtr 1))
  else none

end Sys2Proof.Machine
end

