-- ==== Sys2Proof/Machine/Nts.lean ====
section
/-! DEFINITION. Master-key generations, key commands and the cookie mint (R264 to R278). -/

namespace Sys2Proof.Machine

/-! ## Rotations (R264 to R269) -/

/-- A key command ends with its RESULT: 0 DONE, 1 REFUSED, 2 COMMIT_FAILED; BUSY stays while another one is held
(R269, R271, R279). -/
def keyCmdDone (s : State) (result : Nat) : State :=
  raiseN { s with nts := { s.nts with result := result, busy := s.nts.held.any Option.isSome } } 254 0 []

/-- This device is one of a Mitten pair, whether its cross-link is up or not (R266). -/
def inPair (s : State) : Bool := s.mit.en && s.mit.paired && decide (s.mit.st ≠ .solo)

/-- This device is one of a Mitten pair whose cross-link is up (R271). -/
def paired2 (s : State) : Bool := inPair s && s.mit.linkUp

/-- The slot that a new generation takes: the next in ascending order after the CURRENT one, modulo 8, that is EMPTY
(R264). -/
def newSlot (s : State) : Nat :=
  let start := match curSlot? s with
    | some k => k + 1
    | none => 0
  (((List.range 8).map fun i => (start + i) % 8).find? fun k => decide ((slotOf s k).st = .empty)).getD (start % 8)

/-- The age of an accepted generation against the CURRENT one, by ID (R266). -/
def genAge (cur id : Word) : Nat := (cur - id).toNat

/-- The slots as they stand after step 5 of R266, with the new generation in slot n. -/
def afterRotation (s : State) (n : Nat) (x : KeySlot) (first : Bool) : Tab KeySlot :=
  let cur := curSlot? s
  let curId := match cur with
    | some k => (slotOf s k).id
    | none => 0
  let acc := (List.range 8).filter fun k => decide ((slotOf s k).st = .accepted)
  let newest := acc.foldl (fun b k => match b with
    | none => some k
    | some m => if genAge curId (slotOf s k).id < genAge curId (slotOf s m).id then some k else some m) none
  let slotAt := fun k =>
    if k = n then { x with st := SlotState.current }
    else if first then KeySlot.cold
    else if some k = cur then { slotOf s k with st := SlotState.accepted }
    else if some k = newest then slotOf s k
    else KeySlot.cold
  (List.range 8).foldl (fun t k => tset (fun _ => KeySlot.cold) t k (slotAt k)) []

def setSlots (s : State) (t : Tab KeySlot) : State := { s with nts := { s.nts with slots := t } }

/-- PENDING slots return to EMPTY, their keys zeroed. -/
def dropPending (s : State) : State := setSlots s (s.nts.slots.filter fun e => decide (e.2.st ≠ .pending))

/-- A KEYS conflict is resolved (R271). -/
def resolveConflict (s : State) : State :=
  if s.nts.conflict then loamAlarmEnd (alarmClear { s with nts := { s.nts with conflict := false } } 251) else s

/-- The KEYS commit of a rotation or key command is requested with the record it will hold. -/
def requestKeys (s : State) (slots : Tab KeySlot) : State × Option NoCommit :=
  requestCommit { s with nts := { s.nts with phase := .commit, committed := slots } }
    { by_ := .keyRotation, cls := clsKeys, segs := [0], payload := some (.keys slots s.loam.csig) } true

/-- A commit that is refused or fails: the generations stay, and a rotation is retried (R267). -/
def commitFailed (s : State) : State :=
  let s1 := dropPending { s with nts := { s.nts with phase := .idle } }
  match s.nts.cmd with
  | some .acceptPrev => keyCmdDone s1 2
  | some (.restorePeer _) => keyCmdDone s1 2
  | some _ => keyCmdDone (raiseN { s1 with nts := { s1.nts with retry := true } } 250 0 []) 2
  | none => raiseN { s1 with nts := { s1.nts with retry := true } } 250 0 []

/-- The running state takes the committed slots; a rotation reports its generation (R266). -/
def takeCommitted (s : State) : State :=
  let s1 := resolveConflict { setSlots s s.nts.committed with
    nts := { s.nts with slots := s.nts.committed, phase := .idle, retry := false, first := false,
                        staleDown := s.nts.staleDown && !s.nts.first && match s.nts.cmd with
                          | some (.restorePeer _) => false
                          | _ => true } }
  let rotated := match s.nts.cmd with
    | some .acceptPrev => false
    | some (.restorePeer _) => false
    | _ => true
  let s2 := if rotated then
      match curSlot? s1 with
      | some _ => raiseN s1 249 0 []
      | none => s1
    else s1
  let s3 := match s.nts.cmd with
    | some _ => keyCmdDone s2 0
    | none => s2
  refreshServing s3

/-- Generations that a record to be committed drops are retired before its commit, so that no committed record lacks a
generation still minted under (R273; log entry 94). -/
def keepListed (s : State) (slots : Tab KeySlot) : State :=
  setSlots s (s.nts.slots.filter fun e => slots.any fun x =>
    decide (x.2.id = e.2.id ∧ x.2.key = e.2.key ∧ (x.2.st = .current ∨ x.2.st = .accepted)))

/-- A key command starts, or is refused (R271). -/
def runKeyCmd (s : State) (c : KeyCmd) : State :=
  let s0 : State := { s with nts := { s.nts with cmd := some c, busy := true } }
  match c with
  | .rotateNow =>
    if (curSlot? s).isSome && !s.nts.conflict then beginRotation s0 (some c) false else keyCmdDone s0 1
  | .authNew => beginRotation s0 (some c) true
  | .acceptPrev =>
    match s.nts.conflict, s.loam.prevKeys with
    | true, some (.keys slots _) =>
      let kept := slots.foldl (fun t e => if e.2.st = .pending then t else tput t e.1 e.2) []
      match requestKeys s0 kept with
      | (s1, none) => s1
      | (s1, some _) => commitFailed s1
    | _, _ => keyCmdDone s0 1
  | .restorePeer rec =>
    if paired2 s then
      let stOf := fun (n : Nat) => if n = 1 then SlotState.current else if n = 2 then .accepted else .empty
      let slots := (List.range 8).foldl (fun t k =>
        match rec.keys[k]? with
        | some (id, key, born, st) =>
          tset (fun _ => KeySlot.cold) t k
            (if stOf st = .empty then KeySlot.cold
             else { st := stOf st, id := BitVec.ofNat 32 id, key := beBytes 64 key, born := born })
        | none => t) []
      match requestKeys s0 slots with
      | (s1, none) => refreshServing (keepListed s1 slots)
      | (s1, some _) => commitFailed s1
    else keyCmdDone s0 1
  | .invalid => keyCmdDone s0 1

/-- The next held rotation or key command starts once nothing runs (R269). -/
def runHeld : Nat → State → State
  | 0, s => s
  | n + 1, s =>
    if s.nts.phase ≠ .idle then s
    else match s.nts.held with
      | [] => s
      | none :: rest => beginRotation { s with nts := { s.nts with held := rest } } none (curSlot? s = none)
      | some c :: rest => runHeld n (runKeyCmd { s with nts := { s.nts with held := rest } } c)

/-- What runs has ended; the held ones follow. -/
def ended (s : State) : State := runHeld s.nts.held.length s

/-- A key command is written: it runs, or is held (R269). -/
def keyCmd (s : State) (c : KeyCmd) : State :=
  if s.nts.phase = .idle then ended (runKeyCmd s c)
  else { s with nts := { s.nts with held := s.nts.held ++ [some c], busy := true } }

/-! ## Commands -/

/-- NTS_ROTATION_DUE: the CURRENT generation has reached NTS_ROT_PERIOD, or a first generation is due (R268, R270). A standby
takes its generations from its partner (R274). -/
def execNtsRotationDue (s : State) : Host.Outcome State Fault Refusal :=
  .next <|
    if mitStandby s then s else
    match curSlot? s with
    | some k =>
      if s.nts.conflict = true ∨ nowSec s < (slotOf s k).born + (rd s 0xC00010).toNat then s
      else if s.tb.timeValid = false then { s with nts := { s.nts with dueHeld := true } }
      else beginRotation s none false
    | none =>
      if s.nts.conflict = false ∧ rb s 0xC00000 2 = true ∧ entDelivering s = true then beginRotation s none true else s

/-- NTS_KEY_DRAWN: steps 1 to 3 of R266; a draw waits for ENT (R356). With a first generation every other one is retired
here, before the record that drops it is committed, so that no record lacks a generation still minted under (R271,
R273; log entry 94). -/
def execNtsKeyDrawn (s : State) : Host.Outcome State Fault Refusal :=
  .next <|
    if s.nts.phase ≠ .draw ∨ entDelivering s = false then s
    else
      let n := newSlot s
      let first := s.nts.first || (curSlot? s).isNone
      let key := drbg s 64
      let s1 := takeDrbg s 64
      let id : Word := match curSlot? s1, first with
        | some k, false => (slotOf s1 k).id + 1
        | _, _ => BitVec.ofNat 32 (beNat (drbg s1 4))
      let s2 := if first then takeDrbg s1 4 else s1
      let x : KeySlot := { st := .pending, id := id, key := key, born := nowSec s2 }
      let after := afterRotation s2 n x first
      let s3 := setSlots s2 (tset (fun _ => KeySlot.cold) (if first then [] else s2.nts.slots) n x)
      match requestKeys (refreshServing s3) after with
      | (s4, none) => s4
      | (s4, some _) => ended (commitFailed s4)

/-- A KEYS commit of a rotation or key command still stands in the store's queue. -/
def keysQueued (s : State) : Bool :=
  s.loam.queue.any (fun c => decide (c.by_ = .keyRotation)) ||
  (s.loam.cur.map fun c => decide (c.req.by_ = .keyRotation)).getD false

/-- The record came from the partner itself: RESTORE_PEER waits for no acknowledgement (R271). -/
def fromPeer (s : State) : Bool :=
  match s.nts.cmd with
  | some (.restorePeer _) => true
  | _ => false

/-- NTS_KEYS_COMMITTED: the commit of step 3 has ended; in a Mitten pair the record is mirrored where the lane is up, and
the switch waits for its acknowledgement or for NTS_MIRROR_WAIT (R266, R267). -/
def execNtsKeysCommitted (ok : Bool) (s : State) : Host.Outcome State Fault Refusal :=
  .next <|
    if s.nts.phase ≠ .commit ∨ keysQueued s = true then s
    else if ok = false then ended (commitFailed s)
    else if inPair s && !fromPeer s then
      sendMirror { s with nts := { s.nts with phase := .mirror, waitSerial := s.mit.serial } } clsKeys 0
        (.keys s.nts.committed s.loam.csig)
    else ended (takeCommitted s)

/-- MIRROR_STALE is set (R267). -/
def keysStale (s : State) : State := raiseN { s with nts := { s.nts with stale := true } } 253 0 []

/-- One mirrored record has not been acknowledged in time: MIT_MIRROR_FAIL; unacknowledged KEYS leave the mirror stale
(R267, R421, R431). -/
def mirrorLate (s : State) (e : MirrorOut) : State :=
  let s1 : State := { s with mit := { s.mit with toMirror := s.mit.toMirror.map fun x => if x.serial = e.serial then { x with late := true } else x } }
  raiseN (bump (if e.cls = clsKeys then keysStale s1 else s1) 0x130004C 1) 356 0 []

/-- NTS_MIRROR_WAIT_EXPIRED: of the records whose wait is over, the oldest; a rotation that waits for it completes (R267,
R431). -/
def execNtsMirrorWaitExpired (s : State) : Host.Outcome State Fault Refusal :=
  .next <|
    match s.mit.toMirror.find? fun x => !x.late with
    | none => if s.nts.phase = .mirror then ended (takeCommitted (keysStale s)) else s
    | some e =>
      let s1 := mirrorLate s e
      if s.nts.phase = .mirror ∧ e.serial = s.nts.waitSerial then ended (takeCommitted s1) else s1

/-- NTS_ROTATION_RETRY: 60 s after a failure (R267). -/
def execNtsRotationRetry (s : State) : Host.Outcome State Fault Refusal :=
  .next <|
    if s.nts.retry = true ∧ mitStandby s = false then beginRotation { s with nts := { s.nts with retry := false } } none s.nts.first else s

/-- ROTATE_NOW (R271). -/
def execRotateNow (s : State) : Host.Outcome State Fault Refusal := .next (keyCmd s .rotateNow)

/-- AUTH_NEW (R271). -/
def execAuthNew (s : State) : Host.Outcome State Fault Refusal := .next (keyCmd s .authNew)

/-- ACCEPT_PREV (R271). -/
def execAcceptPrev (s : State) : Host.Outcome State Fault Refusal := .next (keyCmd s .acceptPrev)

/-- RESTORE_PEER (R271). -/
def execRestorePeer (rec : MirrorRec) (s : State) : Host.Outcome State Fault Refusal :=
  .next (keyCmd s (.restorePeer rec))

/-- NTS_KEY_CMD_INVALID: any other code is refused, in its turn (R269, R271). -/
def execNtsKeyCmdInvalid (_code : BitVec 3) (s : State) : Host.Outcome State Fault Refusal :=
  .next (keyCmd s .invalid)

/-! ## The cookie mint (R276 to R278) -/

/-- The body of a mint completion. -/
def mintBody (status count gen : Nat) (tag : Word) : Bytes :=
  leBytes 2 0x0021 ++ [BitVec.ofNat 8 status, BitVec.ofNat 8 count] ++ leBytes 4 gen ++ leBytes 4 tag.toNat

/-- MINT: the first fetched descriptor of a mint ring; `buf` is the host buffer, none where its read failed. The
cookies are written at offset 64, then zeros over the keys (R277). -/
def execMint (r : Fin 256) (buf : Option Bytes) (writeOk : Bool) (s : State) : Host.Outcome State Fault Refusal :=
  .next <|
    match (ringOf s r).fetched with
    | [] => s
    | x :: _ =>
      if r.val < 144 ∨ 151 < r.val then s
      else
        let d := x.desc
        let len := le16 d 8
        let count := byteAt d 11
        let tag := descWord d 4
        let fin := fun (t : State) (st n gen : Nat) => complete t r x.idx stOk (mintBody st n gen tag)
        if le16 d 14 ≠ 0 ∨ leNat (sub d 20 12) ≠ 0 then complete s r x.idx stDescErr (mintBody 0 0 0 tag)
        else if byteAt d 10 ≠ 1 ∨ count = 0 ∨ 8 < count then fin s 5 0 0
        else if le16 d 12 ≠ 15 then fin s 4 0 0
        else if len < 64 + 104 * count then fin s 3 0 0
        else if s.ent.ready = false ∨ poolLevel s < count then fin s 1 0 0
        else match curSlot? s, s.nts.conflict with
          | some k, false =>
            match buf with
            | none => fin (dmaError (hostRead s r x.idx (descAddr d 0) 64) r) 6 0 0
            | some b =>
              let g := slotOf s k
              let s0 := hostRead s r x.idx (descAddr d 0) 64
              let keys := subPad b 0 64
              let cookies := (List.range count).flatMap fun i => mintCookie g keys (nonce s i)
              let s1 := takeNonces s0 count
              if writeOk then
                let s2 := statInc s1 0xC00118 count
                let s3 := hostWrite (hostWrite s2 r x.idx (descAddr d 0 + 64) cookies) r x.idx (descAddr d 0) (List.replicate 64 0)
                fin s3 0 count g.id.toNat
              else
                fin (dmaError (hostWrite s1 r x.idx (descAddr d 0) ((List.range (64 + 104 * count)).map Config.bufferUndefined)) r)
                  6 0 0
          | _, _ => fin s 2 0 0

end Sys2Proof.Machine
end

