-- ==== Sys2Proof/Machine/RspOps.lean ====
section
/-! DEFINITION. The responder's shared operations: profiles, rules, request checks, NTP headers, PTP messages and the
frames that carry them (R217 to R235). -/

namespace Sys2Proof.Machine

/-! ## Profiles (R221, R249) -/

def profA (p : Nat) : Nat := 0xB02000 + 0x20 * p

/-- The words of a profile in force. -/
def profOf (s : State) (p : Nat) : Prof :=
  { ctl := rd s (profA p), ntp := rd s (profA p + 4), rdelay := rd s (profA p + 8), rdisp := rd s (profA p + 0xC),
    ip := rd s (profA p + 0x10), ptp := rd s (profA p + 0x14), ptpint := rd s (profA p + 0x18),
    grant := rd s (profA p + 0x1C) }

def Prof.en (x : Prof) : Bool := flag x.ctl 0
def Prof.proto (x : Prof) : Nat := fld x.ctl 1 2
def Prof.cls (x : Prof) : Nat := fld x.ctl 3 2
def Prof.smear (x : Prof) : Bool := flag x.ctl 5
def Prof.unsync (x : Prof) : Bool := flag x.ctl 6
def Prof.mode67 (x : Prof) : Bool := flag x.ctl 7
def Prof.bcast (x : Prof) : Bool := flag x.ctl 8
def Prof.policy (x : Prof) : Nat := fld x.ctl 9 6
def Prof.ttl (x : Prof) : Nat := fld x.ip 0 8
def Prof.dscp (x : Prof) : Nat := fld x.ip 8 6
def Prof.domain (x : Prof) : Nat := fld x.ptp 0 8
def Prof.kind (x : Prof) : Nat := fld x.ptp 8 3
def Prof.twoStep (x : Prof) : Bool := flag x.ptp 11
def Prof.transport (x : Prof) : Nat := fld x.ptp 12 2
def Prof.unicast (x : Prof) : Bool := flag x.ptp 14

/-- A peer-delay KIND (R231). -/
def Prof.peer (x : Prof) : Bool := decide (1 ≤ x.kind ∧ x.kind ≤ 3)

/-! ## Rules (R217 to R219) -/

def ruleA (r : Nat) : Nat := 0xB01000 + 0x10 * r

def macOf (s : State) (j : Nat) : Bytes :=
  beBytes 2 (fld (rd s (0xB00104 + 8 * j)) 0 16) ++ beBytes 4 (rd s (0xB00100 + 8 * j)).toNat

/-- The VLAN test: the C-tag, by ID, or its absence. -/
def vlanOk (key : Word) (f : Bytes) : Bool :=
  if flag key 12 then true
  else match (parseEth f).cTci with
    | none => flag key 13
    | some t => !flag key 13 && decide (t % 4096 = fld key 0 12)

def ptpGroups : List Bytes :=
  [[224, 0, 1, 129], [224, 0, 0, 107],
   [0xFF, 0x0E, 0, 0, 0, 0, 0, 0, 0, 0, 0, 0, 0, 0, 0x01, 0x81],
   [0xFF, 0x02, 0, 0, 0, 0, 0, 0, 0, 0, 0, 0, 0, 0, 0, 0x6B]]

def macPtp : Bytes := [0x01, 0x1B, 0x19, 0, 0, 0]
def macPeer : Bytes := [0x01, 0x80, 0xC2, 0, 0, 0x0E]

def isUnicastIp (a : Bytes) : Bool := if a.length = 4 then decide (byteAt a 0 < 224) else decide (byteAt a 0 ≠ 255)

/-- The service address entry of a rule (R219). -/
def ruleAddr (s : State) (n e : Nat) : Bytes × Word :=
  if e < 64 then (sa4 s n e, sa4Ctl s n e) else (sa6 s n (e - 64), sa6Ctl s n (e - 64))

/-- Rule r matches a frame of port j. DESIGN CHOICE (log entry 81): on a part with PORT23_ABSENT a rule whose PORT_MASK
names port 2 or 3 beside port 0 or 1 still matches frames of port 0 or 1; R4 can be read as a rule that never matches. -/
def ruleMatch (s : State) (j : Nat) (f : Bytes) (r : Nat) : Bool :=
  let ctl := rd s (ruleA r)
  let key := rd s (ruleA r + 4)
  let mask := fld (rd s (ruleA r + 8)) 0 16
  flag ctl 0 && flag ctl (16 + j) && vlanOk key f &&
  match parseIp f with
  | none =>
    decide (fld ctl 1 2 = 3) && decide ((parseEth f).etype = 0x88F7) &&
      (decide (sub f 0 6 = macPtp) || decide (sub f 0 6 = macPeer) || decide (sub f 0 6 = macOf s j))
  | some p =>
    let dst := match fld ctl 1 2 with
      | 0 => isUnicastIp p.dst
      | 1 =>
        let (a, c) := ruleAddr s (j / 4) (fld ctl 3 7)
        flag c 4 && flag c (j % 4) && decide (a = p.dst)
      | 2 => ptpGroups.contains p.dst
      | _ => false
    dst && (p.frag || (decide (p.proto = 17) && decide (be16 f (p.l4 + 2) &&& mask = fld key 16 16 &&& mask)))

/-- The profile that the lowest-numbered matching rule selects; none while RSP_CTL.EN = 0. -/
def lookupRule (s : State) (j : Nat) (f : Bytes) : Option Nat :=
  if rspEn s = false then none
  else ((List.range 256).find? (ruleMatch s j f)).map fun r => fld (rd s (ruleA r)) 10 6

/-! ## Payloads -/

/-- The application payload of a frame: offset and length; layer 2 PTP, else UDP. -/
def payloadOf (f : Bytes) : Nat × Nat :=
  match parseIp f with
  | none => ((parseEth f).l3, f.length - (parseEth f).l3)
  | some p => if hasUdp p then (p.l4 + 8, be16 f (p.l4 + 4) - 8) else (f.length, 0)

def payload (f : Bytes) : Bytes := sub f (payloadOf f).1 (payloadOf f).2

/-! ## Request checks (R224, R225) -/

/-- What the checks decide. A drop may name its counter. -/
inductive Check where
  | drop (ctr : Option Nat)
  | slow (c0Long : Bool)
  | hostProf
  | answer
  deriving DecidableEq, Repr

def rspCtr (k : Nat) : Nat := 0xB08040 + 4 * k

/-- A drop by the checks is counted; MALFORMED and CKSUM_ERR raise RSP_MALFORMED (R250). -/
def dropCount (s : State) (_j : Nat) (ctr : Option Nat) : State :=
  match ctr with
  | none => s
  | some a => if a = rspCtr 1 ∨ a = rspCtr 2 then raiseN (bump s a 1) 239 0 [] else bump s a 1

/-- The NTP rows of R224. -/
def checkNtp (pr : Prof) (sport : Nat) (q : Bytes) : Check :=
  let vn := byteAt q 0 / 8 % 8
  let mode := byteAt q 0 % 8
  if sport = 0 ∨ q.length < 48 ∨ (q.length - 48) % 4 ≠ 0 then .drop (some (rspCtr 1))
  else if (vn ≠ 3 ∧ vn ≠ 4) ∨ mode = 1 ∨ mode = 2 ∨ mode = 5 then .slow false
  else if mode = 6 ∨ mode = 7 then (if pr.mode67 then .slow false else .drop (some (rspCtr 4)))
  else if mode = 0 ∨ mode = 4 then .drop (some (rspCtr 1))
  else if q.length = 68 ∨ q.length = 72 then .slow false
  else if extFields q = none then .drop (some (rspCtr 1))
  else .answer

/-- The shortest PTP message of a type. -/
def ptpMin (typ : Nat) : Nat :=
  match typ with
  | 0 => 44
  | 1 => 44
  | 2 => 54
  | 3 => 54
  | 8 => 44
  | 9 => 54
  | 10 => 54
  | 11 => 64
  | 12 => 44
  | 13 => 48
  | _ => 34

/-- The TLVs of a Signaling message: type, offset of the value, length. -/
def tlvs (b : Bytes) : Nat → Nat → List (Nat × Nat × Nat)
  | 0, _ => []
  | n + 1, o =>
    if o + 4 ≤ b.length then
      let l := be16 b (o + 2)
      if o + 4 + l ≤ b.length then (be16 b o, o + 4, l) :: tlvs b n (o + 4 + l) else []
    else []

/-- The unicast-negotiation TLVs of a Signaling message (R231): REQUEST and CANCEL. -/
def negTlvs (b : Bytes) : List (Nat × Nat × Nat) :=
  (tlvs b (b.length / 4) 44).filter fun t => decide ((t.1 = 4 ∧ 6 ≤ t.2.2) ∨ (t.1 = 6 ∧ 2 ≤ t.2.2))

/-- The address of a frame's sender: MAC, then IP. -/
def peerOf (f : Bytes) : Bytes :=
  sub f 6 6 ++ match parseIp f with
    | some p => p.src
    | none => []

def grantOf (s : State) (g : Nat) : Grant := tget (fun _ => Grant.cold) s.rsp.grants g

def setGrant (s : State) (g : Nat) (x : Grant) : State :=
  { s with rsp := { s.rsp with grants := tset (fun _ => Grant.cold) s.rsp.grants g x } }

/-- The live grant of a peer and message type. -/
def grantFind (s : State) (j p : Nat) (peer : Bytes) (typ : Nat) : Option Nat :=
  (s.rsp.grants.find? fun e => e.2.live && decide (e.2.j = j ∧ e.2.prof = p ∧ e.2.peer = peer ∧ e.2.typ = typ)).map (·.1)

/-- Port j and profile p are the time-receiver port (R85, R237). -/
def isTimeRx (s : State) (j p : Nat) : Bool :=
  rb s 0x400210 0 && decide (rf s 0x400210 1 4 = j) && decide (rf s 0x400210 5 6 = p)

/-- The PTP rows of R224, and R225 for Delay_Req. -/
def checkPtp (s : State) (j p : Nat) (pr : Prof) (f : Bytes) : Check :=
  let b := payload f
  let typ := byteAt b 0 % 16
  let len := be16 b 2
  if byteAt b 1 % 16 ≠ 2 ∨ byteAt b 4 ≠ pr.domain then .slow false
  else if len < ptpMin typ ∨ b.length < len then .drop (some (rspCtr 1))
  else if isTimeRx s j p then .slow false
  else if typ = 1 then
    if pr.peer then .slow false
    else if flag pr.ptp 15 = true ∧ grantFind s j p (peerOf f) 9 = none then .drop (some (rspCtr 5))
    else if s.tb.timeValid = false then .drop (some (rspCtr 0))
    else .answer
  else if typ = 2 then (if pr.peer then .answer else .slow false)
  else if typ = 12 then
    if pr.peer ∨ (negTlvs (b.take len)).isEmpty then .slow false else .answer
  else .slow false

/-- R224 and R225, row by row. The frame is without FCS. The time receiver's profile answers nothing on its port, whatever
its PROTO: the host gets what it would answer (R237). -/
def checkRequest (s : State) (j p : Nat) (f : Bytes) : Check :=
  let pr := profOf s p
  let ip := parseIp f
  if (ip.map (checksumBad f)).getD false then .drop (some (rspCtr 2))
  else if (ip.map fun k => k.frag || k.options || k.ext).getD false then .slow false
  else if pr.proto = 3 then .hostProf
  else if pr.cls = 0 ∧ 128 < f.length + 4 then .slow true
  else if pr.proto = 2 then checkPtp s j p pr f
  else
    let sport := match ip with
      | some k => be16 f k.l4
      | none => 0
    match checkNtp pr sport (payload f) with
    | .answer =>
      if isTimeRx s j p then .slow false
      else if pr.proto = 1 then
        match ntsDown s with
        | none => .answer
        | some c => .drop c
      else if s.tb.timeValid = false ∧ pr.unsync = false then .drop (some (rspCtr 0))
      else .answer
    | c => c

/-! ## NTP headers (R227 to R229, R260) -/

/-- A leap is announced during its UTC day (R61, R62): +1 or -1, else 0; `lead` is the lead time in seconds. -/
def leapFlag (s : State) (lead : Int) : Int :=
  match leapInForce s with
  | some l =>
    if (l.at_ : Int) + l.old - lead ≤ nowSec s ∧ (nowSec s : Int) < (l.at_ : Int) + l.new then l.new - l.old else 0
  | none => 0

/-- The LI field (R61, R62). -/
def leapLi (s : State) : Nat :=
  let x := leapFlag s 86400
  if 0 < x then 1 else if x < 0 then 2 else 0

/-- currentUtcOffset of PTP: the old offset until L (R61). -/
def ptpUtc (s : State) : Int :=
  match leapInForce s with
  | some l => if (nowSec s : Int) < (l.at_ : Int) + l.new then l.old else utcOfs s
  | none => utcOfs s

/-- The reference ID (R229). -/
def refId (s : State) : Nat :=
  if servoSource s = 8 ∨ servoSource s = 9 then (Config.peerRefId s.tb.ticks).toNat
  else
    let i := if s.ref.tsel < 4 then s.ref.tsel else s.ref.lastSel
    if i < 4 then (rd s (0xB00020 + 4 * i)).toNat else 0

/-- The served root dispersion (R228). -/
def rootDisp (s : State) (pr : Prof) : Nat := min full (ceilDiv (s.dpl.hoErr * 65536) (10 ^ 9) + pr.rdisp.toNat)

/-- The three columns of R227. -/
inductive NtpCol where
  | served | unsync | kod
  deriving DecidableEq, Repr

def clampNat (x lo hi : Int) : Int := max lo (min hi x)

/-- The 48-byte header of a reply; the transmit timestamp is 0. -/
def ntpHeader (s : State) (pr : Prof) (col : NtpCol) (q : Bytes) (rx : Nat) : Bytes :=
  let vn := byteAt q 0 / 8 % 8
  let poll := signed 8 (byteAt q 2)
  let served := clampNat poll (sfld pr.ntp 8 8) (sfld pr.ntp 16 8)
  let kodPoll := min 17 (max poll (polKodPoll s pr.policy))
  let li := match col with
    | .served => if pr.smear then 0 else leapLi s
    | _ => 3
  let stratum := match col with
    | .served => fld pr.ntp 0 8
    | .unsync => 16
    | .kod => 0
  let rxb := match col with
    | .kod => 0
    | _ => ntpStamp s pr.smear rx
  let mid := match col with
    | .served => beBytes 4 pr.rdelay.toNat ++ beBytes 4 (rootDisp s pr) ++ beBytes 4 (refId s)
        ++ beBytes 8 (ntpFine s pr.smear (s.tb.lastUpdate / 2 ^ 48))
    | .unsync => beBytes 4 0 ++ beBytes 4 0x00100000 ++ beBytes 4 0x494E4954 ++ beBytes 8 0
    | .kod => beBytes 4 0 ++ beBytes 4 0 ++ beBytes 4 0x52415445 ++ beBytes 8 0
  [BitVec.ofNat 8 (li * 64 + vn * 8 + 4), BitVec.ofNat 8 stratum,
   BitVec.ofNat 8 (twos 8 (match col with | .kod => kodPoll | _ => served)), 0xE3]
  ++ mid ++ subPad q 40 8 ++ beBytes 8 rxb ++ beBytes 8 0

/-- The header of a KoD NTSN reply (R260). -/
def ntsnHeader (q : Bytes) : Bytes :=
  [BitVec.ofNat 8 (0xC0 + byteAt q 0 / 8 % 8 * 8 + 4), 0, BitVec.ofNat 8 (byteAt q 2), 0xE3]
  ++ List.replicate 8 0 ++ beBytes 4 0x4E54534E ++ List.replicate 8 0 ++ subPad q 40 8 ++ List.replicate 16 0

/-! ## Reply frames (R208, R226) -/

/-- The checksum method of a frame with a field written at egress; `none` is PLANNED. -/
def csumMethod (s : State) (j : Nat) (v6 : Bool) (cls : Nat) : Option Csum :=
  let m := if v6 then rf s (tsA j) 2 2 else rf s (tsA j) 0 2
  if m = 2 then (if cls = 0 then some .pad else none)
  else if m = 1 then some .zero else some .pad

/-- A UDP reply to a request: addresses and ports exchanged, tags copied. -/
def udpReply (s : State) (j : Nat) (pr : Prof) (f : Bytes) (p : Pkt) (m : Csum) (body : Bytes) : Bytes :=
  ethFrame (sub f 6 6) (macOf s j) (tagBytes f) (parseEth f).etype
    (udpIp p.dst p.src (be16 f (p.l4 + 2)) (be16 f p.l4) pr.ttl pr.dscp m body)

/-- Wire bytes of a built frame: padded, with FCS, preamble and gap. -/
def wireBytes (f : Bytes) : Nat := max 60 f.length + 24

/-- An item that a lane or the scheduler queues. -/
def txItem (cls : Nat) (frame : Bytes) (src : TxSrc) (ins : Insert) (req : Nat) : TxItem :=
  { cls := cls, frame := frame, src := src, launch := none, tol := 0, ins := ins, req := req, stamp := 0 }

/-! ## PTP messages (R231 to R235) -/

/-- RSP_CLOCK_ID. -/
def clockId (s : State) : Bytes := beBytes 4 (rd s 0xB00014).toNat ++ beBytes 4 (rd s 0xB00010).toNat

def portId (s : State) (j : Nat) : Bytes := clockId s ++ beBytes 2 (j + 1)

/-- controlField of a message type. -/
def ptpControl (typ : Nat) : Nat :=
  match typ with
  | 0 => 0
  | 1 => 1
  | 8 => 2
  | 9 => 3
  | 13 => 4
  | _ => 5

/-- A PTP message: header (34 bytes) and body. -/
def ptpMsg (s : State) (j : Nat) (typ dom sdo flags corr seq : Nat) (log : Int) (body : Bytes) : Bytes :=
  [BitVec.ofNat 8 (sdo * 16 + typ), 0x12] ++ beBytes 2 (34 + body.length) ++ [BitVec.ofNat 8 dom, 0]
  ++ beBytes 2 flags ++ beBytes 8 corr ++ beBytes 4 0 ++ portId s j ++ beBytes 2 seq
  ++ [BitVec.ofNat 8 (ptpControl typ), BitVec.ofNat 8 (twos 8 log)] ++ body

/-- majorSdoId of messages the device originates: 1 under gPTP, else 0. -/
def sdoOf (pr : Prof) : Nat := if pr.kind = 2 then 1 else 0

/-- The MAC address of an IP group. -/
def groupMac (a : Bytes) : Bytes :=
  if a.length = 4 then [0x01, 0x00, 0x5E, BitVec.ofNat 8 (byteAt a 1 % 128)] ++ sub a 2 2 else [0x33, 0x33] ++ sub a 12 4

/-- The service address a port sends from: that of the lowest enabled rule that selects the profile with
DSEL = 0b01, else the first enabled one of the family (R230). -/
def profAddr (s : State) (j p : Nat) (v6 : Bool) : Option Bytes :=
  let ofRule := (List.range 256).findSome? fun r =>
    let ctl := rd s (ruleA r)
    if flag ctl 0 = true ∧ fld ctl 1 2 = 1 ∧ fld ctl 10 6 = p ∧ flag ctl (16 + j) = true then
      let a := (ruleAddr s (j / 4) (fld ctl 3 7)).1
      if decide (a.length = 16) = v6 then some a else none
    else none
  match ofRule with
  | some a => some a
  | none => (List.range 64).findSome? fun k =>
      let c := if v6 then sa6Ctl s (j / 4) k else sa4Ctl s (j / 4) k
      if flag c 4 = true ∧ flag c (j % 4) = true then some (if v6 then sa6 s (j / 4) k else sa4 s (j / 4) k) else none

/-- Where a PTP message goes: MAC and, over UDP, source and destination addresses. -/
structure PtpDst where
  mac : Bytes
  ips : Option (Bytes × Bytes)
  deriving DecidableEq, Repr

/-- The multicast destination of R234. -/
def ptpGroup (s : State) (j p : Nat) (pr : Prof) (peer : Bool) : PtpDst :=
  if pr.transport = 0 ∨ pr.kind = 2 then { mac := if peer || decide (pr.kind = 2) then macPeer else macPtp, ips := none }
  else
    let v6 := decide (pr.transport = 2)
    let g := ptpGroups.getD ((if v6 then 2 else 0) + if peer then 1 else 0) []
    { mac := groupMac g, ips := some ((profAddr s j p v6).getD (List.replicate g.length 0), g) }

/-- A unicast destination given as MAC, then IP. -/
def ptpPeer (s : State) (j p : Nat) (peer : Bytes) : PtpDst :=
  let ip := peer.drop 6
  { mac := peer.take 6,
    ips := if ip = [] then none
      else some ((profAddr s j p (decide (ip.length = 16))).getD (List.replicate ip.length 0), ip) }

/-- The IP version of a profile's TRANSPORT; none on layer 2, which gPTP always uses (R231, R234). -/
def Prof.ipLen (x : Prof) : Option Nat :=
  if x.transport = 0 ∨ x.kind = 2 then none else if x.transport = 2 then some 16 else some 4

/-- The destination of a reply: the group for a request to a group, else the request's source, over the profile's
TRANSPORT (R231). A unicast request that came over another transport has no source address of that TRANSPORT: a layer 2
profile answers its MAC, an IP profile answers over the transport of the request (DESIGN CHOICE, log entry 95). -/
def ptpReplyDst (s : State) (j p : Nat) (pr : Prof) (f : Bytes) (peer : Bool) : PtpDst :=
  match parseIp f with
  | none => if byteAt f 0 % 2 = 1 then ptpGroup s j p pr peer else { mac := sub f 6 6, ips := none }
  | some k =>
    if isUnicastIp k.dst then
      { mac := sub f 6 6, ips := if pr.ipLen = none then none else some (k.dst, k.src) }
    else ptpGroup s j p pr peer

/-- A PTP message as a frame: PTP event port 319 or general port 320 over UDP. -/
def ptpFrame (s : State) (j : Nat) (pr : Prof) (d : PtpDst) (tags : Bytes) (event : Bool) (m : Csum) (msg : Bytes) : Bytes :=
  match d.ips with
  | none => ethFrame d.mac (macOf s j) tags 0x88F7 msg
  | some (src, dst) =>
    let port := if event then 319 else 320
    ethFrame d.mac (macOf s j) tags (ipEtype dst) (udpIp src dst port port pr.ttl pr.dscp m msg)

/-- The offset of the PTP message in a frame built so. -/
def ptpOff (d : PtpDst) (tags : Bytes) : Nat :=
  14 + tags.length + match d.ips with
    | none => 0
    | some (_, a) => if a.length = 16 then 48 else 28

/-- A PTP message with fields written at egress: frame, trailer offset and planned departure (R208, R209, R211). -/
def ptpTimed (s : State) (j : Nat) (pr : Prof) (d : PtpDst) (tags : Bytes) (msg : Bytes) : Bytes × Option Nat × Bool :=
  match d.ips with
  | none => (ptpFrame s j pr d tags true .full msg, none, false)
  | some (_, a) =>
    match csumMethod s j (decide (a.length = 16)) pr.cls with
    | some .pad => (ptpFrame s j pr d tags true .pad (msg ++ [0, 0]), some (ptpOff d tags + msg.length), false)
    | some m => (ptpFrame s j pr d tags true m msg, none, false)
    | none => (ptpFrame s j pr d tags true .full msg, none, true)

/-- NTS_LEAD in 1/16 ns. -/
def leadT16 (s : State) : Nat := (rd s 0xC00014).toNat * 16

/-- The stamp at which a planned frame departs. -/
def plannedT16 (s : State) : Nat := nowT16 s + leadT16 s

end Sys2Proof.Machine
end

