-- ==== Sys2Proof/Machine/PtpRx.lean ====
section
/-! DEFINITION. The time-receiver port: foreign grandmasters, Sync, delay exchanges and the offset they yield (R85,
R90, R237 to R239). -/

namespace Sys2Proof.Machine

def timeRxPort (s : State) : Nat := rf s 0x400210 1 4
def timeRxProf (s : State) : Nat := rf s 0x400210 5 6

/-- A PTP message on the time-receiver port that the responder consumes (R237): version 2, the profile's domain, one
of six types, not cut short and no fragment (R535). -/
def isPtpRx (s : State) (j : Nat) (f : Bytes) : Bool :=
  let b := payload f
  let pkt := match parseIp f with
    | none => decide ((parseEth f).etype = 0x88F7)
    | some p => hasUdp p && !p.frag && (decide (be16 f (p.l4 + 2) = 319) || decide (be16 f (p.l4 + 2) = 320)) && !checksumBad f p
  rb s 0x400210 0 && decide (timeRxPort s = j) && pkt && [0, 3, 8, 9, 10, 11].contains (byteAt b 0 % 16)
  && decide (byteAt b 1 % 16 = 2) && decide (byteAt b 4 = (profOf s (timeRxProf s)).domain)
  && decide (ptpMin (byteAt b 0 % 16) ≤ be16 b 2) && decide (be16 b 2 ≤ b.length)

/-- The QL of a clockClass (R90). -/
def classQl (c : Nat) : Nat :=
  if [6, 13].contains c then 1 else if [7, 14].contains c then 8 else if [135, 140].contains c then 9
  else if c = 150 then 10 else if [160, 165, 248].contains c then 11 else 15

/-- A timestamp of a message in 1/16 ns. -/
def ptpT16 (b : Bytes) (o : Nat) : Nat := (beNat (subPad b o 6) * 10 ^ 9 + be32 b (o + 6)) * 16

/-- The correctionField of a message in 1/16 ns. -/
def corrT16 (b : Bytes) : Int := signed 64 (be64 b 8) / 4096

/-- Announce intervals of a message in ticks. -/
def logTicks (l : Int) (n : Nat) : Nat :=
  if 0 ≤ l then n * ticksPerSec * 2 ^ l.toNat else n * ticksPerSec / 2 ^ (-l).toNat

/-- The sender at place i qualifies (R238); the selected one stays qualified until its receipt timeout. -/
def fmQualified (s : State) (i : Nat) (x : Foreign) : Bool :=
  decide (2 ≤ x.seen) && (decide (s.rsp.fsel = some i) || decide (s.tb.ticks ≤ x.last + x.window))

/-- The IEEE 1588-2019 dataset comparison: of two data sets of one grandmaster the fewer steps removed and then the lower
sender, else the lower of priority1, clock class, accuracy, variance, priority2 and identity, in this order (R238; the
standard's algorithm, PRESUMED, log entry 16). -/
def datasetBetter (x y : Foreign) : Bool :=
  if sub x.dataset 6 8 = sub y.dataset 6 8 then
    decide (beNat (sub x.dataset 14 2 ++ x.port) < beNat (sub y.dataset 14 2 ++ y.port))
  else decide (beNat (x.dataset.take 14) < beNat (y.dataset.take 14))

/-- The best of the qualified senders, by index. -/
def fmBest (s : State) : Nat → List Foreign → Option (Nat × Foreign) → Option (Nat × Foreign)
  | _, [], best => best
  | i, x :: xs, best =>
    let b := if fmQualified s i x then
        match best with
        | none => some (i, x)
        | some (k, y) => if datasetBetter x y then some (i, x) else some (k, y)
      else best
    fmBest s (i + 1) xs b

/-- Selection among the foreign grandmasters; a change is reported (R238). -/
def fmSelect (s : State) : State :=
  let sel := (fmBest s 0 s.rsp.foreign none).map (·.1)
  if sel = s.rsp.fsel then s
  else
    let rx := { s.rsp.rx with syncT1 := none, syncT2 := none, mpd := none }
    raiseN { s with rsp := { s.rsp with fsel := sel, rx := rx } } 236 0 []

/-- The selected sender. -/
def fmCur? (s : State) : Option Foreign :=
  match s.rsp.fsel with
  | some i => s.rsp.foreign[i]?
  | none => none

/-- What the selected grandmaster states reaches REF: QL and UTC; with none the QL is 15 (R59, R60, R90). -/
def fmFeed (s : State) : State :=
  match fmCur? s with
  | none => takeQl s 3 15 (candOf s 3).raw
  | some x => takeUtc (takeQl s 3 (classQl x.clockClass) x.clockClass) 3 (some x.utcOfs) x.leap61 x.leap59

/-- An Announce message (R238). A ninth sender takes the place of the first one that is not qualified. -/
def rxAnnounce (s : State) (f b : Bytes) : State :=
  let id := sub b 20 10
  let old := s.rsp.foreign.find? fun x => decide (x.port = id)
  let win := logTicks (clampInt (-8) 8 (signed 8 (byteAt b 33))) 4
  let seen := match old with
    | some x => if s.tb.ticks ≤ x.last + win ∨ (fmCur? s).map (·.port) = some id then x.seen + 1 else 1
    | none => 1
  let fl := byteAt b 7
  let x : Foreign :=
    { port := id, dataset := sub b 47 16, clockClass := byteAt b 48, seen := seen, last := s.tb.ticks, window := win,
      addr := peerOf f, utcOfs := signed 16 (be16 b 44), leap61 := decide (fl % 2 = 1),
      leap59 := decide (fl / 2 % 2 = 1) }
  let place := match s.rsp.foreign.findIdx? (fun y => decide (y.port = id)) with
    | some i => some i
    | none =>
      if s.rsp.foreign.length < 8 then some s.rsp.foreign.length
      else (List.range 8).find? fun k => (s.rsp.foreign[k]?.map fun y => !fmQualified s k y).getD false
  match place with
  | none => s
  | some i =>
    let l := if i < s.rsp.foreign.length then s.rsp.foreign.set i x else s.rsp.foreign ++ [x]
    let s1 := fmSelect { s with rsp := { s.rsp with foreign := l } }
    if s1.rsp.fsel = some i ∨ s1.rsp.fsel ≠ s.rsp.fsel then fmFeed s1 else s1

/-- A completed delay exchange yields an offset: e = t2 − t1 − correction − meanPathDelay (R239). -/
def exchangeDone (s : State) (mpd : Int) : State :=
  let s1 : State := { s with rsp := { s.rsp with rx := { s.rsp.rx with mpd := some mpd, reqT3 := none } } }
  match s1.rsp.rx.syncT2, s1.rsp.rx.syncT1 with
  | some t2, some t1 =>
    let s2 := setCand s1 3 { candOf s1 3 with presTime := true }
    takeOffset s2 3 ((t2 : Int) - t1 - s1.rsp.rx.syncCorr - mpd)
  | _, _ => s1

/-- A message of the selected grandmaster, or of a peer, on the time-receiver port; `t` is its ingress stamp. -/
def ptpReceive (s : State) (f : Bytes) (t : Nat) : State :=
  let b := payload f
  let typ := byteAt b 0 % 16
  let seq := be16 b 30
  let rx := s.rsp.rx
  let mine := decide (sub b 44 10 = portId s (timeRxPort s))
  let ofGm := match fmCur? s with
    | some x => decide (x.port = sub b 20 10)
    | none => false
  let put := fun (r : PtpRx) => ({ s with rsp := { s.rsp with rx := r } } : State)
  if typ = 11 then rxAnnounce s f b
  else if typ = 0 then
    if ofGm = false then s
    else if byteAt b 6 / 2 % 2 = 1 then
      put { rx with syncT2 := some t, syncT1 := none, syncCorr := corrT16 b, syncSeq := seq }
    else put { rx with syncT2 := some t, syncT1 := some (ptpT16 b 34), syncCorr := corrT16 b, syncSeq := seq }
  else if typ = 8 then
    if ofGm = true ∧ seq = rx.syncSeq ∧ rx.syncT2 ≠ none ∧ rx.syncT1 = none then
      put { rx with syncT1 := some (ptpT16 b 34), syncCorr := rx.syncCorr + corrT16 b }
    else s
  else if typ = 9 then
    match rx.reqT3, rx.syncT2, rx.syncT1 with
    | some t3, some t2, some t1 =>
      if mine = true ∧ ofGm = true ∧ seq = rx.reqSeq then
        let t4 : Int := ptpT16 b 34
        exchangeDone s ((((t2 : Int) - t3) + (t4 - t1) - rx.syncCorr - corrT16 b) / 2)
      else s
    | _, _, _ => s
  else if typ = 3 then
    match rx.reqT3 with
    | some t1 =>
      if mine = true ∧ seq = rx.reqSeq then
        if byteAt b 6 / 2 % 2 = 1 then
          put { rx with pdT4 := some t, pdT2 := ptpT16 b 34, pdCorr := corrT16 b }
        else exchangeDone s (((t : Int) - t1 - corrT16 b) / 2)
      else s
    | none => s
  else
    match rx.reqT3, rx.pdT4 with
    | some t1, some t4 =>
      if mine = true ∧ seq = rx.reqSeq then
        let s1 := put { rx with pdT4 := none }
        exchangeDone s1 (((t4 : Int) - t1 - ((ptpT16 b 34 : Int) - rx.pdT2) - rx.pdCorr - corrT16 b) / 2)
      else s
    | _, _ => s

/-- The receipt timeout of a sender in ticks: ANN_TIMEOUT of its announce intervals, 4 of which are its window (R238). -/
def annTimeout (s : State) (x : Foreign) : Nat := x.window * fld (profOf s (timeRxProf s)).grant 24 4 / 4

/-- RSP_PTP_ANN_TIMEOUT: no Announce from the selected sender for its timeout (R90, R238). -/
def execRspPtpAnnTimeout (s : State) : Host.Outcome State Fault Refusal :=
  .next <|
    match s.rsp.fsel with
    | none => takeQl s 3 15 (candOf s 3).raw
    | some i =>
      if ((s.rsp.foreign[i]?).map fun x => decide (s.tb.ticks < x.last + annTimeout s x)).getD false then s
      else
        let l := match s.rsp.foreign[i]? with
          | some x => s.rsp.foreign.set i { x with seen := 0 }
          | none => s.rsp.foreign
        fmFeed (fmSelect (raiseN { s with rsp := { s.rsp with foreign := l } } 237 0 []))

/-- PTP_DELAY_REQ_SLOT: Delay_Req, or Pdelay_Req under a peer-delay KIND (R239). -/
def execPtpDelayReqSlot (s : State) : Host.Outcome State Fault Refusal :=
  .next <|
    if rb s 0x400210 0 = false then s
    else
      let j := timeRxPort s
      let p := timeRxProf s
      let pr := profOf s p
      let seq := (s.rsp.rx.reqSeq + 1) % 65536
      let d := match fmCur? s, pr.unicast, pr.peer with
        | some x, true, false => ptpPeer s j p x.addr
        | _, _, _ => ptpGroup s j p pr pr.peer
      let log := sfld pr.ptpint 16 8
      let msg := if pr.peer then ptpMsg s j 2 pr.domain (sdoOf pr) 0 0 seq log (List.replicate 20 0)
        else ptpMsg s j 1 pr.domain (sdoOf pr) 0 0 seq log (List.replicate 10 0)
      if (portOf s j).up = false then s
      else
        let rx := { s.rsp.rx with reqSeq := seq, reqT3 := none, pdT4 := none }
        enqueue { s with rsp := { s.rsp with rx := rx } } j
          (txItem pr.cls (ptpFrame s j pr d [] true .full msg) .sched .delayReq 0)

end Sys2Proof.Machine
end

