-- ==== Sys2Proof/Machine/Receive.lean ====
section
/-! DEFINITION. FRAME_RECEIVED: the path of a frame from its size check to a lane, a host ring, REF, the time-receiver
port or its drop (R18, R168, R177, R217 to R225, R240, R241, R282 to R294). -/

namespace Sys2Proof.Machine

/-- Where a frame goes. `prof` is the profile that matched it, if one did. -/
inductive Route where
  | consumed                 -- in-band heartbeat (R422)
  | esmc
  | ptpRx
  | arp
  | nd
  | host (reason : Nat)
  | slow (c0Long : Bool)
  | hostProf
  | drop (ctr : Option Nat)
  | answer
  deriving DecidableEq, Repr

/-- Frames that end at a host ring. -/
def Route.toHost : Route → Bool
  | .host _ => true
  | .slow _ => true
  | .hostProf => true
  | .arp => true
  | .nd => true
  | _ => false

/-- An in-band heartbeat of the partner (R422). -/
def isInband (s : State) (j : Nat) (f : Bytes) : Bool :=
  let e := parseEth f
  rb s 0x1300014 0 && decide (rf s 0x1300014 1 4 = j) && decide (e.etype = 0x88B6)
  && decide (sub f 0 6 = List.replicate 6 0xFF) && decide ((e.cTci.getD 0) % 4096 = rf s 0x1300014 5 12)
  && e.cTci.isSome

/-- An ESMC PDU: slow protocol subtype 10 of the ITU (R84). -/
def isEsmc (f : Bytes) : Bool :=
  let e := parseEth f
  decide (e.etype = 0x8809) && decide (byteAt f e.l3 = 10)

/-- A SyncE candidate names the port (R84). -/
def syncePorts (s : State) (j : Nat) : List Nat := [0, 1].filter fun k => decide (rf s (0x400200 + 4 * k) 0 4 = j)

/-- The profile and the route of a frame without FCS, filters apart. -/
def routeOf (s : State) (j : Nat) (f : Bytes) : Option Nat × Route :=
  let e := parseEth f
  if isInband s j f then (none, .consumed)
  else if isEsmc f then (none, if (syncePorts s j).isEmpty then .host 6 else .esmc)
  else if isPtpRx s j f then (none, .ptpRx)
  else if e.etype = 0x0806 then (none, .arp)
  else if ((parseIp f).map fun p => p.v6 && decide (p.proto = 58)).getD false then (none, .nd)
  else match lookupRule s j f with
    | none => (none, .host (if (parseIp f).isSome || decide (e.etype = 0x88F7) then 0 else 7))
    | some p =>
      if (profOf s p).en = false then (some p, .host 3)
      else match checkRequest s j p f with
        | .drop c => (some p, .drop c)
        | .slow c => (some p, .slow c)
        | .hostProf => (some p, .hostProf)
        | .answer => (some p, .answer)

/-- A frame is delivered to the host in the class of R173, through the receive buffer (R181, R319). -/
def toHost (s : State) (j : Nat) (frame : Bytes) (prof : Option Nat) (reason t : Nat) (ok : Bool) : State :=
  let maxLen := (rd s (lpA j + 4)).toNat
  let c := hostClass s j frame
  let s1 := holdForHost (occAdd s j c frame.length) j c frame.length
  deliverHost s1 (steerRing s j c) (frame.take maxLen)
    { port := j, cls := c, reason := reason, prof := prof, stamp := some t, strip := rf s (lpA j) 6 2,
      oversize := decide (maxLen < frame.length), ok := ok }

/-! ## Address answering (R240, R241, R294) -/

def addrConflict (s : State) (_j : Nat) : State := raiseN (bump s (rspCtr 9) 1) 234 0 []

/-- An answer leaves in class 3, within GNT_ADDR_MAX of the millisecond; the answer to a probe is a conflict. Beyond the
limit the request is dropped with neither (R241, R294). -/
def addrAnswer (s : State) (j t : Nat) (frame : Bytes) (probe : Bool) : State :=
  match windowTake s.gnt.addrWin j (t / 16000000) (rd s 0xD00014).toNat with
  | none => raiseLim (bump s 0xD02064 1) 261 j j [j]
  | some w =>
    let s1 := enqueue { s with gnt := { s.gnt with addrWin := w } } j (txItem 3 frame (.reply .addr) .none t)
    if probe then addrConflict s1 j else s1

/-- An ARP frame that the responder answers or takes as a conflict (R240, R241). -/
def arpMine (s : State) (j : Nat) (f : Bytes) : Bool :=
  let o := (parseEth f).l3
  rspEn s && decide (o + 28 ≤ f.length) && decide (be16 f o = 1) && decide (be16 f (o + 2) = 0x0800) &&
  ((isMine s j (subPad f (o + 14) 4) && decide (sub f (o + 8) 6 ≠ macOf s j)) ||
   (decide (be16 f (o + 6) = 1) && isMine s j (subPad f (o + 24) 4)))

/-- An ICMPv6 frame that the responder answers or takes as a conflict. -/
def ndMine (s : State) (j : Nat) (f : Bytes) : Bool :=
  match parseIp f with
  | none => false
  | some p =>
    let seg := sub f p.l4 p.l4Len
    rspEn s && decide (p.hop = 255) && decide (24 ≤ seg.length) && !p.frag && decide (byteAt seg 1 = 0) &&
      l4SumGood p seg && isMine s j (subPad seg 8 16) &&
      (decide (byteAt seg 0 = 135) || (decide (byteAt seg 0 = 136) && decide (sub f 6 6 ≠ macOf s j)))

/-- An ARP frame: a claim to a service address is a conflict, and a request for one is answered (R240, R241); `toRing` is what becomes of it on the slow path. -/
def arpFrame (s : State) (j t : Nat) (f : Bytes) (toRing : State → State) : State :=
  let o := (parseEth f).l3
  let sha := sub f (o + 8) 6
  let spa := subPad f (o + 14) 4
  let tpa := subPad f (o + 24) 4
  let probe := decide (spa = [0, 0, 0, 0])
  if arpMine s j f = false then toRing s
  else
    let s1 := if isMine s j spa = true ∧ sha ≠ macOf s j then addrConflict s j else s
    let mac := macOf s j
    let dst := if probe then List.replicate 6 (0xFF : Byte) else sha
    let body := beBytes 2 1 ++ beBytes 2 0x0800 ++ [6, 4] ++ beBytes 2 2 ++ mac ++ tpa ++ sha ++ spa
    if be16 f (o + 6) = 1 ∧ isMine s j tpa = true then
      addrAnswer s1 j t (ethFrame dst mac (tagBytes f) 0x0806 body) probe
    else s1

def allNodes : Bytes := [0xFF, 0x02, 0, 0, 0, 0, 0, 0, 0, 0, 0, 0, 0, 0, 0, 1]

/-- An ICMPv6 frame. -/
def ndFrame (s : State) (j t : Nat) (f : Bytes) (toRing : State → State) : State :=
  match parseIp f, ndMine s j f with
  | some p, true =>
    let seg := sub f p.l4 p.l4Len
    let target := subPad seg 8 16
    if byteAt seg 0 = 136 then addrConflict s j
    else
      let mac := macOf s j
      let probe := decide (beNat p.src = 0)
      let (dmac, dip) := if probe then (groupMac allNodes, allNodes) else (sub f 6 6, p.src)
      let b0 : Bytes := [136, 0, 0, 0] ++ beBytes 4 0x60000000 ++ target ++ [2, 1] ++ mac
      let b1 := putBytes b0 2 (beBytes 2 (inetSum (pseudo true target dip 58 b0.length ++ b0)))
      addrAnswer s j t
        (ethFrame dmac mac (tagBytes f) 0x86DD (ip6Header target dip 255 0 58 b1.length ++ b1)) probe
  | _, _ => toRing s

/-! ## ESMC (R84, R88) -/

/-- The SSM and the extended SSM of an ESMC PDU. -/
def esmcCodes (f : Bytes) : Nat × Option Nat :=
  let o := (parseEth f).l3
  (byteAt f (o + 13) % 16, if byteAt f (o + 14) = 2 ∧ o + 18 ≤ f.length then some (byteAt f (o + 17)) else none)

/-! ## Stage 5 and dispatch (R284, R289, R292, R242) -/

/-- A request waits for a lane; with no healthy lane it is lost (R244). -/
def dispatch (s : State) (r : Req) (n : Nat) : State :=
  if rspServes s then
    let s1 := occAdd s r.j r.cls n
    { s1 with rsp := { s1.rsp with waiting := s1.rsp.waiting ++ [r] } }
  else bump s (rspCtr 8) 1

/-- A request that will be answered passes stage 5. -/
def admitReq (s : State) (j p : Nat) (frame f : Bytes) (t : Nat) (ok : Bool) : State :=
  let pr := profOf s p
  let k := pr.policy
  let r : Req := { j := j, cls := pr.cls, prof := p, frame := f, stamp := t, kod := false }
  let s0 := if pr.proto = 1 then statInc s 0xC00100 1 else s
  if pr.cls = 0 then dispatch s0 r frame.length
  else if polEn s k = false then dispatch (addCredit s0 j (frame.length + 20)) r frame.length
  else
    match charge s0 j k f t (decide (pr.proto = 0 ∨ pr.proto = 1)) with
    | (s1, .pass) => dispatch (addCredit (statInc s1 0xD02000 1) j (frame.length + 20)) r frame.length
    | (s1, .kod) => dispatch (addCredit s1 j (frame.length + 20)) { r with kod := true } frame.length
    | (s1, .host) => toHost (statInc s1 0xD02010 1) j frame (some p) 4 t ok
    | (s1, .drop) => s1

/-- A request of a host profile is charged, then delivered for a reason of R319, whatever sent it to the slow path (R284). -/
def admitHost (s : State) (j p : Nat) (frame f : Bytes) (t reason : Nat) (ok : Bool) : State :=
  let k := (profOf s p).policy
  let s0 := statInc s 0xB08020 1
  if polEn s k = false then toHost s0 j frame (some p) reason t ok
  else
    match charge s0 j k f t false with
    | (s1, .pass) => toHost s1 j frame (some p) reason t ok
    | (s1, .host) => toHost (statInc s1 0xD02010 1) j frame (some p) 4 t ok
    | (s1, _) => s1

/-- A frame takes its route. -/
def follow (s : State) (j : Nat) (frame f : Bytes) (t : Nat) (prof : Option Nat) (ok : Bool) (r : Route) : State :=
  match r with
  | .consumed => s
  | .esmc =>
    let (ssm, essm) := esmcCodes f
    (syncePorts s j).foldl (fun u k => takeEsmc u (4 + k) ssm essm) s
  | .ptpRx => ptpReceive s f t
  | .arp => arpFrame s j t f (fun u => toHost u j frame none 5 t ok)
  | .nd => ndFrame s j t f (fun u => toHost u j frame none 5 t ok)
  | .host reason => toHost s j frame prof reason t ok
  | .slow c0 =>
    if (prof.map fun p => decide ((profOf s p).proto = 3)).getD false then admitHost s j (prof.getD 0) frame f t 2 ok else
    let s1 := statInc s 0xB08020 1
    toHost (if c0 then bump s1 (rspCtr 3) 1 else s1) j frame prof 2 t ok
  | .hostProf => admitHost s j (prof.getD 0) frame f t 1 ok
  | .drop c => dropCount s j c
  | .answer => admitReq s j (prof.getD 0) frame f t ok

/-- A frame that ends at a host ring, as the responder does not take it for an answer (R168). -/
def hostBound (s : State) (j : Nat) (f : Bytes) (r : Route) : Bool :=
  r.toHost && !(decide (r = .arp) && arpMine s j f) && !(decide (r = .nd) && ndMine s j f)

/-- The class whose buffer space a frame uses (R173, R177). -/
def rxClass (s : State) (j : Nat) (f : Bytes) (prof : Option Nat) (r : Route) : Nat :=
  if r.toHost then hostClass s j f
  else match prof with
    | some p => (profOf s p).cls
    | none => hostClass s j f

/-- The frame is accepted by the buffer (R177). -/
def rxRoom (s : State) (j c n : Nat) (r : Route) : Bool :=
  bufferRoom s n && Config.classRoom j c (occOf s j c) n && (decide (r ≠ .answer) || Config.laneInputRoom s.rsp.waiting.length)

/-- The filter that drops a frame of a route (R26, R282, R283); MIT consumes its heartbeat before the filters. -/
def dropFilter (s : State) (j : Nat) (f : Bytes) (prof : Option Nat) (r : Route) : Option Nat :=
  if r = .consumed then none
  else match parseIp f with
    | none => none
    | some p =>
      let ntp := match prof with
        | some q => decide ((profOf s q).proto ≤ 1)
        | none => false
      filterOf s j f p ntp

/-- FRAME_RECEIVED: `frame` holds the FCS; its stamp point crossed the PCS boundary `ago` sixteenths of a ns ago; `hostOk`
says that its write to a host buffer, if it comes to one, does not fail (R317). No frame is received on a port that is not
up. -/
def execFrameReceived (j : Fin 16) (frame : Bytes) (ago : Nat) (hostOk : Bool) (s : State) : Host.Outcome State Fault Refusal :=
  .next <|
    let n := frame.length
    let f := frame.take (n - 4)
    let maxLen := (rd s (lpA j + 4)).toNat
    if portEnabled s j = false ∨ (portOf s j).up = false then s
    else if n < 64 then bump s (lpCnt j + 0x20) 1
    else if 16384 ≤ n then bump s (lpCnt j + 0x24) 1
    else if fcsGood frame = false then bump s (lpCnt j + 0x28) 1
    else
      let t := ingressAt s j ago
      let s1 := calPair (noteRxComp s j) j f t
      match pauseOpcode? f with
      | some op => pauseFrame s1 j op f
      | none =>
        let (prof, r) := routeOf s1 j f
        let c := rxClass s1 j f prof r
        let long := decide (maxLen < n)
        let s2 := if long then bump s1 (lpCnt j + 0x24) 1 else s1
        if long && !hostBound s1 j f r then s2
        else if rxRoom s2 j c n r = false then portEvent (bump s2 (lpCnt j + 0x60 + 4 * c) 1) j 5 []
        else
          let s3 := statInc (statInc s2 (lpCnt j) 1) (lpCnt j + 8) n
          match dropFilter s3 j f prof r with
          | some i => filterDrop s3 i
          | none => follow s3 j frame f t prof hostOk r

end Sys2Proof.Machine
end

