-- ==== Sys2Proof/Machine/Responder.lean ====
section
/-! DEFINITION. The responder's commands: staged rules and profiles, lanes and the replies they build (R220 to R232,
R242 to R244, R252 to R261). -/

namespace Sys2Proof.Machine

/-! ## Staging (R220 to R222) -/

/-- RSP_RULE_STAGE (R220). -/
def execRspRuleStage (r : Fin 256) (mask : Bool) (value : Word) (s : State) : Host.Outcome State Fault Refusal :=
  .next { s with rsp := { s.rsp with ruleStage := tput s.rsp.ruleStage (2 * r.val + if mask then 1 else 0) value } }

/-- A staged word is stored at its register. -/
def applyStaged (s : State) (a mask : Nat) (w : Option Word) : State :=
  match w with
  | none => s
  | some v => storeMask s a mask v

/-- RSP_RULE_APPLY: the rule takes effect with its staged words (R220). -/
def execRspRuleApply (r : Fin 256) (value : Word) (s : State) : Host.Outcome State Fault Refusal :=
  .next <|
    let st := s.rsp.ruleStage
    let s1 := applyStaged s (ruleA r + 4) 0xFFFF3FFF (st.lookup (2 * r.val))
    let s2 := applyStaged s1 (ruleA r + 8) 0xFFFF (st.lookup (2 * r.val + 1))
    storeMask { s2 with rsp := { s2.rsp with ruleStage := tdel (tdel st (2 * r.val)) (2 * r.val + 1) } } (ruleA r) full
      value

/-- The word offset of a profile word. -/
def profOffset : ProfWord → Nat
  | .ntp => 4
  | .rdelay => 8
  | .rdisp => 0xC
  | .ip => 0x10
  | .ptp => 0x14
  | .ptpint => 0x18
  | .grant => 0x1C

/-- RSP_PROFILE_STAGE (R221). -/
def execRspProfileStage (p : Fin 64) (w : ProfWord) (value : Word) (s : State) : Host.Outcome State Fault Refusal :=
  .next { s with rsp := { s.rsp with
    profStage := tput s.rsp.profStage (8 * p.val + profOffset w / 4) (profOffset w, value) } }

/-- The bits of a profile word that are stored; the others are reserved and read 0 (R249). -/
def profMask (off : Nat) : Nat := if off = 0x10 then 0x3FFF else if off = 0x1C then 0x0FFFFFFF else full

/-- A profile with its staged words applied; MAXPOLL below MINPOLL is stored as MINPOLL (R249). -/
def profStaged (s : State) (p : Nat) : State :=
  let mine := s.rsp.profStage.filter fun e => decide (e.1 / 8 = p)
  let s1 := mine.foldl (fun t e => storeMask t (profA p + e.2.1) (profMask e.2.1) e.2.2) s
  let s2 := if rsf s1 (profA p + 4) 16 8 < rsf s1 (profA p + 4) 8 8 then
      wrf s1 (profA p + 4) 16 8 (rf s1 (profA p + 4) 8 8)
    else s1
  { s2 with rsp := { s2.rsp with profStage := s.rsp.profStage.filter fun e => decide (e.1 / 8 ≠ p) } }

/-- The cases of R222. -/
def profRefused (pr : Prof) : Bool :=
  (decide (pr.proto = 1) && decide (pr.cls = 0)) || (decide (pr.proto = 2) && decide (pr.transport = 3))
  || (decide (pr.proto = 2) && decide (pr.kind = 2) && !pr.twoStep)

/-- RSP_PROFILE_APPLY (R221, R222); the slots of the scheduler may come earlier, which wakes it (R466). -/
def execRspProfileApply (p : Fin 64) (value : Word) (s : State) : Host.Outcome State Fault Refusal :=
  .next <|
    let s1 := storeMask (profStaged s p) (profA p) 0x7FFF value
    if profRefused (profOf s1 p) then raiseN s 240 p [p] else setUnit s1 36 0

/-! ## Acceptance (R19, R242) -/

/-- The planner's unit number of a lane, and whether the lane is awake (R24). -/
def laneAwake (s : State) (k : Nat) : Bool := decide (tget (fun _ => 0) s.clk.units k = 0)

/-- The lanes in dispatch. -/
def dispatchLanes (s : State) : List Nat := (List.range 16).filter fun k => laneHealthy s k && laneAwake s k

/-- The lane of a request of class 1 to 3: a hash of source address and source UDP port (R242). -/
def laneOfReq (s : State) (r : Req) : Nat :=
  let ls := dispatchLanes s
  let key := match parseIp r.frame with
    | some p => p.src ++ sub r.frame p.l4 2
    | none => sub r.frame 6 6
  ls.getD (Config.laneHash key ls.length % ls.length) 0

/-- The request that a lane takes: class 0 first, else the first that its hash gives it. -/
def nextReq (s : State) (k : Nat) : Option Req :=
  match s.rsp.waiting.find? (fun r => decide (r.cls = 0)) with
  | some r => some r
  | none => s.rsp.waiting.find? fun r => decide (laneOfReq s r = k)

/-- The packet buffer's bytes of a request are released. -/
def releaseReq (s : State) (r : Req) : State := occSub s r.j r.cls (r.frame.length + 4)

/-- The verification of an NTS request at the start of its reply, with its counters (R252, R253, R256, R259); the
generations that open the cookie are sampled here (R255). None: the request is dropped. -/
def startNts (s : State) (r : Req) : State × Option NtsJob :=
  let q := payload r.frame
  let s0 := pmcSignal s 0x202 31 (sivBlocks [4, 16] 68 + sivBlocks [q.length, 16] 0)
  match ntsVerify s0 q r.kod with
  | .drop c => (bump s0 c 1, none)
  | .ntsn c uid => (bump s0 c 1, if rb s 0xC00000 1 then some (.ntsn uid) else none)
  | .good keys uid n bad =>
    let s1 := if bad = 0 then s0 else bump s0 (ntsCtr 7) bad
    (s1, some (.seal keys uid n (slotOf s1 ((curSlot? s1).getD 0))))

/-- A request that waited and that the device no longer serves at the start of its reply, with the counter of its drop:
TIME_VALID has fallen (R225), or NTS has ceased to serve (R272). -/
def fellSilent (s : State) (pr : Prof) (r : Req) : Option (Option Nat) :=
  if pr.proto = 1 then ntsDown s
  else if s.tb.timeValid then none
  else if (pr.proto = 0 ∧ pr.unsync = false) ∨ (pr.proto = 2 ∧ byteAt (payload r.frame) 0 % 16 = 1) then some (some (rspCtr 0))
  else none

/-- The requests that a lane holds at a time: one accepted every 32 ns, each complete 256 ns after its acceptance
(R242). -/
def laneDepth : Nat := 8

/-- LANE_ACCEPT: TIME_VALID, the profile and what NTS serves are sampled, and the reply is started behind those that the
lane holds. -/
def execLaneAccept (lane : Fin 16) (s : State) : Host.Outcome State Fault Refusal :=
  .next <|
    if laneHealthy s lane = false ∨ laneAwake s lane = false ∨ laneDepth ≤ (laneOf s lane).jobs.length then s
    else match nextReq s lane with
      | none => s
      | some r =>
        let s1 := pmcSignal { s with rsp := { s.rsp with waiting := s.rsp.waiting.erase r } } 0x200 r.j 1
        let pr := profOf s1 r.prof
        match fellSilent s1 pr r with
        | some c => releaseReq (dropCount s1 r.j c) r
        | none =>
          let col := if r.kod then NtpCol.kod else if s1.tb.timeValid then .served else .unsync
          let hdr := ntpHeader s1 pr col (payload r.frame) r.stamp
          let job := fun (n : NtsJob) => ({ req := r, tv := s1.tb.timeValid, prof := pr, hdr := hdr, nts := n } : Job)
          let push := fun (t : State) (n : NtsJob) =>
            setLane t lane { laneOf t lane with jobs := (laneOf t lane).jobs ++ [job n] }
          if pr.proto = 1 then
            match startNts s1 r with
            | (s2, none) => releaseReq s2 r
            | (s2, some n) => push s2 n
          else push s1 .plain

/-! ## Replies -/

/-- A built reply passes stage 7 and is queued in its class; `extra` are the wire bytes of a companion (R27, R293). -/
def queueReply (s : State) (jb : Job) (kind : RepKind) (frame : Bytes) (ins : Insert) (launch : Option Nat)
    (extra : Nat) : State :=
  let j := jb.req.j
  match ampCheck s j jb.prof.cls (wireBytes frame + extra) with
  | (s1, false) => s1
  | (s1, true) =>
    enqueue s1 j { txItem jb.prof.cls frame (.reply kind) ins jb.req.stamp with launch := launch }

/-- The plain NTP reply of a lane (R206 to R211, R227). -/
def ntpReply (s : State) (jb : Job) : State :=
  let r := jb.req
  match parseIp r.frame with
  | none => s
  | some p =>
    let mk := udpReply s r.j jb.prof r.frame p
    let off := (parseEth r.frame).l3 + (if p.v6 then 48 else 28)
    if r.kod then queueReply s jb .kodRate (mk .full jb.hdr) .none none 0
    else
      let kind := if jb.tv then RepKind.served else .unsync
      match csumMethod s r.j p.v6 jb.prof.cls with
      | some .pad => queueReply s jb kind (mk .pad (jb.hdr ++ [0, 0])) (.ntp (off + 40) jb.prof.smear (some (off + 48))) none 0
      | some m => queueReply s jb kind (mk m jb.hdr) (.ntp (off + 40) jb.prof.smear none) none 0
      | none =>
        let t := plannedT16 s
        let hdr := jb.hdr.take 40 ++ beBytes 8 (ntpStamp s jb.prof.smear t)
        queueReply s jb kind (mk .full hdr) .none (some t) 0

/-- The KoD NTSN reply (R253, R260). -/
def ntsnReply (s : State) (jb : Job) (p : Pkt) (uid : Bytes) : State :=
  let r := jb.req
  queueReply s jb .ntsn (udpReply s r.j jb.prof r.frame p .full (ntsnHeader (payload r.frame) ++ uid)) .none none 0

/-- The NTS reply of a lane (R256 to R261). Its cookies are minted, their nonces taken and the reply sealed only once
stage 7 has let it pass, and it leaves by the planned departure (R19, R257); a pool that no longer holds its nonces is
R252's last row. Where no generation is CURRENT by now, the cookies are minted under the one that was (R255, log entry
128). -/
def ntsReply (s : State) (jb : Job) : State :=
  let r := jb.req
  match parseIp r.frame, jb.nts with
  | some p, .ntsn uid => ntsnReply s jb p uid
  | some p, .seal keys uid n cur =>
    let key := match curSlot? s with
      | some k => slotOf s k
      | none => cur
    if poolLevel s < n + 1 then
      let s1 := bump s (ntsCtr 9) 1
      if rb s 0xC00000 1 then ntsnReply s1 jb p uid else s1
    else
      let t := plannedT16 s
      let hdr := if r.kod then jb.hdr else jb.hdr.take 40 ++ beBytes 8 (ntpStamp s jb.prof.smear t)
      let f := udpReply s r.j jb.prof r.frame p .full (ntsSeal key hdr keys uid n s.ent.drawn)
      match ampCheck s r.j jb.prof.cls (wireBytes f) with
      | (s1, false) => s1
      | (s1, true) =>
        let s2 := pmcSignal (takeNonces s1 (n + 1)) 0x202 31
          (n * sivBlocks [4, 16] 68 + sivBlocks [48 + uid.length, 16] (108 * n))
        enqueue s2 r.j { txItem jb.prof.cls f (.reply (if r.kod then .ntsRate else .nts)) .none r.stamp with
          launch := some t }
  | _, _ => s

/-- Flags of a PTP reply or message: twoStepFlag and unicastFlag. -/
def ptpFlags (two uni : Bool) : Nat := boolBit two 9 + boolBit uni 10

/-- A request that was sent to this device alone. -/
def isUnicastReq (f : Bytes) : Bool :=
  match parseIp f with
  | some p => isUnicastIp p.dst
  | none => decide (byteAt f 0 % 2 = 0)

/-- Delay_Resp (R231). -/
def delayResp (s : State) (jb : Job) : State :=
  let r := jb.req
  let pr := jb.prof
  let b := payload r.frame
  let uni := isUnicastReq r.frame
  let msg := ptpMsg s r.j 9 (byteAt b 4) (byteAt b 0 / 16) (ptpFlags false uni)
    (corrAdd (be64 b 8) (-(fnsT16 r.stamp : Int))) (be16 b 30) (if uni then 0x7F else sfld pr.ptpint 16 8)
    (ptpStamp r.stamp ++ sub b 20 10)
  let d := ptpReplyDst s r.j r.prof pr r.frame false
  queueReply s jb .ptp (ptpFrame s r.j pr d (tagBytes r.frame) false .full msg) .none none 0

/-- Pdelay_Resp, one-step or two-step (R206, R231). -/
def pdelayResp (s : State) (jb : Job) : State :=
  let r := jb.req
  let pr := jb.prof
  let b := payload r.frame
  let d := ptpReplyDst s r.j r.prof pr r.frame true
  let tags := tagBytes r.frame
  let uni := isUnicastReq r.frame && d.ips.isSome
  if pr.twoStep then
    let msg := ptpMsg s r.j 3 (byteAt b 4) (byteAt b 0 / 16) (ptpFlags true uni) 0 (be16 b 30) 0x7F
      (ptpStamp r.stamp ++ sub b 20 10)
    let f := ptpFrame s r.j pr d tags true .full msg
    queueReply s jb .ptp f (.pdelayTwo r.frame r.stamp r.prof) none (wireBytes f)
  else
    let mk := fun corr => ptpMsg s r.j 3 (byteAt b 4) (byteAt b 0 / 16) (ptpFlags false uni) corr (be16 b 30) 0x7F
      (List.replicate 10 0 ++ sub b 20 10)
    match ptpTimed s r.j pr d tags (mk (be64 b 8)) with
    | (f, tr, false) => queueReply s jb .ptp f (.pdelayOne (ptpOff d tags) r.stamp tr) none 0
    | (_, _, true) =>
      let t := plannedT16 s
      let msg := mk (corrAdd (be64 b 8) (((t : Int) - r.stamp) * 4096))
      queueReply s jb .ptp (ptpFrame s r.j pr d tags true .full msg) .none (some t) 0

/-! ## Unicast negotiation (R235) -/

/-- The first grant entry that is not live. -/
def grantFree (s : State) : Option Nat :=
  if (s.rsp.grants.filter fun e => e.2.live).length < 4096 then
    (List.range 4096).find? fun g => !(grantOf s g).live
  else none

/-- The answer TLV to a REQUEST TLV: message type, interval and duration granted. -/
def grantTlv (typ : Nat) (log : Int) (dur : Nat) : Bytes :=
  beBytes 2 5 ++ beBytes 2 8 ++ [BitVec.ofNat 8 (typ * 16), BitVec.ofNat 8 (twos 8 log)] ++ beBytes 4 dur ++ [0, if dur = 0 then 0 else 1]

/-- One REQUEST or CANCEL TLV is handled; the answer TLV is appended. A grant brings a slot forward, which wakes the scheduler
(R466). -/
def negotiate (j p : Nat) (pr : Prof) (peer b : Bytes) (acc : State × Bytes) (t : Nat × Nat × Nat) : State × Bytes :=
  let s := acc.1
  let typ := byteAt b t.2.1 / 16
  let old := grantFind s j p peer typ
  if t.1 = 6 then
    let s1 := match old with
      | some g => setGrant s g Grant.cold
      | none => s
    (s1, acc.2 ++ beBytes 2 7 ++ beBytes 2 2 ++ [BitVec.ofNat 8 (typ * 16), 0])
  else
    let log := signed 8 (byteAt b (t.2.1 + 1))
    let dur := be32 b (t.2.1 + 2)
    if [0, 9, 11].contains typ = false ∨ log < sfld pr.grant 0 8 ∨ 4 < log ∨ fld pr.grant 8 16 < dur then
      (bump s (rspCtr 6) 1, acc.2 ++ grantTlv typ log 0)
    else match (match old with | some g => some g | none => grantFree s) with
      | none => (raiseN (bump s (rspCtr 7) 1) 235 0 [], acc.2 ++ grantTlv typ log 0)
      | some g =>
        let x : Grant := { live := true, j := j, prof := p, peer := peer, typ := typ, log := log, expiry := nowSec s + dur }
        (setUnit (setGrant s g x) 36 0, acc.2 ++ grantTlv typ log dur)

/-- The Signaling reply. -/
def signaling (s : State) (jb : Job) : State :=
  let r := jb.req
  let pr := jb.prof
  let b := payload r.frame
  let (s1, ans) := (negTlvs (b.take (be16 b 2))).foldl (negotiate r.j r.prof pr (peerOf r.frame) b) (s, [])
  let msg := ptpMsg s1 r.j 12 (byteAt b 4) (byteAt b 0 / 16) (ptpFlags false true) 0 (be16 b 30) 0x7F (sub b 20 10 ++ ans)
  let d := ptpReplyDst s1 r.j r.prof pr r.frame false
  queueReply s1 jb .ptp (ptpFrame s1 r.j pr d (tagBytes r.frame) false .full msg) .none none 0

/-- The reply of a PTP request by its type. -/
def ptpReply (s : State) (jb : Job) : State :=
  match byteAt (payload jb.req.frame) 0 % 16 with
  | 1 => delayResp s jb
  | 2 => pdelayResp s jb
  | _ => signaling s jb

/-- LANE_REPLY_DONE: the lane's oldest reply is built, checked against the cap and queued. -/
def execLaneReplyDone (lane : Fin 16) (s : State) : Host.Outcome State Fault Refusal :=
  .next <|
    match (laneOf s lane).jobs with
    | [] => s
    | jb :: rest =>
      let s1 := releaseReq (setLane s lane { laneOf s lane with jobs := rest }) jb.req
      match jb.prof.proto with
      | 0 => ntpReply s1 jb
      | 1 => ntsReply s1 jb
      | _ => ptpReply s1 jb

/-- PDELAY_RESP_FOLLOW_UP: t3 is known; the frame goes ahead of those that wait in its class (R231, R232). -/
def execPdelayRespFollowUp (j : Fin 16) (s : State) : Host.Outcome State Fault Refusal :=
  .next <|
    match s.rsp.pdelaySent.find? (fun e => decide (e.1 = j.val)) with
    | none => s
    | some e =>
      let (_, f, t2, t3, p) := e
      let s1 : State := { s with rsp := { s.rsp with pdelaySent := s.rsp.pdelaySent.erase e } }
      let pr := profOf s1 p
      let b := payload f
      let d := ptpReplyDst s1 j p pr f true
      let msg := ptpMsg s1 j 10 (byteAt b 4) (byteAt b 0 / 16) (ptpFlags false (isUnicastReq f && d.ips.isSome))
        (corrAdd (be64 b 8) ((fnsT16 t3 : Int) - fnsT16 t2)) (be16 b 30) 0x7F (ptpStamp t3 ++ sub b 20 10)
      enqueueFront s1 j (txItem pr.cls (ptpFrame s1 j pr d (tagBytes f) false .full msg) (.reply .ptp) .none t3)

/-! ## Lane faults (R243, R244) -/

/-- With no healthy lane every waiting request is lost. -/
def loseWaiting (s : State) : State :=
  if rspServes s then s
  else
    let n := s.rsp.waiting.length
    let s1 := s.rsp.waiting.foldl releaseReq { s with rsp := { s.rsp with waiting := [] } }
    if n = 0 then s1 else bump s1 (rspCtr 8) n

/-- A request is lost with its lane (R243). -/
def loseReq (s : State) (r : Req) : State := bump (releaseReq s r) (rspCtr 8) 1

/-- RSP_LANE_FAULT: the requests in the lane and those dispatched to it, by their hash, are lost (R243). -/
def execRspLaneFault (lane : Fin 16) (s : State) : Host.Outcome State Fault Refusal :=
  .next <|
    if (laneOf s lane).faulty then s
    else
      let given := fun (r : Req) => decide (r.cls ≠ 0) && (dispatchLanes s).contains lane.val && decide (laneOfReq s r = lane.val)
      let lost := (laneOf s lane).jobs.map (·.req) ++ s.rsp.waiting.filter given
      let s1 := lost.foldl loseReq { s with rsp := { s.rsp with waiting := s.rsp.waiting.filter fun r => !given r } }
      let s2 := setLane s1 lane { faulty := true, testing := false, jobs := [] }
      let s3 := raiseN (orReg s2 0xB0000C (2 ^ (16 + lane.val))) 232 lane [lane]
      refreshServing (loseWaiting s3)

/-- RSP_LANE_RETEST: a test starts on each named lane that is faulty and enabled (R244). -/
def execRspLaneRetest (lanes : BitVec 16) (s : State) : Host.Outcome State Fault Refusal :=
  .next <|
    (List.range 16).foldl (fun t k =>
      if lanes.getLsbD k = true ∧ (laneOf t k).faulty = true ∧ rb t 0xB00008 k = true then
        setLane t k { laneOf t k with testing := true }
      else t) s

/-- RSP_LANE_TEST_DONE (R244). -/
def execRspLaneTestDone (lane : Fin 16) (pass : Bool) (s : State) : Host.Outcome State Fault Refusal :=
  .next <|
    if (laneOf s lane).testing = false then s
    else if pass = false then setLane s lane { laneOf s lane with testing := false }
    else
      let s1 := raiseN (setLane s lane Lane.cold) 233 lane [lane]
      let s2 := if (List.range 16).any (fun k => (laneOf s1 k).faulty) then s1 else alarmClear s1 232
      refreshServing s2

end Sys2Proof.Machine
end

