-- ==== Sys2Proof/Machine/Mitten.lean ====
section
/-! DEFINITION. The Mitten pair (R418 to R425): pairing, mirroring, heartbeats, the witness, takeover. -/

namespace Sys2Proof.Machine

def setMit (s : State) (m : Mit) : State := { s with mit := m }

/-- MIT_STATUS.STATE (R430). -/
def mitCode : MitState → Nat
  | .solo => 0
  | .pairing => 1
  | .active => 2
  | .activeAlone => 3
  | .standby => 4
  | .ready => 5
  | .isolated => 6

/-- Holds that begin or end are seen at once: waiting requests are lost where nothing serves any more. -/
def holdsChange (s : State) : State := refreshServing (loseWaiting s)

/-- The unit enters a state; the entry to a serving state is dated, ISOLATED carries its alarm, and a new standby's
mirror is stale until it holds every record of its partner (R274, R418, R419, R420, R423). -/
def mitTo (s : State) (st : MitState) : State :=
  if s.mit.st = st then s
  else
    let was := mitServes s
    let fresh := decide (st = .standby) && !mitStandby s
    let s0 := if fresh then setMit { s with nts := { s.nts with stale := true } } { s.mit with gotMirror := [] } else s
    let s1 := setMit s0 { s0.mit with st := st, serving := decide (st = .pairing) && was, lock := 0, relinquish := false }
    let s2 := if mitServes s1 = true ∧ was = false then setMit s1 { s1.mit with since := nowNs s } else s1
    let s3 := raiseN s2 352 0 []
    let s4 := if st = .isolated then raiseN s3 353 0 [] else s3
    holdsChange (sourceChanged s s4)

/-- MIT_ENABLE: a unit that serves goes on serving until its partner is found (R418). -/
def execMitEnable (s : State) : Host.Outcome State Fault Refusal :=
  .next <|
    let s1 := wrf s 0x1300000 0 1 1
    if s.mit.en then s1 else setMit (setUnit s1 63 0) { s1.mit with en := true }

/-- Start-up with EN = 1 and a pair identifier: the unit pairs, and does not serve before that has found a partner or none
(DEDUCED from the rows PAIRING and ACTIVE_ALONE of R418, log entry 123). A unit that starts without serves from now on. -/
def startMit (s : State) : State :=
  let s1 := if rb s 0x1300000 0 then setMit s { s.mit with en := true } else s
  let s2 := setMit s1 { s1.mit with since := nowNs s }
  if mitWanted s2 then raiseN (setMit s2 { s2.mit with st := .pairing }) 352 0 [] else s2

/-- MIT_DISABLE: EN = 0, or a pair identifier of 0 (R418). -/
def execMitDisable (s : State) : Host.Outcome State Fault Refusal :=
  .next <|
    let s1 := mitTo (setMit (wrf s 0x1300000 0 1 0)
      { s.mit with en := false, linkUp := false, inbandUp := false, toMirror := [], relinquish := false, paired := false, pairKey := none }) .solo
    s1

/-! ## Takeover (R424) -/

/-- A gratuitous ARP for an IPv4 service address. -/
def gratuitousArp (s : State) (j : Nat) (a : Bytes) : Bytes :=
  let mac := macOf s j
  let bc := List.replicate 6 (0xFF : Byte)
  ethFrame bc mac [] 0x0806
    (beBytes 2 1 ++ beBytes 2 0x0800 ++ [6, 4] ++ beBytes 2 1 ++ mac ++ a ++ List.replicate 6 0 ++ a)

/-- An unsolicited neighbour advertisement with O = 1. -/
def unsolicitedNa (s : State) (j : Nat) (a : Bytes) : Bytes :=
  let mac := macOf s j
  let b0 : Bytes := [136, 0, 0, 0] ++ beBytes 4 0x20000000 ++ a ++ [2, 1] ++ mac
  let b1 := putBytes b0 2 (beBytes 2 (inetSum (pseudo true a allNodes 58 b0.length ++ b0)))
  ethFrame (groupMac allNodes) mac [] 0x86DD (ip6Header a allNodes 255 0 58 b1.length ++ b1)

/-- The announcements of a line port's service addresses: port and frame. -/
def announcements (s : State) (j : Nat) : List Bytes :=
  let n := j / 4
  ((List.range 64).filter fun k => flag (sa4Ctl s n k) 4 && flag (sa4Ctl s n k) (j % 4)).map (fun k => gratuitousArp s j (sa4 s n k))
  ++ ((List.range 64).filter fun k => flag (sa6Ctl s n k) 4 && flag (sa6Ctl s n k) (j % 4)).map (fun k => unsolicitedNa s j (sa6 s n k))

/-- Every announcement of a logical port enters its queue, class 3. -/
def announcePort (s : State) (j : Nat) : State :=
  if portEnabled s j then
    (announcements s j).foldl (fun t f => enqueue t j (txItem 3 f (.reply .addr) .none (nowT16 s))) s
  else s

/-- A takeover: the unit serves, announces its addresses and reports; a stale mirror keeps NTS down (R424). -/
def takeover (s : State) (alone : Bool) : State :=
  let s1 := setMit { s with nts := { s.nts with staleDown := s.nts.stale } }
    { s.mit with lastTakeover := nowSec s, toMirror := [] }
  let s2 := bump (mitTo s1 (if alone then .activeAlone else .active)) 0x1300048 1
  let s3 := (List.range 16).foldl announcePort s2
  let s4 := if s3.mit.linkUp then emit s3 (.mitten 3) else s3
  raiseN (if inRing s4.brim then emit s4 (.brim 5 []) else s4) 354 0 []

/-- What a unit that sees neither the lane nor the in-band path does (R418, R423); a unit in STANDBY never takes over,
and is ISOLATED where the witness shows that the active unit is alive. -/
def decideSilent (s : State) : State :=
  match s.mit.st with
  | .ready | .isolated => if witnessed s then mitTo s .isolated else takeover s true
  | .standby => if witnessed s then mitTo s .isolated else s
  | .active => mitTo s .activeAlone
  | _ => s

/-! ## Lane and pairing (R418 to R420) -/

/-- The active unit mirrors KEYS and every CFG segment (R420). -/
def mirrorAll (s : State) : State :=
  let keys : Payload := .keys (s.nts.slots.filter fun e => decide (e.2.st ≠ .pending)) s.loam.csig
  (List.range (segCount clsCfg)).foldl (fun t k => sendMirror t clsCfg k ((recOf t clsCfg k).getD (.words [])))
    (sendMirror (setMit s { s.mit with toMirror := [] }) clsKeys 0 keys)

/-- MIT_LANE_UP: the pairing message leaves where pairing is wanted; an ISOLATED unit waits for R421. The lane that comes
back up is reported (R418, R419, R431). -/
def execMitLaneUp (s : State) : Host.Outcome State Fault Refusal :=
  .next <|
    if s.mit.en = false ∨ s.mit.linkUp = true then s
    else
      let s1 := setMit s { s.mit with linkUp := true, wasDown := false }
      let s2 := if s.mit.wasDown then alarmClear (raiseN s1 359 0 []) 353 else s1
      mitReadyCheck (sourceChanged s (if mitWanted s2 then sendPairing s2 else s2))

/-- MIT_LANE_DOWN: decided at once where the in-band path is silent too, else when it falls silent (R423). -/
def execMitLaneDown (s : State) : Host.Outcome State Fault Refusal :=
  .next <|
    let s1 := sourceChanged s (setMit s { s.mit with linkUp := false, wasDown := s.mit.wasDown || s.mit.linkUp })
    if s.mit.linkUp = false ∨ s.mit.inbandUp = true then s1 else decideSilent s1

/-- Of two units, this one takes the active role (R419): one that is active stays so, of two the one that entered its
serving state earlier; a unit that serves is not preempted by one that does not; else PREFER_ACTIVE, then the Brim ID. -/
def winsRole (s : State) (m : PairMsg) : Bool :=
  let lower := decide (s.fuse.brimId.toNat < m.brimId.toNat)
  let active := mitActive s
  if active && m.active then
    (if s.mit.since = m.since then lower else decide (s.mit.since < m.since))
  else if active || m.active then active
  else if mitServes s != m.serving then mitServes s
  else
    let pref := rb s 0x1300000 1
    if pref = m.preferActive then lower else pref

/-- MIT_PAIRING_MESSAGE: a partner of another pair, or one whose signature fails, is refused; else the pair key is agreed,
the unit pairs, and the roles are assigned (R418, R419). -/
def execMitPairingMessage (m : PairMsg) (s : State) : Host.Outcome State Fault Refusal :=
  .next <|
    if mitWanted s = false ∨ s.mit.linkUp = false then s
    else if m.pairId ≠ rd s 0x1300008 ∨ m.signed = false then raiseN s 352 0 []
    else
      let s1 := setMit s { s.mit with peerId := m.brimId, paired := true,
                                      pairKey := some (x25519Fn 1 s.mit.eph (subPad m.pub 0 32)) }
      let s2 := if mitStandby s then s1 else mitTo s1 .pairing
      if winsRole s m then mirrorAll (mitTo s2 .active)
      else if mitStandby s then s2 else mitTo s2 .standby

/-- MIT_PAIRING_TIMEOUT: no partner within 1 s of start, or of enabling (R418). -/
def execMitPairingTimeout (s : State) : Host.Outcome State Fault Refusal :=
  .next (if s.mit.st = .pairing ∨ (s.mit.st = .solo ∧ mitWanted s = true) then mitTo s .activeAlone else s)

/-! ## Heartbeats (R422, R423, R425) -/

/-- MIT_HEARTBEAT_SEND. -/
def execMitHeartbeatSend (s : State) : Host.Outcome State Fault Refusal :=
  .next (if s.mit.en && s.mit.linkUp then emit s (.mitten 1) else s)

/-- MIT_INBAND_SEND. -/
def execMitInbandSend (s : State) : Host.Outcome State Fault Refusal :=
  .next (if s.mit.en then sendInband s 1 else s)

/-- MIT_HEARTBEAT_RX: two serving units are a split, which the later one ends; an in-band heartbeat while the lane is
down shows a standby that the active unit is alive, and isolates it (R33, R418, R423). -/
def execMitHeartbeatRx (inband serving : Bool) (since : Nat) (s : State) : Host.Outcome State Fault Refusal :=
  .next <|
    if s.mit.en = false then s
    else
      let s1 := if inband then setMit s { s.mit with inbandUp := true } else s
      if mitWanted s1 = true ∧ mitServes s1 = true ∧ serving = true then
        let s2 := raiseN s1 357 0 []
        let later := if s2.mit.since = since then decide (s2.mit.peerId.toNat < s2.fuse.brimId.toNat)
          else decide (since < s2.mit.since)
        if later then mitTo s2 .standby else s2
      else if inband = true ∧ (s1.mit.st = .ready ∨ s1.mit.st = .standby) ∧ s1.mit.linkUp = false then mitTo s1 .isolated
      else s1

/-- MIT_HEARTBEAT_MISSED: three heartbeats on an up lane (R423). -/
def execMitHeartbeatMissed (s : State) : Host.Outcome State Fault Refusal :=
  .next <|
    if s.mit.en = false ∨ s.mit.linkUp = false then s
    else
      let s1 := bump s 0x1300040 3
      match s1.mit.st with
      | .ready => takeover s1 true
      | .active => mitTo s1 .activeAlone
      | _ => s1

/-- MIT_INBAND_SILENT: 400 µs without an in-band heartbeat (R423). -/
def execMitInbandSilent (s : State) : Host.Outcome State Fault Refusal :=
  .next <|
    if s.mit.en = false then s
    else
      let s1 := bump (setMit s { s.mit with inbandUp := false }) 0x1300044 4
      if s1.mit.linkUp then s1 else decideSilent s1

/-- MIT_LAST_GASP_RX: a READY unit takes over at once, whatever else it sees. -/
def execMitLastGaspRx (s : State) : Host.Outcome State Fault Refusal :=
  .next <|
    if s.mit.en = false then s
    else
      let s1 := raiseN s 355 0 []
      if s1.mit.st = .ready then takeover s1 (!s1.mit.linkUp) else s1

/-! ## Mirroring (R420) -/

/-- Registers that are never mirrored (R420). -/
def ownField (a : Nat) : Bool :=
  let o := (a - 0xA00000) % 0x40
  decide (0xA00000 ≤ a ∧ a < 0xA00400 ∧ (o = 4 ∨ o = 8))
  || decide (0x400040 ≤ a ∧ a < 0x400100 ∧ ((a - 0x400040) % 0x20 = 4 ∨ (a - 0x400040) % 0x20 = 8))
  || decide (0x800000 ≤ a ∧ a < 0x900000 ∧ a % 0x40000 = 8)
  || decide (0x500064 ≤ a ∧ a ≤ 0x50006C)
  || decide (0x600000 ≤ a ∧ a < 0x600400 ∧ a % 0x40 = 0x20)
  || decide (0x600400 ≤ a ∧ a < 0x600600 ∧ a % 0x20 = 4)
  || decide (0x1200000 ≤ a ∧ a < 0x1400000)

/-- One register's "L" fields take a mirrored value. -/
def setL (s : State) (a : Nat) (v : Word) : State :=
  let m := loamMask a
  wr s a ((rd s a &&& ~~~m) ||| (v &&& m))

/-- The slots of a mirrored KEYS record. -/
def mirrorSlots (rec : MirrorRec) : Tab KeySlot :=
  (List.range 8).foldl (fun t k =>
    match rec.keys[k]? with
    | some (id, key, born, st) =>
      if st = 1 ∨ st = 2 then
        tset (fun _ => KeySlot.cold) t k
          { st := if st = 1 then .current else .accepted, id := BitVec.ofNat 32 id, key := beBytes 64 key, born := born }
      else t
    | none => t) []

/-- The record is sealed under the pair key (R419). -/
def mirrorSealed (s : State) (rec : MirrorRec) (serial : Nat) (tag : Bytes) : Bool :=
  match s.mit.pairKey with
  | some k => decide (mirrorTag k serial rec = tag)
  | none => false

/-- A commit of a mirrored record is requested; a refusal leaves the mirror stale (R373, R420, R421). -/
def mirrorCommit (s : State) (serial cls seg : Nat) (p : Option Payload) : State :=
  match requestCommit s { by_ := .mirror serial, cls := cls, segs := [seg], payload := p } false with
  | (t, none) => t
  | (t, some _) => mirrorStale t

/-- MIT_MIRROR_ACK: the acknowledgement of the current KEYS record ends a stale mirror; that of the record of step 3 lets
the rotation that waits for it switch (R266, R267). -/
def execMitMirrorAck (sid : SegId) (serial : Nat) (s : State) : Host.Outcome State Fault Refusal :=
  .next <|
    match s.mit.toMirror.find? fun x => decide (x.serial = serial ∧ x.cls = sid.cls.val ∧ x.seg = sid.seg.val) with
    | none => s
    | some e =>
      let s1 := setMit s { s.mit with toMirror := s.mit.toMirror.filter fun x => decide (x.serial ≠ serial) }
      let s2 : State := if e.cls = clsKeys ∧ serial = s.mit.keysSerial then { s1 with nts := { s1.nts with stale := false } } else s1
      if s.nts.phase = .mirror ∧ serial = s.nts.waitSerial then ended (takeCommitted s2) else s2

/-! ## Witness, relinquishing (R423, R425) -/

/-- MIT_WITNESS_ALIVE: its time runs whatever WITNESS_EN holds; it is asserted only while WITNESS_EN = 1. -/
def execMitWitnessAlive (s : State) : Host.Outcome State Fault Refusal :=
  .next (setMit s { s.mit with witness := true })

/-- MIT_CTL is written: an ISOLATED unit that sees nothing else takes over once the witness is not asserted (R423). -/
def mitCtlWritten (s t : State) : State :=
  if witnessed s = true ∧ witnessed t = false ∧ t.mit.st = .isolated ∧ t.mit.linkUp = false ∧ t.mit.inbandUp = false then
    takeover t true
  else t

/-- MIT_WITNESS_EXPIRED: an ISOLATED unit that sees nothing else takes over. -/
def execMitWitnessExpired (s : State) : Host.Outcome State Fault Refusal :=
  .next <|
    if s.mit.witness then
      let s1 := setMit s { s.mit with witness := false }
      let s2 := if rb s 0x1300000 2 then raiseN s1 358 0 [] else s1
      if s2.mit.st = .isolated ∧ s2.mit.linkUp = false ∧ s2.mit.inbandUp = false then takeover s2 true else s2
    else s

/-- RELINQUISH (R422, R425). -/
def execRelinquish (s : State) : Host.Outcome State Fault Refusal :=
  .next <|
    if s.mit.st = .active then
      let s1 := lastGasp s
      setMit s1 { s1.mit with relinquish := true }
    else s

/-- MIT_TAKEOVER_NOTICE: the relinquishing unit withdraws (R425). -/
def execMitTakeoverNotice (s : State) : Host.Outcome State Fault Refusal :=
  .next (if s.mit.relinquish then mitTo s .standby else s)

end Sys2Proof.Machine
end

