-- ==== Sys2Proof/Machine/Pke.lean ====
section
/-! DEFINITION. The public-key engine (R332 to R349): the recipes, dispatch, draws, yields, completion, core tests,
aborts, and the RANDOM command. -/

namespace Sys2Proof.Machine

/-! ## Recipes -/

/-- What a recipe yields: the state (key slots may change), RESULT and output. -/
structure Recipe where
  s : State
  result : Nat
  output : Bytes
  faulty : Bool := false

/-- A job's random bytes, from its one draw (R338). -/
def jobRandom (j : PkeJob) (o n : Nat) : Bytes := (List.range n).map fun i => Config.drbgByte (j.rand + o + i)

/-- The bytes that a job's draw takes: key or nonce, blinding and projective Z. -/
def drawLen (d : Bytes) : Nat := 2 * max 48 (pkeBytes (pkeSize d)) + 16

/-- The number that a draw gives for the projective Z (R337): after the key or nonce in the draw. -/
def jobZ (j : PkeJob) (p b : Nat) : Nat := zFrom p (jobRandom j (b + 8) b)

/-- Z over the curve of SIZE. -/
def curveZ (j : PkeJob) : Nat := jobZ j (pkeCurve (pkeSize j.desc)).p (pkeBytes (pkeSize j.desc))

/-- Z over 2^255 - 19. -/
def fieldZ (j : PkeJob) : Nat := jobZ j q25519 32

def jobInput (j : PkeJob) : Bytes := subPad (j.input.getD []) 0 (pkeInLen j.desc)

/-- The job on a core runs the recipe of an opcode, once, if its checks pass and the PKE clock runs (R336, R456). -/
def runRecipe (s : State) (c op : Nat) (f : PkeJob → Recipe) : State :=
  match jobOn s c with
  | none => s
  | some j =>
    if clkRuns s.clk.pke = false then s
    else if pkeOp j.desc = op ∧ j.result = notRun then
      let v := validate s.pke.wrapLock j.desc j.input j.slotKey
      if v ≠ 0 then setJob s { j with result := v }
      else
        let r := f j
        setJob r.s { j with result := r.result, output := r.output, faulty := r.faulty }
    else s

/-- A modular recipe over a, b and m (R333). -/
def modular (s : State) (c op : Nat) (g : Nat → Nat → Nat → Nat) : State :=
  runRecipe s c op fun j =>
    let b := pkeBytes (pkeSize j.desc)
    let x := jobInput j
    { s := s, result := 0, output := beBytes b (g (field x b 0) (field x b 1) (field x b 2)) }

/-- MOD_ADD (R333). -/
def execModAdd (core : Fin 12) (s : State) : Host.Outcome State Fault Refusal :=
  .next (modular s core 0x01 fun a b m => (a + b) % m)

/-- MOD_SUB (R333). -/
def execModSub (core : Fin 12) (s : State) : Host.Outcome State Fault Refusal :=
  .next (modular s core 0x02 fun a b m => subMod a b m)

/-- MOD_MUL (R333). -/
def execModMul (core : Fin 12) (s : State) : Host.Outcome State Fault Refusal :=
  .next (modular s core 0x03 fun a b m => a * b % m)

/-- MOD_INV: NO_INVERSE where a and m are not coprime (R335). -/
def execModInv (core : Fin 12) (s : State) : Host.Outcome State Fault Refusal :=
  .next <| runRecipe s core 0x04 fun j =>
    let b := pkeBytes (pkeSize j.desc)
    let x := jobInput j
    match modInv (field x b 0) (field x b 1) with
    | some v => { s := s, result := 0, output := beBytes b v }
    | none => { s := s, result := 4, output := [] }

/-- MOD_EXP (R333). -/
def execModExp (core : Fin 12) (s : State) : Host.Outcome State Fault Refusal :=
  .next (modular s core 0x05 powMod)

/-- ECDSA_SIGN: the nonce comes from the DRBG (R337). -/
def execEcdsaSign (core : Fin 12) (s : State) : Host.Outcome State Fault Refusal :=
  .next <| runRecipe s core 0x10 fun j =>
    let b := pkeBytes (pkeSize j.desc)
    let c := pkeCurve (pkeSize j.desc)
    let x := jobInput j
    let (r, t) := ecdsaSig c (curveZ j) (beNat (operand j.desc x)) (beNat (keyMaterial j.desc x j.slotKey))
      (scalarFrom c (jobRandom j 0 (b + 8)))
    { s := s, result := 0, output := beBytes b r ++ beBytes b t }

/-- ECDSA_VERIFY (R333, R335). -/
def execEcdsaVerify (core : Fin 12) (s : State) : Host.Outcome State Fault Refusal :=
  .next <| runRecipe s core 0x11 fun j =>
    let b := pkeBytes (pkeSize j.desc)
    let x := jobInput j
    let ok := ecdsaOk (pkeCurve (pkeSize j.desc)) (curveZ j) (field x b 0) (field x b 1) (field x b 2) (field x b 3) (field x b 4)
    { s := s, result := if ok then 0 else 5, output := [] }

/-- ED25519_SIGN (R333). -/
def execEd25519Sign (core : Fin 12) (s : State) : Host.Outcome State Fault Refusal :=
  .next <| runRecipe s core 0x12 fun j =>
    let x := jobInput j
    { s := s, result := 0, output := edSign (fieldZ j) (keyMaterial j.desc x j.slotKey) (operand j.desc x) }

/-- ED25519_VERIFY (R333, R335). -/
def execEd25519Verify (core : Fin 12) (s : State) : Host.Outcome State Fault Refusal :=
  .next <| runRecipe s core 0x13 fun j =>
    let x := jobInput j
    { s := s, result := if edVerify (fieldZ j) (sub x 0 32) (sub x 32 64) (x.drop 96) then 0 else 5, output := [] }

/-- X25519: LOW_ORDER where the result is all zero, which is still written (R335). -/
def execX25519 (core : Fin 12) (s : State) : Host.Outcome State Fault Refusal :=
  .next <| runRecipe s core 0x14 fun j =>
    let x := jobInput j
    let u := x25519Fn (fieldZ j) (keyMaterial j.desc x j.slotKey) (operand j.desc x)
    { s := s, result := if leNat u = 0 then 0x0C else 0, output := u }

/-- The RSA result of a job on its blinded representation (R337). -/
def rsaOfJob (j : PkeJob) : Option Nat :=
  let k := rsaKeyOf (keyMaterial j.desc (jobInput j) j.slotKey)
  let b := pkeBytes (pkeSize j.desc)
  rsaPrivate k (rsaBlind k (jobRandom j 0 b)) (beNat (jobRandom j b 8)) (beNat (jobRandom j (b + 8) 8))
    (beNat (operand j.desc (jobInput j)))

/-- RSA_PRIV by CRT, blinded, with the result check (R337, R339). -/
def execRsaPriv (core : Fin 12) (s : State) : Host.Outcome State Fault Refusal :=
  .next <| runRecipe s core 0x15 fun j =>
    let b := pkeBytes (pkeSize j.desc)
    match rsaOfJob j with
    | some m => { s := s, result := 0, output := beBytes b m }
    | none => { s := s, result := 0x0A, output := List.replicate b 0, faulty := true }

/-- RSA_PUB (R333). -/
def execRsaPub (core : Fin 12) (s : State) : Host.Outcome State Fault Refusal :=
  .next <| runRecipe s core 0x16 fun j =>
    let b := pkeBytes (pkeSize j.desc)
    let x := jobInput j
    { s := s, result := 0, output := beBytes b (powMod (field x b 0) (beNat (x.drop (2 * b))) (field x b 1)) }

/-- KEY_IMPORT: the slot is zeroed, then takes the key where it unwraps with a good header (R341). -/
def execKeyImport (core : Fin 12) (s : State) : Host.Outcome State Fault Refusal :=
  .next <| runRecipe s core 0x18 fun j =>
    let slot := pkeSlot j.desc
    match keyUnwrap (deviceKey s) (jobInput j) with
    | some p =>
      if headerOk (p.take 8) = true ∧ plainLen (keyType p) = p.length then
        { s := setSlotKey s slot p, result := 0, output := [] }
      else { s := raiseN (bump (setSlotKey s slot []) 0xF0014C 1) 306 slot [slot], result := 8, output := [] }
    | none => { s := raiseN (bump (setSlotKey s slot []) 0xF0014C 1) 306 slot [slot], result := 8, output := [] }

/-- KEY_WRAP (R341). -/
def execKeyWrap (core : Fin 12) (s : State) : Host.Outcome State Fault Refusal :=
  .next <| runRecipe s core 0x19 fun j => { s := s, result := 0, output := keyWrap (deviceKey s) (jobInput j) }

/-- A generated key: key material and public key (R341). -/
def generate (j : PkeJob) (typ : Nat) : Bytes × Bytes :=
  if typ ≤ 2 then
    let c := pkeCurve (typ - 1)
    let b := pkeBytes (typ - 1)
    let x := scalarFrom c (jobRandom j 0 (b + 8))
    let q := ((ecMul c (jobZ j c.p b) x c.g).drop c.p).getD (0, 0)
    (beBytes b x, beBytes b q.1 ++ beBytes b q.2)
  else
    let k := jobRandom j 0 32
    (k, if typ = 3 then edPublic (fieldZ j) k else x25519Fn (fieldZ j) k (leBytes 32 9))

/-- KEYGEN: the key goes into its slot; the public key and the wrapped key are returned (R341). -/
def execKeygen (core : Fin 12) (s : State) : Host.Outcome State Fault Refusal :=
  .next <| runRecipe s core 0x1A fun j =>
    let h := jobInput j
    let (k, q) := generate j (keyType h)
    { s := setSlotKey s (pkeSlot j.desc) (h ++ k), result := 0, output := q ++ keyWrap (deviceKey s) (h ++ k) }

/-- KEY_ERASE (R341). -/
def execKeyErase (core : Fin 12) (s : State) : Host.Outcome State Fault Refusal :=
  .next <| runRecipe s core 0x1B fun j => { s := setSlotKey s (pkeSlot j.desc) [], result := 0, output := [] }

/-- PKE_UNKNOWN_OPCODE: BAD_OPCODE (R336). -/
def execPkeUnknownOpcode (core : Fin 12) (s : State) : Host.Outcome State Fault Refusal :=
  .next <|
    match jobOn s core with
    | none => s
    | some j =>
      let op := pkeOp j.desc
      if j.result = notRun ∧ (sizeOk op (pkeSize j.desc) = false ∨ useSlotOk op (pkeUseSlot j.desc) = false) then
        setJob s { j with result := 1 }
      else s

/-! ## Dispatch (R342, R347) -/

def coreOf (s : State) (c : Nat) : Core := tget (fun _ => Core.cold) s.pke.cores c

def setCore (s : State) (c : Nat) (x : Core) : State :=
  { s with pke := { s.pke with cores := tset (fun _ => Core.cold) s.pke.cores c x } }

/-- A core in service: enabled, healthy, not under test. -/
def coreUsable (s : State) (c : Nat) : Bool := rb s 0xF00008 c && !(coreOf s c).faulty && !(coreOf s c).testing

def idleCore? (s : State) : Option Nat := (List.range 12).find? fun c => coreUsable s c && (jobOn s c).isNone

/-- The jobs that a core may take now; RANDOM needs no core. -/
def waitsForCore (s : State) (j : PkeJob) : Bool :=
  decide (j.stage = .ready) && decide (pkeOp j.desc ≠ 0x20) && (j.yielded || mayStart s j)

/-- The rings of the interactive class, and those of the bulk class with the baseband's own job (R149, R342). -/
def intRings : List Nat := (List.range 8).map (· + 128)
def bulkRings : List Nat := (List.range 8).map (· + 136) ++ [gnssRing]

/-- The next job of a class: the rings of the class round robin after the last one served, first job of its ring. -/
def nextOf (s : State) (rings : List Nat) (turn : Nat) (ok : PkeJob → Bool) : Option PkeJob :=
  (List.range rings.length).findSome? fun i =>
    s.pke.jobs.find? fun j =>
      decide (j.ring = rings.getD ((turn + 1 + i) % rings.length) 0) && waitsForCore s j && ok j

/-- The waiting interactive job whose turn it is. -/
def nextInteractive (s : State) : Option PkeJob := nextOf s intRings s.pke.turnInt fun _ => true

/-- The waiting bulk job: a yielded one first. -/
def nextBulk (s : State) : Option PkeJob :=
  match nextOf s bulkRings s.pke.turnBulk (·.yielded) with
  | some j => some j
  | none => nextOf s bulkRings s.pke.turnBulk fun _ => true

def bulkRunning (s : State) : Nat := (s.pke.jobs.filter fun j => isRunning j && !isInteractive j).length

/-- The job takes the core, which wakes for it (R463); its slot key is copied when it first starts (R342). -/
def startJob (s : State) (j : PkeJob) (c : Nat) : State :=
  let k := if j.yielded then j.slotKey else if pkeUseSlot j.desc then slotKeyOf s (pkeSlot j.desc) else []
  setJob (setUnit s (24 + c) 0) { j with stage := .running c, yielded := false, slotKey := k, core := c }

/-- PKE_DISPATCH: interactive before bulk; bulk jobs never occupy more than 12 - RESERVE cores. Nothing starts
while the PKE clock stands (R456), and nothing at all where PKE has not started (R470). -/
def execPkeDispatch (s : State) : Host.Outcome State Fault Refusal :=
  .next <|
    if s.pke.held = true ∨ s.clk.noPke = true ∨ clkRuns s.clk.pke = false then s
    else match idleCore? s with
      | none => s
      | some c =>
        match nextInteractive s with
        | some j =>
          let t := startJob s j c
          { t with pke := { t.pke with turnInt := intRings.idxOf j.ring } }
        | none =>
          if bulkRunning s < 12 - rf s 0xF00000 4 4 then
            match nextBulk s with
            | some j =>
              let t := startJob s j c
              { t with pke := { t.pke with turnBulk := if j.yielded then s.pke.turnBulk else bulkRings.idxOf j.ring } }
            | none => s
          else s

/-- PKE_DRAW_DONE: the first waiting job of a ring takes its random values in one request, if ENT delivers; a refused
job takes none (R336, R338). -/
def execPkeDrawDone (r : Fin 256) (s : State) : Host.Outcome State Fault Refusal :=
  .next <|
    match s.pke.jobs.find? fun j => decide (j.ring = r.val) && decide (j.stage = .draw) with
    | none => s
    | some j =>
      if (earlier s j).any fun x => isKeyOp (pkeOp x.desc) then s
      else
        let v := checkJob s j
        if v ≠ 0 then setJob s { j with stage := .ready, result := v }
        else if entDelivering s then
          takeDrbg (setJob s { j with stage := .ready, rand := s.ent.drawn }) (drawLen j.desc)
        else noteDrawWaits s

/-- PKE_YIELD: an aborted bulk job stops; else it gives up its core to an interactive job that waits with no core
idle (R345, R347). -/
def execPkeYield (core : Fin 12) (coreTime : Nat) (s : State) : Host.Outcome State Fault Refusal :=
  .next <|
    match jobOn s core with
    | none => s
    | some j =>
      if isInteractive j then s
      else if j.abort then abortDone (abortJob s { j with time := coreTime }) j.ring
      else if (nextInteractive s).isSome ∧ (idleCore? s).isNone then
        setJob s { j with stage := .ready, yielded := true, time := coreTime }
      else s

/-! ## Completion (R335, R339, R343) -/

/-- PKE_FAULT: the core leaves service (R339). -/
def coreFault (s : State) (c : Nat) : State :=
  raiseN (setCore (bump s 0xF00144 1) c { coreOf s c with faulty := true }) 304 c [c]

/-- The counters of a job that has run. -/
def countJob (s : State) (j : PkeJob) (result : Nat) : State :=
  let s1 := statInc s (if isInteractive j then 0xF00100 else 0xF00108) 1
  if [1, 2, 3, 6, 7, 9].contains result then bump s1 0xF00140 1 else s1

/-- PKE_JOB_DONE: a fault counts in every job, a flagged one too (R339); else a flagged job is aborted (R345). The output
is written in full, then the completion. -/
def execPkeJobDone (core : Fin 12) (parityError writeOk : Bool) (coreTime : Nat) (s : State) :
    Host.Outcome State Fault Refusal :=
  .next <|
    match jobOn s core with
    | none => s
    | some j =>
      let fault := parityError || j.faulty
      if clkRuns s.clk.pke = false then s
      else if j.abort = true ∧ fault = false then abortDone (abortJob s { j with time := coreTime }) j.ring
      else if j.result = notRun ∧ fault = false then s
      else
        let out := if fault then faultOutput s j else j.output
        let s1 := dropJob s j
        let s2 := if fault then coreFault s1 core else s1
        let s3 := if out = [] then s2
          else if writeOk then hostWrite s2 j.ring j.idx (descAddr j.desc 8) out
          else dmaError (hostWrite s2 j.ring j.idx (descAddr j.desc 8) ((List.range out.length).map Config.bufferUndefined)) j.ring
        let s4 := if j.result = 0x0D then dmaError s3 j.ring else s3
        let result := if fault then 0x0A else if out ≠ [] ∧ writeOk = false then 0x0D else j.result
        let s5 := endJob (countJob s4 j result) j result
          (pkeBody result core (if result = 0x0D then 0 else out.length) (pkeTag j.desc) coreTime)
        let s6 := noteDrawWaits s5
        if j.abort then abortDone s6 j.ring else s6

/-! ## Core tests and aborts -/

/-- PKE_CORE_RETEST: the named cores that run no job start their test (R339). -/
def execPkeCoreRetest (cores : BitVec 12) (s : State) : Host.Outcome State Fault Refusal :=
  .next <| (List.range 12).foldl
    (fun t c => if cores.getLsbD c = true ∧ (jobOn t c).isNone then setCore t c { coreOf t c with testing := true } else t) s

/-- PKE_CORE_TEST_DONE: a core that passes returns to service (R339, R361). -/
def execPkeCoreTestDone (core : Fin 12) (pass : Bool) (s : State) : Host.Outcome State Fault Refusal :=
  .next <|
    if (coreOf s core).testing then
      let s1 := setCore s core { faulty := !pass, testing := false }
      if pass then
        let s2 := raiseN s1 305 core [core]
        if (List.range 12).any fun c => (coreOf s2 c).faulty then s2 else alarmClear s2 304
      else s1
    else s

/-- One job of an aborted ring: stopped at once where it has not started or stands yielded, else flagged; a started
key command goes on (R345). -/
def abortOne (s : State) (j : PkeJob) : State :=
  if isKeyOp (pkeOp j.desc) && hasStarted j then s
  else if isRunning j then setJob s { j with abort := true }
  else abortJob s j

/-- PKE_ABORT with GO = 1 for a ring 128 + r: every fetched job of it (R345). -/
def execPkeAbort (r : Fin 16) (s : State) : Host.Outcome State Fault Refusal :=
  .next (abortDone ((s.pke.jobs.filter fun j => decide (j.ring = 128 + r.val)).foldl abortOne s) (128 + r.val))

/-- WRAP_LOCK (R341). -/
def execWrapLock (s : State) : Host.Outcome State Fault Refusal :=
  .next { s with pke := { s.pke with wrapLock := true } }

/-! ## RANDOM (R333, R356) -/

/-- The first RANDOM command of a ring that may start. -/
def waitingRandom (s : State) (r : Nat) : Option PkeJob :=
  s.pke.jobs.find? fun j => decide (j.ring = r) && decide (pkeOp j.desc = 0x20) && mayStart s j

/-- The oldest RANDOM command of a ring, which waits for ENT wherever it stands in its ring; a refused one takes no
draw (R336, R356). -/
def oldestRandom (s : State) (r : Nat) : Option PkeJob :=
  s.pke.jobs.find? fun j => decide (j.ring = r) && decide (pkeOp j.desc = 0x20) && decide (checkJob s j = 0)

/-- RANDOM: served while ENT delivers; before READY it does not wait. -/
def execRandom (r : Fin 256) (writeOk : Bool) (s : State) : Host.Outcome State Fault Refusal :=
  .next <|
    match waitingRandom s r with
    | none => s
    | some j =>
      let n := pkeOutLen j.desc
      let fin := fun (t : State) (result len : Nat) =>
        complete (countJob t j result) j.ring j.idx stOk (pkeBody result 0xFF len (pkeTag j.desc) 0)
      let v := validate s.pke.wrapLock j.desc j.input []
      if v ≠ 0 then fin (dropJob s j) v 0
      else if s.ent.ready = false then randomNotReady (dropJob s j) r j.idx j.desc
      else if entDelivering s = false then s
      else
        let s1 := takeDrbg (dropJob s j) n
        if writeOk then fin (hostWrite s1 r j.idx (descAddr j.desc 8) (drbg s n)) 0 n
        else fin (dmaError (hostWrite s1 r j.idx (descAddr j.desc 8) ((List.range n).map Config.bufferUndefined)) r) 0x0D 0

/-- RANDOM_WAIT_EXPIRED: a blocked command completes NOT_READY (R356). -/
def execRandomWaitExpired (r : Fin 256) (s : State) : Host.Outcome State Fault Refusal :=
  .next <|
    match oldestRandom s r with
    | none => s
    | some j => if entDelivering s then s else randomNotReady (dropJob s j) r j.idx j.desc

end Sys2Proof.Machine
end

