-- ==== Sys2Proof/Machine/Clocks.lean ====
section
/-! DEFINITION. Clock inputs, unified clocking and mux rescues (R450 to R459), the power planner (R462 to R467) and the
on-request memory test (R469, R471). -/

namespace Sys2Proof.Machine

def setClk (s : State) (c : Clk) : State := { s with clk := c }

/-! ## FAILED (R456, R505) -/

/-- The device enters FAILED: the last gasp, FAIL_N, GLB_FAIL with the cause, and the holds (R422, R505). -/
def enterFailed (s : State) (cause : Nat) : State :=
  if s.glb.recovery = 2 then s
  else
    let s1 := lastGasp s
    holdsChange (raiseN { s1 with glb := { s1.glb with recovery := 2, failCause := cause, failN := true } } 2 0 [cause])

/-! ## Losses (R451, R456) -/

/-- TB_CTL.FORCE_INVALID is set by CLK (R456). -/
def clkForceInvalid (s : State) : State := setValid { s with tb := { s.tb with forceInvalid := true } } false

def domainNum : Domain → Nat
  | .core => 0
  | .pke => 1
  | .ctrl => 2
  | .tbclk => 3

def domainSrc (c : Clk) : Domain → ClkSrc
  | .core => c.core
  | .pke => c.pke
  | .ctrl => c.ctrl
  | .tbclk => c.tbclk

def setDomain (c : Clk) (x : ClkSrc) : Domain → Clk
  | .core => { c with core := x }
  | .pke => { c with pke := x }
  | .ctrl => { c with ctrl := x }
  | .tbclk => { c with tbclk := x }

/-- A selection is there: the root and DPLL0 run from LO_IN, the other domains' own PLLs from CORE_XTAL (R450, R452). -/
def clockPresent (c : Clk) (d : Domain) (x : ClkSrc) : Bool :=
  match x, d with
  | .root, _ => c.loin
  | .main, .tbclk => c.loin
  | .main, _ => c.xtal
  | _, _ => true

/-- A hung switch to a selection. -/
def hungOn : ClkSrc → ClkSrc
  | .main => .hungMain
  | .root => .hungRoot
  | _ => .hungOsc

/-- The selection that a hung switch waits for. -/
def hungFor : ClkSrc → Option ClkSrc
  | .hungMain => some .main
  | .hungRoot => some .root
  | .hungOsc => some .osc
  | _ => none

/-- A switch of a domain: refused where the new clock is absent, clean where the old one runs, else hung; without the
mux watchdog it hangs for good (R457, R458). -/
def switchTo (s : State) (x : ClkSrc) (d : Domain) : State :=
  if clockPresent s.clk d x = false then raiseN s 21 (domainNum d) [domainNum d]
  else
    let old := domainSrc s.clk d
    let y : ClkSrc := if clkRuns old then x else if old = .stuck then .stuck
      else if rb s 0x100000 4 then hungOn x else .stuck
    setClk s (setDomain s.clk y d)

/-- The clock of a domain stops; a switch that hung for good stays so (R456). -/
def stopClock (s : State) (d : Domain) : State :=
  if domainSrc s.clk d = .stuck then s else setClk s (setDomain s.clk .stopped d)

/-- CTRL goes to the internal oscillator, unless it runs on it or waits for it (R456). -/
def ctrlToOsc (s : State) : State :=
  if s.clk.ctrl = .osc ∨ s.clk.ctrl = .hungOsc then s else switchTo (stopClock s .ctrl) .osc .ctrl

/-- Every internal domain stops; CTRL goes to the internal oscillator (R456). -/
def allStop (s : State) : State := ctrlToOsc ([Domain.core, .pke, .tbclk].foldl stopClock s)

/-- The phase between DPLL0 and the root is measured to 1/16 ns and folded into the counter's fraction; what the
measurement leaves below that moves the timescale (R454). -/
def foldPhase (s : State) : State :=
  let r := (Config.muxPhase s.tb.ticks s.clk.unified).toNat
  let c := s.tb.counter
  { s with tb := { s.tb with
      counter := if Config.muxPhaseNeg s.tb.ticks s.clk.unified then c - r else c + r } }

/-- The mode changes: unified clocking is entered or left, the four domains are switched under the mux rules, and TB folds
the phase of a clean TBCLK switch (R453, R454, R457, R458). The event is CLK_UNIFIED_ENTER or CLK_UNIFIED_EXIT. -/
def changeMode (s : State) (uni : Bool) : State :=
  let x : ClkSrc := if uni then .root else .main
  let s1 := [Domain.core, .pke, .ctrl, .tbclk].foldl (fun t d => switchTo t x d)
    (setClk s { s.clk with unified := uni })
  let s2 := if clkRuns s.clk.tbclk = true ∧ s1.clk.tbclk = x then foldPhase s1 else s1
  raiseN s2 (if uni then 18 else 19) 0 []

/-- CLK_XTAL_LOST (R456). -/
def execClkXtalLost (s : State) : Host.Outcome State Fault Refusal :=
  .next <|
    if s.clk.xtal = false then s
    else
      let s1 := raiseN (bump (setClk s { s.clk with xtal := false, xtalTick := s.tb.ticks }) 0x100104 1) 16 0 []
      if s1.clk.unified then s1
      else if s1.clk.loin = false then enterFailed (clkForceInvalid (allStop s1)) 1
      else
        let s2 := [Domain.core, .pke].foldl stopClock s1
        if rb s1 0x100000 3 then
          holdsChange (changeMode (if s2.clk.ctrl = .osc then s2 else stopClock s2 .ctrl) true)
        else enterFailed (ctrlToOsc s2) 1

/-- CLK_LOIN_LOST (R456). -/
def execClkLoinLost (s : State) : Host.Outcome State Fault Refusal :=
  .next <|
    if s.clk.loin = false then s
    else
      let s1 := raiseN (setClk s { s.clk with loin := false, loinTick := s.tb.ticks }) 17 0 []
      let s2 := if s1.clk.unified = true ∨ s1.clk.xtal = false then allStop s1 else stopClock s1 .tbclk
      enterFailed (clkForceInvalid s2) 1

/-- The output of a DPLL: its frequency against LO_IN in ppt, and none once LO_IN is lost or
while reset is held (R456, R501). -/
def kaolinOutput (s : State) (d : Nat) : Option Int :=
  if s.clk.loin = true ∧ s.glb.powered = true ∧ s.glb.resetHeld = false then some (dpllOf s d).freq else none

/-- Two frequencies, in ppm against any common reference, agree within 200 ppm. -/
def ppmAgree (a b : Int) : Bool := decide ((a - b).natAbs ≤ 200)

/-- An input differs from both others by more than 1,000 ppm while those two agree. -/
def ppmLost (x a b : Int) : Bool :=
  decide (1000 < (x - a).natAbs) && decide (1000 < (x - b).natAbs) && ppmAgree a b

def outcomeState (s : State) : Host.Outcome State Fault Refusal → State
  | .next t => t
  | _ => s

/-- CLK_FREQ_CHECK: the comparison of every 100 µs. An input that agrees again is present, and its alarm ends after
1 s of it (R451, R485). -/
def execClkFreqCheck (lo xtal sds : Int) (s : State) : Host.Outcome State Fault Refusal :=
  .next <|
    if ppmAgree lo xtal = false ∧ ppmAgree lo sds = false ∧ ppmAgree xtal sds = false then
      raiseN (setClk s { s.clk with xtalTick := s.tb.ticks, loinTick := s.tb.ticks }) 22 0 []
    else
      let xOk := ppmAgree xtal lo || ppmAgree xtal sds
      let lOk := ppmAgree lo xtal || ppmAgree lo sds
      let s1 := if ppmLost xtal lo sds then outcomeState s (execClkXtalLost s)
        else if ppmLost lo xtal sds then outcomeState s (execClkLoinLost s) else s
      let c := s1.clk
      let s2 := setClk s1 { c with
        xtal := c.xtal || xOk, xtalTick := if xOk && c.xtal then c.xtalTick else s1.tb.ticks,
        loin := c.loin || lOk, loinTick := if lOk && c.loin then c.loinTick else s1.tb.ticks }
      let s3 := if s2.clk.xtal = true ∧ xOk = true ∧ s2.clk.xtalTick + ticksPerSec ≤ s2.tb.ticks then alarmClear s2 16 else s2
      if s3.clk.loin = true ∧ lOk = true ∧ s3.clk.loinTick + ticksPerSec ≤ s3.tb.ticks then alarmClear s3 17 else s3

/-! ## Unified clocking (R453, R457, R458) -/

/-- UNIFIED_REQ: entered where the root has its input; else each switch is refused (R453, R457). -/
def execUnifiedReq (s : State) : Host.Outcome State Fault Refusal :=
  .next <|
    let s1 := wrf s 0x100000 2 1 1
    if s1.clk.unified then s1
    else if s1.clk.loin then holdsChange (changeMode s1 true)
    else [Domain.core, .pke, .ctrl, .tbclk].foldl (fun t d => switchTo t .root d) s1

/-- RETURN: accepted while UNIFIED_REQ = 0 and CORE_XTAL has been present and in agreement for 1 s. Where LO_IN is lost,
the switch of TBCLK alone is refused (R453, R457; log entry 119). -/
def execClkReturn (s : State) : Host.Outcome State Fault Refusal :=
  .next <|
    if s.clk.unified = true ∧ rb s 0x100000 2 = false ∧ s.clk.xtal = true ∧ s.clk.xtalTick + ticksPerSec ≤ s.tb.ticks then
      holdsChange (changeMode s false)
    else s

/-- The requests inside the lanes are dropped, uncounted (R459). -/
def dropLaneJobs (s : State) : State :=
  (List.range 16).foldl (fun t k =>
    setLane ((laneOf t k).jobs.foldl (fun u jb => releaseReq u jb.req) t) k { laneOf t k with jobs := [] }) s

/-- Every running job completes FAULT over a zeroed output; its core stays in service (R339, R459). -/
def faultRunning (s : State) : State :=
  (s.pke.jobs.filter isRunning).foldl (fun t j =>
    let z := faultOutput s j
    let t1 := bump (dropJob t j) 0xF00144 1
    let t2 := if z = [] then t1 else hostWrite t1 j.ring j.idx (descAddr j.desc 8) z
    let t3 := endJob t2 j 0x0A (pkeBody 0x0A j.core z.length (pkeTag j.desc) 0)
    if j.abort then abortDone t3 j.ring else t3) s

/-- The control cluster restarts: until it runs again no PKE, mint or Loam command completes (R17, R459). -/
def ctrlRestarts (s : State) : State :=
  raiseN { s with glb := { s.glb with ctrlUntil := max 1 (s.tb.ticks + Config.ctrlRestartTicks s.tb.ticks) } } 1 0 []

/-- What the rescue reset of a domain clears (R459). -/
def rescueReset (s : State) : Domain → State
  | .core => dropLaneJobs s
  | .pke => faultRunning s
  | .ctrl => ctrlRestarts s
  | .tbclk => s

/-- CLK_MUX_RESCUE: the watchdog forces the selection that a hung switch waits for, and resets the domain; cleared in the
meantime, it leaves the domain stopped for good (R458). -/
def execClkMuxRescue (d : Domain) (s : State) : Host.Outcome State Fault Refusal :=
  .next <|
    match hungFor (domainSrc s.clk d) with
    | some x =>
      if rb s 0x100000 4 then
        let s1 := rescueReset (setClk s (setDomain s.clk x d)) d
        holdsChange (raiseN (bump s1 0x100100 1) 20 (domainNum d) [domainNum d])
      else holdsChange (setClk s (setDomain s.clk .stuck d))
    | none => s

/-! ## The power planner (R462 to R467) -/

/-- The key of a planner unit. -/
def unitKey : PwrUnit → Nat
  | .lane k => k.val
  | .nts k => 16 + k.val
  | .pke k => 24 + k.val
  | .sched => 36
  | .gnBank k => 37 + k.val
  | .lp j => 45 + j.val
  | .brimE => 61
  | .brimW => 62
  | .mit => 63


/-- The class-0 bound of a port speed in ns; R29 gives none below 1 Gb/s. -/
def classBound (mbps : Nat) : Option Nat :=
  if 100000 ≤ mbps then some 1600 else if 25000 ≤ mbps then some 4200 else if 10000 ≤ mbps then some 9800
  else if mbps = 1000 then some 88000 else none

/-- The bound of the slowest enabled port that has one, where there is such a port (R465). -/
def slowestBound (s : State) : Option Nat :=
  (List.range 16).foldl (fun b j =>
    if portEnabled s j then
      match classBound (portMbps s j), b with
      | some n, some m => some (max n m)
      | some n, none => some n
      | none, b => b
    else b) none

/-- The deepest state of a lane (R465). -/
def laneDeepest (s : State) : Nat :=
  match slowestBound s with
  | some n => if 2000 ≤ n then 2 else 1
  | none => 1

/-- The deepest state that a unit may take now (R463, R465). -/
def deepest (s : State) : PwrUnit → Nat
  | .lane _ => laneDeepest s
  | .nts _ => 2
  | .pke k => if rb s 0xF00008 k then 1 else 3
  | .sched => 2
  | .gnBank k => if (List.range 16).all fun i => decide (((tget (fun _ => Chan.cold) s.gn.chans (16 * k.val + i)).st) = .idle)
      then 3 else 0
  | .lp j => if rb s (lpA j) 0 && !portFused s j then 0 else 3
  | .brimE | .brimW => if s.brim.en then 0 else 3
  | .mit => if s.mit.en then 0 else 3

/-- Units that must stay awake: the lowest MIN_LANES lanes and MIN_NTS pipelines, and a lane or core at work; parking
starts with the highest number. -/
def mustServe (s : State) : PwrUnit → Bool
  | .lane k => decide (k.val < rf s 0x200000 4 5) || !(laneOf s k).jobs.isEmpty ||
      (List.range 16).any fun i => decide (k.val < i) && decide (unitState s i = 0)
  | .nts k => decide (k.val < rf s 0x200000 9 4)
  | .pke k => (jobOn s k).isSome
  | _ => false

/-- Whether a time in ns reaches a state's threshold (R462 to R464): of a demand unit the time that it has been idle, of the
scheduler and of the banks of a sleeping receiver the time to the next event. No event is known of an idle bank of a receiver
that is awake, and of a unit that only EN = 1 wakes: their time is infinite. -/
def parkWorth (s : State) (u : PwrUnit) (t st : Nat) : Bool :=
  let be := [0, 100, 10000, 200000].getD st 0
  let wake := [0, 20, 2000, 40000].getD st 0
  match u with
  | .sched => decide (wake + be + 1000 ≤ t)
  | .gnBank _ => !s.gn.sleeping || decide (wake + be + 1000 ≤ t)
  | .lp _ | .brimE | .brimW | .mit => true
  | _ => decide (be ≤ t)

/-- PWR_IDLE_PARK: the deepest state that the idle time (in ns) pays for. -/
def execPwrIdlePark (u : PwrUnit) (idle : Nat) (s : State) : Host.Outcome State Fault Refusal :=
  .next <|
    if rb s 0x200000 0 = false ∨ mustServe s u = true then s
    else
      let st := ([1, 2, 3].filter fun x => decide (x ≤ deepest s u) && parkWorth s u idle x).foldl max 0
      if unitState s (unitKey u) < st then setUnit s (unitKey u) st else s

/-- A unit wakes; one that wakes after its event is counted (R466). A GNSS bank that leaves OFF starts its channels
from IDLE (R467). -/
def wakeUnit (s : State) (u : PwrUnit) (late : Bool) : State :=
  let k := unitKey u
  let s1 := match u with
    | .gnBank b =>
      if unitState s k = 3 then
        { s with gn := { s.gn with chans := s.gn.chans.filter fun e => decide (e.1 / 16 ≠ b.val) } }
      else s
    | _ => s
  let s2 := setUnit s1 k 0
  if late then raiseLim (bump s2 0x200100 1) 32 k k [k] else s2

/-- PWR_SCHEDULED_WAKE. -/
def execPwrScheduledWake (u : PwrUnit) (late : Bool) (s : State) : Host.Outcome State Fault Refusal :=
  .next (if unitState s (unitKey u) = 0 then s else wakeUnit s u late)

/-- PWR_DEMAND_WAKE. -/
def execPwrDemandWake (u : PwrUnit) (late : Bool) (s : State) : Host.Outcome State Fault Refusal :=
  .next (if unitState s (unitKey u) = 0 then s else wakeUnit s u late)

/-- PWR_LANE_WAKE: the lanes 0 to `lanes` - 1 are awake from now on (R465). -/
def execPwrLaneWake (lanes : Nat) (s : State) : Host.Outcome State Fault Refusal :=
  .next ((List.range (min 16 lanes)).foldl (fun t k => setUnit t k 0) s)

/-- PWR_LANE_PARK: the drained lanes from `lanes` up are parked, never below MIN_LANES (R465). -/
def execPwrLanePark (lanes : Nat) (s : State) : Host.Outcome State Fault Refusal :=
  .next <|
    if rb s 0x200000 0 then
      ((List.range 16).filter fun k => decide (max lanes (rf s 0x200000 4 5) ≤ k)).foldl (fun t k =>
        if (laneOf t k).jobs = [] ∧ unitState t k = 0 then setUnit t k 1 else t) s
    else s

/-! ## The on-request memory test (R471) -/

/-- MBT_RUN with GO = 1: the combination MODE = 1 needs ALG 2. Dispatch is held; a run in progress goes on as it is. -/
def execMbtRun (mode : Bool) (alg : BitVec 2) (s : State) : Host.Outcome State Fault Refusal :=
  .next <|
    if alg = 3 then s
    else
      let s1 := storeMask s 0x208000 0xE (BitVec.ofNat 32 (boolBit mode 1 + 4 * alg.toNat))
      if s.clk.mbtRun then s1
      else if mode = true ∧ alg ≠ 2 then orReg s1 0x208004 2
      else { setClk s1 { s1.clk with mbtRun := true, mbtMode := mode } with pke := { s1.pke with held := true } }

/-- MBT_DONE: the running jobs have completed; a destructive run has zeroed the key slots; dispatch resumes. -/
def execMbtDone (failRows : Nat) (s : State) : Host.Outcome State Fault Refusal :=
  .next <|
    if s.clk.mbtRun = false ∨ s.pke.jobs.any isRunning then s
    else
      let s1 := setClk s { s.clk with mbtRun := false, mbtPass := decide (failRows = 0), mbtFail := min 255 failRows }
      raiseN { s1 with pke := { s1.pke with held := false, slots := if s.clk.mbtMode then s1.pke.slots else [] } } 36 0 []

end Sys2Proof.Machine
end

