-- ==== Sys2Proof/Machine/TsUnits.lean ====
section
/-! DEFINITION. The commands of the timestamp units: region limits and the calibration accumulator (R199 to R205,
R214 to R216). -/

namespace Sys2Proof.Machine

/-- The reported regions put the ports of line port n outside the limits (R201). -/
def outOfLimits (s : State) (n : Nat) : Bool :=
  let dt := s.ts.temps.getD n 0 - s.ts.temps.getD 4 0
  let dv : Int := (s.ts.volts.getD n 0 : Int) - s.ts.volts.getD 4 0
  decide (rf s 0xA00820 0 8 * 100 < dt.natAbs) || decide (rf s 0xA00820 8 8 < dv.natAbs)

/-- A port beyond its limits becomes degraded (R202). -/
def degradePort (s : State) (j : Nat) : State :=
  if portExists s j && outOfLimits s (j / 4) && !(tsPort s j).degraded then
    raiseN (orReg (setTsPort s j { tsPort s j with degraded := true }) (tsA j + 0x1C) 2) 64 j [j]
  else s

/-- TS_REGION_REPORT (R201). -/
def execTsRegionReport (temps : List Int) (supplies : List Nat) (s : State) : Host.Outcome State Fault Refusal :=
  .next ((List.range 16).foldl degradePort { s with ts := { s.ts with temps := temps.take 5, volts := supplies.take 5 } })

/-- TS_RESTORED: 10 s within the limits have passed (R202). -/
def execTsRestored (j : Fin 16) (s : State) : Host.Outcome State Fault Refusal :=
  .next <|
    if (tsPort s j).degraded = true ∧ outOfLimits s (j.val / 4) = false then
      let s1 := raiseN (setTsPort s j { tsPort s j with degraded := false }) 65 j [j]
      if s1.ts.ports.any (fun e => e.2.degraded) then s1 else alarmClear s1 64
    else s

/-- TS_CAL_CLEAR (R204). -/
def execTsCalClear (s : State) : Host.Outcome State Fault Refusal :=
  .next (wr { s with ts := { s.ts with cal := [], calSum := 0, calCount := 0 } } 0xA00914 0)

/-- The high word of the sum is latched (R204). -/
def latchCalSum (s : State) : State :=
  { s with ts := { s.ts with sumHi := BitVec.ofNat 32 (twos 64 s.ts.calSum / 2 ^ 32) } }

/-- TS_CAL_SUM_READ: the low word is read and latches the high word (R204). -/
def execTsCalSumRead (s : State) : Host.Outcome State Fault Refusal :=
  .next (emit (latchCalSum s) (.readData 0 (BitVec.ofNat 32 (twos 64 s.ts.calSum))))

/-- TS_CAL_ENTRY_EXPIRE: an entry older than 1 ms is counted (R203). -/
def execTsCalEntryExpire (seq : BitVec 16) (s : State) : Host.Outcome State Fault Refusal :=
  .next <|
    match s.ts.cal.find? (fun e => decide (e.1 = seq.toNat)) with
    | none => s
    | some e => bump { s with ts := { s.ts with cal := s.ts.cal.erase e } } 0xA00914 1

end Sys2Proof.Machine
end

