-- ==== Sys2Proof/Machine/GnssSig.lean ====
section
/-! DEFINITION. The signals of the GNSS baseband: bands, samples, acquisition span, correlator spacing, loop bandwidths
(R125 to R136) and the checks of navigation data (R125, R137). -/

namespace Sys2Proof.Machine

/-! ## Signals and bands (R125, R126) -/

/-- The band of a signal. -/
def signalBand (g : Nat) : Nat := if [1, 3, 5, 8].contains g then 1 else 0

/-- The system of a signal: 0 GPS, 1 Galileo, 2 BeiDou, 3 GLONASS, 4 QZSS. -/
def signalSystem (g : Nat) : Nat := [0, 0, 1, 1, 2, 2, 3, 4, 4].getD g 0

/-- The span of a signal about its carrier, in units of 0.5 kHz; GLONASS with its outermost channels. -/
def signalRange (g : Nat) : Nat × Nat :=
  if g = 6 then (3204000 - 7 * 1125 - 1022, 3204000 + 6 * 1125 + 1022)
  else
    let carrier := if signalBand g = 1 then 2352900 else 3150840
    let half := 2 * [1023, 10230, 2046, 10230, 2046, 10230, 511, 1023, 10230].getD g 0
    (carrier - half, carrier + half)

/-- GN_IFb_RATE in kHz. -/
def bandRate (s : State) (b : Nat) : Nat := (rd s (0x500018 + 4 * b)).toNat

/-- A signal lies within its band; the comparison is in units of 10 Hz. -/
def inBand (s : State) (g : Nat) : Bool :=
  let b := signalBand g
  let centre := (rd s (0x500020 + 4 * b)).toNat * 100
  let half := 45 * bandRate s b
  decide (centre ≤ (signalRange g).1 * 50 + half ∧ (signalRange g).2 * 50 ≤ centre + half)

def sigEnabled (s : State) (g : Nat) : Bool := rb s 0x500000 (8 + g)

/-- The signals that are enabled and not in band. -/
def outOfBand (s : State) : Nat :=
  (List.range 9).foldl (fun n g => n + boolBit (sigEnabled s g && !inBand s g) g) 0

/-! ## IF samples (R128) -/

/-- A pin nibble as its format reads it. -/
def ifValue (signMagnitude : Bool) (x : BitVec 4) : Int :=
  if signMagnitude then (if x.msb then -((x.toNat % 8 : Nat) : Int) else (x.toNat : Int))
  else max (-7) x.toInt

/-- The sample I, Q that band b takes from its pins. -/
def ifSample (s : State) (b : Nat) (pinI pinQ : BitVec 4) : Int × Int :=
  let cfg := 0x500010 + 4 * b
  let (i, q) := if rb s cfg 3 then (pinQ, pinI) else (pinI, pinQ)
  let v := ifValue (rb s cfg 1)
  (v i, if rb s cfg 2 then -v q else v q)

/-! ## Correlators and loops (R134, R136) -/

/-- The spacing S of code k, in 1/320 chip: 0.05 + k/64 chip, or 1 chip for k = 61. -/
def spacingOf (k : Nat) : Nat := if k = 61 then 320 else 16 + 5 * k

/-- The chip rate of a signal in kchip/s. -/
def chipRate (g : Nat) : Nat := [1023, 10230, 1023, 10230, 1023, 10230, 511, 1023, 10230].getD g 0

/-- Where the early, prompt and late replicas lie, in 1/640 chip from prompt. -/
def replicas (spacing : Nat) : Int × Int × Int := (-(spacing : Int), 0, (spacing : Int))

/-- The bandwidths of the code loop and the carrier loop of a channel in TRACK, in 0.01 Hz. -/
def loopBandwidths (s : State) (st : ChState) : Option (Nat × Nat) :=
  if st = .track then some (rf s 0x500044 0 8, 10 * rf s 0x500044 8 8) else none

/-! ## Navigation data (R125, R137)

Where the check bits of a unit lie is not in the spec: it is that of the signals' own published interfaces, PRESUMED
(log entry 101). A unit of another length carries no check. -/

/-- CRC-24Q of a bit string, first bit first. -/
def crc24qBits (bits : List Bool) : Nat :=
  bits.foldl (fun c b => crcLeftStep 24 0x864CFB (c ^^^ boolBit b 23)) 0

/-- A bit string as a number, first bit highest. -/
def bitsNat (bits : List Bool) : Nat := bits.foldl (fun n b => 2 * n + boolBit b 0) 0

/-- The bits that a unit's CRC-24Q covers and the CRC, by signal and length. -/
def crcParts (g : Nat) (bits : List Bool) : Option (List Bool × List Bool) :=
  let cut := fun n => some (bits.take n, (bits.drop n).take 24)
  let n := bits.length
  if g = 1 ∨ g = 8 then (if n = 300 then cut 276 else none)
  else if g = 2 then
    (if n = 240 then some (bits.take 114 ++ (bits.drop 120).take 82, (bits.drop 202).take 24) else none)
  else if g = 3 then (if n = 244 then cut 214 else none)
  else if g = 4 then (if n = 600 then cut 576 else if n = 264 then cut 240 else none)
  else if g = 5 then (if n = 288 then cut 264 else none)
  else none

/-- The exclusive or of the bits of x that a mask selects. -/
def maskParity (x mask : Nat) : Bool :=
  (List.range 24).foldl (fun p k => p != ((x &&& mask).testBit k)) false

/-- The parity bits of one 30-bit word are right after the last two bits of the word before it. -/
def lnavWordOk (d29 d30 : Bool) (w : List Bool) : Bool :=
  let d := bitsNat ((w.take 24).map (· != d30))
  let want := [(d29, 0xEC7CD2), (d30, 0x763E69), (d29, 0xBB1F34), (d30, 0x5D8F9A), (d30, 0xAEC7CD), (d29, 0x2DEA27)].map
    fun e => e.1 != maskParity d e.2
  decide (w.drop 24 = want)

/-- Hamming parity of n words; a unit starts after a word that ends in 00. -/
def lnavOk : Nat → Bool → Bool → List Bool → Bool
  | 0, _, _, _ => true
  | n + 1, d29, d30, bits =>
    lnavWordOk d29 d30 (bits.take 30) && lnavOk n (bits.getD 28 false) (bits.getD 29 false) (bits.drop 30)

/-- The bit numbers of a GLONASS string that each of the sums C1 to C7 takes, beside its check bit. -/
def glonassSums : List (List Nat) :=
  let runs := fun (rs : List (Nat × Nat)) => rs.flatMap fun r => (List.range (r.2 + 1 - r.1)).map (· + r.1)
  [[9, 10, 12, 13, 15, 17, 19, 20, 22, 24, 26, 28, 30, 32, 34, 35, 37, 39, 41, 43, 45, 47, 49, 51, 53, 55, 57, 59, 61,
     63, 65, 66, 68, 70, 72, 74, 76, 78, 80, 82, 84],
   [9, 11, 12, 14, 15, 18, 19, 21, 22, 25, 26, 29, 30, 33, 34, 36, 37, 40, 41, 44, 45, 48, 49, 52, 53, 56, 57, 60, 61,
     64, 65, 67, 68, 71, 72, 75, 76, 79, 80, 83, 84],
   runs [(10, 12), (16, 19), (23, 26), (31, 34), (38, 41), (46, 49), (54, 57), (62, 65), (69, 72), (77, 80), (85, 85)],
   runs [(13, 19), (27, 34), (42, 49), (58, 65), (73, 80)],
   runs [(20, 34), (50, 65), (81, 85)],
   runs [(35, 65)],
   runs [(66, 85)]]

/-- The Hamming check of a GLONASS string of 85 bits, bit 85 first: every sum is 0, or only a check bit is wrong. -/
def glonassOk (bits : List Bool) : Bool :=
  let b := fun i => bits.getD (85 - i) false
  let sum := fun (is : List Nat) => is.foldl (fun p i => p != b i) false
  let cs := (List.range 7).map fun k => sum ((k + 1) :: glonassSums.getD k [])
  let all := sum ((List.range 85).map (· + 1))
  let bad := (cs.filter id).length
  (decide (bad = 0) && !all) || (decide (bad = 1) && all)

/-- The check of a navigation unit by its signal. -/
def navCheck (g : Nat) (bits : List Bool) : NavCheck :=
  let verdict := fun (ok : Bool) => if ok then NavCheck.pass else NavCheck.fail
  if g = 0 ∨ g = 7 then
    (if bits.length % 30 = 0 then verdict (lnavOk (bits.length / 30) false false bits) else .none)
  else if g = 6 then (if bits.length = 85 then verdict (glonassOk bits) else .none)
  else match crcParts g bits with
    | some (msg, crc) => verdict (decide (crc24qBits msg = bitsNat crc))
    | none => .none

end Sys2Proof.Machine
end

