-- ==== Sys2Proof/Machine/Osnma.lean ====
section
/-! DEFINITION. What OSNMA verifies (R149): the public key against the Merkle root, the signature of a DSM-KROOT by a
PKE job, the TESLA key chain and the tags. The byte strings that are hashed are those of the published OSNMA ICD,
PRESUMED (log entry 102). -/

namespace Sys2Proof.Machine

/-! ## The public key (R149) -/

/-- A Merkle leaf: the key's type and number, and the compressed point. -/
def krootLeaf (k : Kroot) : Bytes :=
  k.keyId :: BitVec.ofNat 8 (2 + k.qy.toNat % 2) :: beBytes 32 k.qx.toNat

/-- The root above node n: each sibling stands on the side that the node's number gives. -/
def merkleUp : List Bytes → Nat → Bytes → Bytes
  | [], _, h => h
  | x :: xs, n, h => merkleUp xs (n / 2) (sha256 (if n % 2 = 0 then h ++ x else x ++ h))

/-- GN_OSNMA_ROOT0 to 7, ROOT0 first. -/
def osnmaRoot (s : State) : Bytes := (List.range 8).flatMap fun k => beBytes 4 (rd s (0x5000C0 + 4 * k)).toNat

/-- The public key of a DSM-KROOT stands under the Merkle root. -/
def merkleOk (s : State) (k : Kroot) : Bool :=
  decide (merkleUp k.path k.leaf (sha256 (krootLeaf k)) = osnmaRoot s)

/-! ## The signature (R149) -/

/-- The descriptor of the ECDSA_VERIFY P-256 job: 160 bytes in, none out. -/
def krootDesc : Bytes := List.replicate 16 0 ++ leBytes 4 160 ++ leBytes 4 0x11 ++ List.replicate 8 0

/-- Its input: the hash of what is signed, the public key and the signature (R333). -/
def krootInput (k : Kroot) : Bytes :=
  sha256 (k.header ++ k.alpha ++ k.root) ++ beBytes 32 k.qx.toNat ++ beBytes 32 k.qy.toNat ++ beBytes 32 k.r.toNat
    ++ beBytes 32 k.s.toNat

/-- The job is with PKE. -/
def krootQueued (s : State) : Bool := s.pke.jobs.any fun j => decide (j.ring = gnssRing)

/-- The signature goes to the bulk class of PKE. -/
def submitKroot (s : State) (k : Kroot) : State :=
  queueJob { s with gn := { s.gn with kroot := some k, krootResult := none } } gnssRing 0 krootDesc
    (some (krootInput k))

/-! ## The key chain and the tags (R149) -/

/-- A Galileo System Time as OSNMA writes it: week and seconds of the week. -/
def gstBytes (t : Nat) : Bytes := beBytes 4 (t / 604800 % 4096 * 2 ^ 20 + t % 604800)

/-- The key n sub-frames before one of time t. -/
def teslaBack (c : Chain) : Nat → Nat → Bytes → Bytes
  | 0, _, k => k
  | n + 1, t, k =>
    let m := k ++ gstBytes (t - 30) ++ c.alpha
    teslaBack c n (t - 30) ((if c.sha3 then sha3 m else sha256 m).take c.key.length)

/-- A disclosed key is checked against the chain's newest key; none where it does not belong to the chain. An older
key changes nothing. -/
def chainTake (c : Chain) (k : TeslaKey) : Option Chain :=
  if k.gst < c.gst then some c
  else if (k.gst - c.gst) % 30 = 0 ∧ teslaBack c ((k.gst - c.gst) / 30) k.gst k.key = c.key then
    some { c with key := k.key, gst := k.gst }
  else none

/-- The disclosed keys in order; none where one fails. -/
def chainTakeAll : List TeslaKey → Chain → Option Chain
  | [], c => some c
  | k :: ks, c => (chainTake c k).bind (chainTakeAll ks)

/-- A tag under the chain's newest key. -/
def tagOk (c : Chain) (t : OsnmaTag) : Bool :=
  let mac := if c.cmac then ofOct (cmac (aesKeys (toOct (subPad c.key 0 16))) (toOct t.msg)) else hmac256 c.key t.msg
  decide (t.tag = beNat mac / 2 ^ (8 * mac.length - c.tagBits))

end Sys2Proof.Machine
end

