-- ==== Sys2Proof/Machine/Gnss.lean ====
section
/-! DEFINITION. The GNSS baseband (R125 to R161). -/

namespace Sys2Proof.Machine

/-- The baseband exists and runs (R5, R159). -/
def gnRuns (s : State) : Bool := !s.fuse.gnssAbsent && rb s 0x500000 0

def chanOf (s : State) (c : Nat) : Chan := tget (fun _ => Chan.cold) s.gn.chans c

def setChan (s : State) (c : Nat) (x : Chan) : State :=
  { s with gn := { s.gn with chans := tset (fun _ => Chan.cold) s.gn.chans c x } }

def bandOf (s : State) (b : Nat) : Band := tget (fun _ => Band.cold) s.gn.bands b

def setBand (s : State) (b : Nat) (x : Band) : State :=
  { s with gn := { s.gn with bands := tset (fun _ => Band.cold) s.gn.bands b x } }

def chanA (c : Nat) : Nat := 0x501000 + 0x10 * c

/-- The signal and SV of a channel: the host's with MANUAL = 1, else firmware's (R135). -/
def chanSignal (s : State) (c : Nat) : Nat := if rb s (chanA c) 0 then rf s (chanA c) 1 4 else (chanOf s c).signal
def chanSv (s : State) (c : Nat) : Nat := if rb s (chanA c) 0 then rf s (chanA c) 5 6 else (chanOf s c).sv

/-- A band is in use: the bands are disabled while the baseband sleeps or is off (R155, R159). -/
def bandOn (s : State) (b : Nat) : Bool := gnRuns s && !s.gn.sleeping && rb s (0x500010 + 4 * b) 0

/-- A band is in use and delivers samples. -/
def bandUp (s : State) (b : Nat) : Bool := bandOn s b && !(bandOf s b).lost

/-- A GNSS record is written to its ring; a drop sets RING_DROP and is reported (R138, R147, R161). -/
def gnRecord (s : State) (r : Nat) (body : Bytes) : State :=
  if (ringOf s r).st ≠ .running then s
  else if recordFits s r then writeRecord s r body
  else raiseN (orReg (bump s (ringA r + 0x1C) 1) 0x500004 0x200) 125 0 []

def tmode (s : State) : Nat := rf s 0x500000 1 2

/-! ## Bands (R129) -/

/-- A band is lost: its channels go to LOST (R129). -/
def bandLost (s : State) (b : Nat) : State :=
  if (bandOf s b).lost then s else
  let chans := s.gn.chans.map fun e =>
    if signalBand (chanSignal s e.1) = b ∧ e.2.st ≠ .idle then (e.1, { e.2 with st := .lost, used := false }) else e
  let s1 := setBand { s with gn := { s.gn with chans := chans } } b { bandOf s b with lost := true }
  raiseN s1 112 b [b]

/-- GN_IF_MEASURE: more than 200 ppm from GN_IFb_RATE loses the band. -/
def execGnIfMeasure (b : Fin 2) (hz : Nat) (s : State) : Host.Outcome State Fault Refusal :=
  .next <|
    if bandOn s b = false then s else
    let s1 := setBand s b { bandOf s b with meas := hz }
    let rate := bandRate s b * 1000
    if 200 * rate < ((hz : Int) - rate).natAbs * 1000000 then bandLost s1 b else s1

/-- GN_IF_CLOCK_STOP. -/
def execGnIfClockStop (b : Fin 2) (s : State) : Host.Outcome State Fault Refusal :=
  .next (if bandOn s b then bandLost s b else s)

/-- GN_IF_RESTORED. -/
def execGnIfRestored (b : Fin 2) (s : State) : Host.Outcome State Fault Refusal :=
  .next <|
    if bandOn s b = false ∨ (bandOf s b).lost = false then s else
    let s1 := raiseN (setBand s b { bandOf s b with lost := false }) 113 b [b]
    if (bandOf s1 (1 - b.val)).lost then s1 else alarmClear s1 112

/-! ## Front end (R130 to R132) -/

/-- The bytes of a host transfer. -/
def feTx (s : State) : Bytes :=
  (leBytes 4 (rd s 0x500034).toNat ++ leBytes 4 (rd s 0x500038).toNat).take (rf s 0x500030 3 4)

def feStart (s : State) : State :=
  emit { s with gn := { s.gn with feBusy := true, feHeld := false } } (.feSpi (feTx s))

/-- GN_FE_GO: started, held behind a script, or refused with COLLIDE. -/
def execGnFeGo (s : State) : Host.Outcome State Fault Refusal :=
  .next <|
    if s.fuse.gnssAbsent then s
    else if s.gn.feBusy || s.gn.feHeld then raiseN (orReg s 0x500030 4) 123 0 []
    else if s.gn.feScript.isSome then { s with gn := { s.gn with feHeld := true } }
    else feStart s

/-- GN_FE_TRANSFER_DONE: the received bytes land in GN_FE_RX. -/
def execGnFeTransferDone (rx : Bytes) (s : State) : Host.Outcome State Fault Refusal :=
  .next (if s.fuse.gnssAbsent then s
    else { s with gn := { s.gn with feBusy := false, feRx := rx.take (rf s 0x500030 3 4) } })

/-- GN_FE_SCRIPT_END: a held GO starts. -/
def execGnFeScriptEnd (s : State) : Host.Outcome State Fault Refusal :=
  .next <|
    if s.fuse.gnssAbsent then s else
    let s1 : State := { s with gn := { s.gn with feScript := none } }
    if s.gn.feHeld then feStart s1 else s1

def sectionCode : Section → Nat
  | .init => 0
  | .sleep => 1
  | .wake => 2

/-- The frames that a script section sends: bytes up to each EOT (R131). -/
def scriptFrames (s : State) (sec : Section) : List Bytes :=
  let r := (List.range 64).foldl (fun (acc : List Bytes × Bytes) k =>
    let w := rd s (0x500400 + 4 * k)
    if flag w 11 = true ∧ fld w 9 2 = sectionCode sec then
      let cur := acc.2 ++ [BitVec.ofNat 8 (fld w 0 8)]
      if flag w 8 then (acc.1 ++ [cur], []) else (acc.1, cur)
    else acc) ([], [])
  if r.2.isEmpty then r.1 else r.1 ++ [r.2]

/-- A script section is replayed (R131). -/
def runScript (s : State) (sec : Section) : State :=
  (scriptFrames s sec).foldl (fun t f => emit t (.feSpi f)) { s with gn := { s.gn with feScript := some sec } }

/-! ## Channels (R133 to R136) -/

/-! ### What is known at a start (R152, R153) -/

/-- The uncertainty of the starting time in ns; none without a source (R152). -/
def startUncNs (s : State) : Option Nat :=
  if s.tb.timeValid then some s.dpl.hoErr
  else if s.loam.rtcValid then
    some ((rd s 0x500078).toNat * ((rtcNow s / 32768 % 2 ^ 32) - s.loam.rtcAlign) * 1000 + 31000)
  else none

/-- The starting time in TAI seconds (R152). -/
def startSec (s : State) : Nat := if s.tb.timeValid then nowSec s else rtcNow s / 32768

/-- Time is known to 2 s or better (R153). -/
def timeKnown (s : State) : Bool := ((startUncNs s).map fun u => decide (u ≤ 2000000000)).getD false

/-- The kept ephemeris is valid at the starting time for at least 4 satellites of enabled signals (R153). -/
def ephUsable (s : State) : Bool :=
  let t := startSec s
  let sats := (s.gn.kept.eph.filter fun e => sigEnabled s e.signal && decide (e.start ≤ t ∧ t ≤ e.stop)).map
    fun e => (signalSystem e.signal, e.sv)
  decide (4 ≤ sats.eraseDups.length)

/-- The kept position is known to 3 km (R153), and no cold start has discarded it (R154). -/
def posKnown (s : State) : Bool := !s.gn.noPos && s.gn.kept.pos.isSome && decide (s.gn.kept.posUnc ≤ 3000)

/-- Half the span of a search in Hz, in bins of 250 Hz, about the predicted Doppler or about 0 (R133). -/
def searchSpan (s : State) : Nat := if posKnown s && timeKnown s then 500 else 6000

/-- GN_SEARCH_DONE: a signal found within the span, so many Hz from its middle, goes to PULL_IN; a channel whose search
found nothing searches again. -/
def execGnSearchDone (c : Fin 128) (found : Option Int) (s : State) : Host.Outcome State Fault Refusal :=
  .next <|
    let x := chanOf s c
    match found with
    | some hz =>
      if x.st = .search ∧ hz.natAbs ≤ searchSpan s then setChan s c { x with st := .pullIn, spacing := 320 } else s
    | none => s

/-- S of a channel by its SPACING code, in 1/320 chip (R134). -/
def chanSpacing (s : State) (c : Nat) : Nat := spacingOf (rf s (chanA c) 12 6)

/-- The code spacing is narrower than a sample period (R134). -/
def narrowWarn (s : State) (c : Nat) : Bool :=
  let g := chanSignal s c
  decide (chanSpacing s c * bandRate s (signalBand g) < 320 * chipRate g)

/-- GN_PULL_IN_DONE: TRACK applies the spacing (R133, R134). -/
def execGnPullInDone (c : Fin 128) (s : State) : Host.Outcome State Fault Refusal :=
  .next <|
    let x := chanOf s c
    if x.st = .pullIn then setChan s c { x with st := .track, spacing := chanSpacing s c, narrow := narrowWarn s c }
    else s

/-- GN_CHANNEL_IDLE (R133). -/
def execGnChannelIdle (c : Fin 128) (s : State) : Host.Outcome State Fault Refusal :=
  .next (if (chanOf s c).st = .lost then setChan s c Chan.cold else s)

/-! ## Navigation data (R137, R138) -/

/-- Bits packed first bit at the most significant bit. -/
def packBits : List Bool → Bytes
  | b0 :: b1 :: b2 :: b3 :: b4 :: b5 :: b6 :: b7 :: rest =>
    BitVec.ofNat 8 (boolBit b0 7 + boolBit b1 6 + boolBit b2 5 + boolBit b3 4 + boolBit b4 3 + boolBit b5 2
      + boolBit b6 1 + boolBit b7 0) :: packBits rest
  | [] => []
  | bs => [BitVec.ofNat 8 (bs.foldl (fun n b => n * 2 + boolBit b 0) 0 * 2 ^ (8 - bs.length))]

def navCode : NavCheck → Nat
  | .pass => 0
  | .fail => 1
  | .none => 2

/-- The parts of a navigation unit, one record each, with the receive instant of each part's first bit in 1/16 ns. -/
def navParts (c : Nat) (check : NavCheck) (parts : Nat) : Nat → List Nat → List Bool → State → State
  | 0, _, _, s => s
  | n + 1, starts, bits, s =>
    let part := bits.take 96
    let body := leBytes 2 0x11 ++ [BitVec.ofNat 8 c, BitVec.ofNat 8 (chanSignal s c), BitVec.ofNat 8 (chanSv s c),
        BitVec.ofNat 8 (navCode check), BitVec.ofNat 8 ((parts - 1 - n) + 16 * (parts - 1)),
        BitVec.ofNat 8 part.length] ++ leBytes 4 (starts.headD 0 / 16 % 2 ^ 32) ++ packBits part
    navParts c check parts n (starts.drop 1) (bits.drop 96) (gnRecord s 157 body)

/-- GN_NAV_UNIT: the unit is checked by its signal; a failed check is reported, and the records are written while
NAVREP = 1. -/
def execGnNavUnit (c : Fin 128) (bits : List Bool) (starts : List Nat) (s : State) :
    Host.Outcome State Fault Refusal :=
  .next <|
    if gnRuns s = false then s else
    let check := navCheck (chanSignal s c) bits
    let s1 := if check = .fail then raiseN s 119 0 [] else s
    let parts := ceilDiv bits.length 96
    if rb s 0x500000 4 then navParts c check parts parts starts bits s1 else s1

/-! ## OSNMA (R149 to R151) -/

def osnmaCode : Osnma → Nat
  | .off => 0
  | .noRoot => 1
  | .timeUncertain => 2
  | .krootWait => 3
  | .auth => 4
  | .fail => 5
  | .unsupported => 6

/-- The OSNMA record (R150). -/
def osnmaRecord (s : State) : State :=
  gnRecord s 158 (leBytes 2 0x13 ++ [BitVec.ofNat 8 (osnmaCode s.gn.osnma), BitVec.ofNat 8 s.gn.osnmaCause]
    ++ leBytes 5 s.gn.authSats)

/-- Ephemeris and clock data of a channel's satellite are authenticated (R150, R160). -/
def chanAuth (s : State) (c : Nat) : Bool :=
  decide (signalSystem (chanSignal s c) = 1) && decide (1 ≤ chanSv s c) && s.gn.authSats.testBit (chanSv s c - 1)

/-- Every channel's AUTH, as the authenticated satellites now are. -/
def noteAuth (s : State) : State :=
  { s with gn := { s.gn with chans := s.gn.chans.map fun e => (e.1, { e.2 with auth := chanAuth s e.1 }) } }

/-- Every used satellite has authenticated data in the state AUTH: flag [1] of the per-second message (R151). -/
def allAuth (s : State) : Bool := decide (s.gn.osnma = .auth) && s.gn.chans.all fun e => !e.2.used || e.2.auth

/-- Integrity, from the conditions of the latest epoch and OSNMA, with its event at a change (R142, R151). -/
def setSound (s : State) (v : Bool) : State :=
  let good := v && decide (s.gn.osnma ≠ .fail)
  let s1 : State := { s with gn := { s.gn with sound := v } }
  if s.gn.integrity = good then s1 else raiseN { s1 with gn := { s1.gn with integrity := good } } 115 0 []

/-- OSNMA takes a state: event and record at each change, and integrity follows (R142). Outside AUTH no satellite is
authenticated. -/
def osnmaTo (s : State) (o : Osnma) (cause : Nat) : State :=
  let s1 : State := noteAuth { s with gn := { s.gn with
    osnma := o, osnmaCause := cause, authSats := if o = .auth then s.gn.authSats else 0 } }
  if o = s.gn.osnma then s1 else setSound (osnmaRecord (raiseN s1 118 0 [])) s1.gn.sound

/-- The states that follow from the settings and the time uncertainty. FAIL lasts until a new DSM-KROOT verifies
(R151); with EN = 0 the state is OFF all the same, DESIGN CHOICE (log entry 103). -/
def osnmaEval (s : State) : State :=
  let o := s.gn.osnma
  if rb s 0x500090 0 = false then osnmaTo s .off 0
  else if o = .fail then s
  else if (osnmaRoot s).all (· = 0) then osnmaTo s .noRoot 0
  else if 15 < s.gn.startUnc then osnmaTo s .timeUncertain 0
  else if o = .off ∨ o = .noRoot ∨ o = .timeUncertain then osnmaTo s .krootWait 0
  else s

/-- GN_KROOT_RECEIVED: P-521 is unsupported; a key that is not under the Merkle root fails; else the signature goes to
PKE. A DSM-KROOT whose root key is verified already, or that comes while one is with PKE, changes nothing (log entry
103). -/
def execGnKrootReceived (k : Kroot) (s : State) : Host.Outcome State Fault Refusal :=
  .next <|
    let o := s.gn.osnma
    if gnRuns s = false ∨ o = .off ∨ o = .noRoot ∨ o = .timeUncertain then s
    else if k.p521 then (if o = .fail then s else osnmaTo s .unsupported 0)
    else if krootQueued s = true ∨ (o = .auth ∧ s.gn.kept.rootKey = k.root) then s
    else if merkleOk s k = false then osnmaTo s .fail 3
    else if o = .fail then submitKroot s k
    else osnmaTo (submitKroot s k) .krootWait 0

/-- The chain starts from a verified root key, which the GNSS record keeps (R149, R157). -/
def krootTake (s : State) (k : Kroot) : State :=
  osnmaTo { s with gn := { s.gn with
    chain := some { key := k.root, gst := k.gst, alpha := k.alpha, sha3 := k.sha3, cmac := k.cmac, tagBits := k.tagBits },
    kept := { s.gn.kept with rootKey := k.root }, authSats := 0 } } .auth 0

/-- GN_KROOT_VERIFIED: the job's verdict; a job that ended in a fault gives none and is submitted again. -/
def execGnKrootVerified (s : State) : Host.Outcome State Fault Refusal :=
  .next <|
    match s.gn.kroot, s.gn.krootResult with
    | some k, some result =>
      let s1 : State := { s with gn := { s.gn with kroot := none, krootResult := none } }
      if gnRuns s = false ∨ ¬(s.gn.osnma = .krootWait ∨ s.gn.osnma = .fail) then s1
      else if result = 0 then krootTake s1 k
      else if result = 3 ∨ result = 5 then osnmaTo s1 .fail 3
      else submitKroot s1 k
    | _, _ => s

/-- The keys and tags of an epoch: a key off the chain is cause 1, a wrong tag cause 2 (R149, R150). -/
def osnmaEpoch (s : State) (sol : Solution) : State :=
  if s.gn.osnma ≠ .auth then s else
  match s.gn.chain with
  | none => s
  | some c =>
    match chainTakeAll sol.keys c with
    | none => osnmaTo s .fail 1
    | some c1 =>
      if sol.tags.all (tagOk c1) then
        { s with gn := { s.gn with
          chain := some c1, authSats := sol.tags.foldl (fun n t => n ||| 2 ^ t.sv.val) s.gn.authSats } }
      else osnmaTo s .fail 2

/-- GN_OSNMA_REPORT. -/
def execGnOsnmaReport (s : State) : Host.Outcome State Fault Refusal :=
  .next (if gnRuns s then osnmaRecord s else s)

/-! ## The solution (R139 to R145) -/

def istoOf (s : State) (k : Nat) : Isto := tget (fun _ => Isto.cold) s.gn.isto k

/-- The ISTO record of a pair (R145); pairs 0 to 3 are Galileo, BeiDou, GLONASS, QZSS against GPS. -/
def istoRecord (s : State) (k : Nat) : State :=
  let x := istoOf s k
  gnRecord s 158 (leBytes 2 0x12 ++ [BitVec.ofNat 8 (k + 1),
      BitVec.ofNat 8 (boolBit x.bcastAvail 0 + boolBit x.estAvail 1 + boolBit x.applEst 2)]
    ++ leBytes 4 (twos 32 x.bcast) ++ leBytes 4 (twos 32 x.est) ++ leBytes 4 x.sigma ++ leBytes 4 x.stamp)

/-- What the epoch measured of a channel; a signal that is gone takes it to LOST (R133). -/
def takeMeas (s : State) (m : ChanMeas) : State :=
  let x := chanOf s m.chan
  let gone := m.lost && (decide (x.st = .track) || decide (x.st = .pullIn))
  setChan s m.chan { x with st := if gone then .lost else x.st, cn0 := m.cn0, elev := m.elev, azim := m.azim,
                            doppler := m.doppler, slot := m.slot }

/-- The satellite of a channel may be used in the solution, so far as its system may (R136, R151). -/
def chanUsable (s : State) (c : Nat) : Bool :=
  let x := chanOf s c
  let g := chanSignal s c
  decide (x.st = .track) && decide ((rd s 0x50004C).toNat * 4 ≤ x.cn0.toNat)
    && decide (((rd s 0x500048).toNat : Int) ≤ x.elev) && sigEnabled s g && inBand s g && bandUp s (signalBand g)
    && (!rb s 0x500090 1 || chanAuth s c)

/-- The satellites of a system that may be used. -/
def satsOf (s : State) (y : Nat) : List Nat :=
  ((s.gn.chans.filter fun e => chanUsable s e.1 && decide (signalSystem (chanSignal s e.1) = y)).map
    fun e => chanSv s e.1).eraseDups

/-- A pair's offset as an epoch finds it, under the mode of R144: pair k is of system k + 1. -/
def istoTake (s : State) (k : Nat) (m : IstoMeas) : State :=
  let mode := rf s 0x500080 0 2
  let estOk := decide (2 ≤ (satsOf s (k + 1)).length)
  let est := if mode = 1 then false else if mode = 2 then true else estOk
  let x : Isto := { bcastAvail := m.bcastAvail, estAvail := estOk, applEst := est,
                    avail := if est then estOk else m.bcastAvail, bcast := m.bcast, est := m.est,
                    sigma := m.sigma, stamp := nowShort s }
  let was := istoOf s k
  let s1 : State := { s with gn := { s.gn with isto := tset (fun _ => Isto.cold) s.gn.isto k x } }
  if was.applEst = est then s1 else istoRecord (raiseN s1 124 0 []) k

def istoTakeAll : Nat → List IstoMeas → State → State
  | _, [], s => s
  | k, m :: ms, s => istoTakeAll (k + 1) ms (istoTake s k m)

/-- A system takes part in the solution (R144). -/
def systemUsable (s : State) (y : Nat) : Bool := decide (y = 0) || (istoOf s (y - 1)).avail

/-- The satellite of a channel is used in the solution (R136, R144, R151). -/
def chanUsed (s : State) (c : Nat) : Bool := chanUsable s c && systemUsable s (signalSystem (chanSignal s c))

/-- Every channel's USED and AUTH, as the masks and the state of its satellite now have them. -/
def noteUsed (s : State) : State :=
  { s with gn := { s.gn with
    chans := s.gn.chans.map fun e => (e.1, { e.2 with used := chanUsed s e.1, auth := chanAuth s e.1 }) } }

/-- A channel assignment by firmware: an enabled, in-band signal visible above GN_ELEV_MASK (R126, R135). It wakes the
channel's bank (R463). -/
def takeAssign (s : State) (a : ChanAssign) : State :=
  let c := a.chan.val
  if rb s (chanA c) 0 = true ∨ sigEnabled s a.signal.val = false ∨ inBand s a.signal.val = false
      ∨ a.elev < ((rd s 0x500048).toNat : Int) then s
  else setChan (setUnit s (37 + c / 16) 0) c { Chan.cold with st := .search, signal := a.signal.val, sv := a.sv }

/-- A channel with MANUAL = 1 starts the search for the host's satellite where its band delivers it (R126, R135).
DESIGN CHOICE (log entry 104): SIG_EN does not hold it back. -/
def manualStart (s : State) (c : Nat) : State :=
  let g := rf s (chanA c) 1 4
  if inBand s g && bandUp s (signalBand g) then
    setChan (setUnit s (37 + c / 16) 0) c { Chan.cold with st := .search }
  else setChan s c Chan.cold

/-- The idle channels with MANUAL = 1 start. -/
def manualStarts (s : State) : State :=
  ((List.range 128).filter fun c => rb s (chanA c) 0 && decide ((chanOf s c).st = .idle)).foldl manualStart s

/-- A write of GN_CHc_CTL has changed MANUAL, SIGNAL or SV: the channel goes to the host's satellite; one that the host
gives back is idle until firmware assigns it (log entry 104). -/
def chanWritten (s t : State) (c : Nat) : State :=
  if (rd s (chanA c) &&& 0x7FF) = (rd t (chanA c) &&& 0x7FF) then t
  else if rb t (chanA c) 0 then manualStart t c
  else setChan t c Chan.cold

/-- The satellites used: system and SV pairs. -/
def satsUsed (s : State) : List (Nat × Nat) :=
  (s.gn.chans.filterMap fun e =>
    if e.2.used then some (signalSystem (chanSignal s e.1), chanSv s e.1) else none).eraseDups

/-- The systems beside GPS that are used with an estimated offset (R139, R144). -/
def estimatedSystems (s : State) : Nat :=
  ([1, 2, 3, 4].filter fun y => (istoOf s (y - 1)).applEst && (satsUsed s).any fun e => decide (e.1 = y)).length

/-- The satellites that the mode needs (R139). -/
def satsNeeded (s : State) : Nat := if tmode s = 2 then 1 else 4 + estimatedSystems s

/-- The used satellites are all on one band (R142). -/
def singleBand (s : State) : Bool :=
  let on := fun b => s.gn.chans.any fun e => e.2.used && decide (signalBand (chanSignal s e.1) = b)
  on 0 != on 1

/-- Validity of the solution takes a value. -/
def setSolution (s : State) (v : Bool) : State :=
  if s.gn.valid = v then s else raiseN { s with gn := { s.gn with valid := v } } 114 0 []

/-- The GNSS record is committed, the almanacs as a class of their own (R157, R365). -/
def gnCommit (s : State) : State :=
  let s1 : State := { s with gn := { s.gn with ephChanged := false, lastCommit := some s.tb.ticks } }
  let s2 := fwCommit s1 clsGnss (List.range (segCount clsGnss)) none
  if s.gn.almanac = [] then s2 else fwCommit s2 clsAlmanac (List.range (min 8 (ceilDiv s.gn.almanac.length pageRoom))) none

/-- The survey-in ends: the mean becomes the position (R140). -/
def surveyEnd (s : State) (sol : Solution) : State :=
  let s1 := wr (wr (wr s 0x500064 (wordOfInt sol.posX)) 0x500068 (wordOfInt sol.posY)) 0x50006C (wordOfInt sol.posZ)
  let s2 := wrf s1 0x500000 1 2 2
  gnCommit (raiseN { s2 with gn := { s2.gn with svinRunning := false } } 116 0 [])

/-- The mean position's deviation is small enough, and the survey has run long enough (R140). -/
def surveyDone (s : State) (sol : Solution) : Bool :=
  decide (tmode s = 1) && decide ((rd s 0x500050).toNat ≤ sol.svinSecs) && decide (sol.meanStd ≤ (rd s 0x500054).toNat)

/-- The ephemerides with new ones in place of those of the same signal and satellite. -/
def ephTake (old new : List Eph) : List Eph :=
  (old.filter fun e => !new.any fun n => decide (n.signal = e.signal ∧ n.sv = e.sv)) ++ new

/-- What an epoch leaves for the GNSS record (R153, R157). -/
def keptTake (s : State) (sol : Solution) (valid : Bool) : GnRec :=
  let k := s.gn.kept
  let pos := if valid then some (sol.posX, sol.posY, sol.posZ) else k.pos
  { k with eph := ephTake k.eph sol.eph, pos := pos, posUnc := if valid then sol.posUnc else k.posUnc,
           iono := sol.iono.getD k.iono, utc := sol.utc.getD k.utc }

/-- GN_EPOCH: OSNMA, channels, offsets between systems, validity, position mismatch, integrity and survey-in. -/
def execGnEpoch (sol : Solution) (s : State) : Host.Outcome State Fault Refusal :=
  .next <|
    if gnRuns s = false ∨ s.gn.sleeping = true then s else
    let s1 := sol.assigns.foldl takeAssign (manualStarts (osnmaEpoch s sol))
    let s2 := noteUsed (istoTakeAll 0 (sol.isto.take 4) (sol.chans.foldl takeMeas s1))
    let sats := (satsUsed s2).length
    let single := singleBand s2
    let unc := sol.timeUnc + if single then sol.ionoUnc else 0
    let need := satsNeeded s2
    let valid := sol.solved && decide (need ≤ sats)
    let fixedMode := decide (tmode s2 = 2)
    let mismatch := fixedMode && decide ((rd s2 0x500058).toNat < sol.posErr)
    let s3 : State := { s2 with gn := { s2.gn with
      sats := sats, singleFreq := single, timeUnc := unc, posMismatch := mismatch,
      startUnc := sol.startUnc, noPos := s2.gn.noPos && !valid,
      ephChanged := s2.gn.ephChanged || !sol.eph.isEmpty, kept := keptTake s2 sol valid,
      almanac := sol.almanac.getD s2.gn.almanac, svinRunning := decide (tmode s2 = 1) } }
    let good := valid && decide ((if fixedMode then 2 else need + 1) ≤ sats)
      && decide (sol.maxResidual ≤ (rd s3 0x50005C).toNat) && decide (unc ≤ (rd s3 0x500060).toNat)
      && !mismatch
    let s4 := setSound (setSolution s3 valid) good
    let s5 := if surveyDone s4 sol then surveyEnd s4 sol else s4
    let s6 := if mismatch ∧ s.gn.posMismatch = false then raiseN s5 117 0 [] else s5
    let s7 := if mismatch ∧ rb s6 0x500000 5 = true then wrf s6 0x500000 1 2 1 else s6
    osnmaEval s7

/-- GN_ISTO_REPORT. -/
def execGnIstoReport (s : State) : Host.Outcome State Fault Refusal :=
  .next (if gnRuns s then [0, 1, 2, 3].foldl istoRecord s else s)

/-! ## Per-second message and raw PPS (R146 to R148, R83, R91) -/

/-- The quantisation correction on the grid of GN_CTL.PPS_BAND: the raw edge is the first clock edge at or after the
true instant, so less than a sample period after it (R146). -/
def ppsQuant (s : State) (m : PpsMeas) : Int :=
  let rate := bandRate s (rf s 0x500000 3 1)
  let e := if rb s 0x500000 3 then m.edge1 else m.edge0
  Int.negOfNat (e * rate % 16000000 / rate)

/-- A leap flag: the broadcast event falls at the end of the UTC month of the edge (R148). -/
def ppsLeap (m : PpsMeas) (back : Bool) : Bool :=
  decide (m.leapAt = some (monthEnd ((m.taiSec : Int) - m.utcOfs)) ∧ m.leapBack = back)

/-- The per-second record (R148). -/
def ppsBody (s : State) (m : PpsMeas) : Bytes :=
  let g := s.gn
  leBytes 2 0x10
  ++ [BitVec.ofNat 8 (boolBit g.integrity 0 + boolBit (allAuth s) 1
        + boolBit (decide (tmode s = 2)) 2 + boolBit g.svinRunning 3 + boolBit g.singleFreq 4
        + boolBit (ppsLeap m false) 5 + boolBit (ppsLeap m true) 6), BitVec.ofNat 8 (min 255 g.sats)]
  ++ leBytes 6 m.taiSec ++ leBytes 4 (twos 32 (ppsQuant s m)) ++ leBytes 2 (min 0xFFFF g.timeUnc)
  ++ leBytes 2 (twos 16 m.utcOfs) ++ [BitVec.ofNat 8 (rf s 0x500000 6 2), 0] ++ leBytes 4 g.ppsSeq

def startCode : StartType → Nat
  | .none => 0
  | .hot => 1
  | .warm => 2
  | .cold => 3

/-- REF receives the message: quality, UTC offset and leap flags (R59, R60, R91). -/
def refTakesMessage (s : State) (m : PpsMeas) : State :=
  let s0 := setCand s 2 { candOf s 2 with osnma := allAuth s }
  let ql := if s.gn.integrity && (!rb s (candA 2) 8 || (candOf s0 2).osnma) then 1 else 15
  takeQl (takeUtc s0 2 (some m.utcOfs) (ppsLeap m false) (ppsLeap m true)) 2 ql ql

/-- GN_PPS_MESSAGE: the message goes to REF unless it is late, with a copy to ring 156. -/
def execGnPpsMessage (m : PpsMeas) (s : State) : Host.Outcome State Fault Refusal :=
  .next <|
    if gnRuns s = false ∨ s.gn.valid = false ∨ s.gn.sleeping = true then s else
    let s1 := gnRecord s 156 (ppsBody s m)
    let s2 : State := { s1 with gn := { s1.gn with ppsSeq := (s1.gn.ppsSeq + 1) % 2 ^ 32,
                                                   msg := if m.late then none else some (m.taiSec, ppsQuant s m),
                                                   msgSeen := !m.late } }
    let s3 := if m.late then s2 else refTakesMessage s2 m
    if s3.gn.startWait then
      raiseN { s3 with gn := { s3.gn with startWait := false, startMs := m.sinceStart % 2 ^ 24 } } 122 0 []
    else s3

/-- The accepted edge of GNSS at t of TAI second sec (R83, R96). -/
def gnssAccept (s : State) (t sec : Nat) : State :=
  let s1 := setPps { s with gn := { s.gn with msg := none, msgSeen := false } } 2
    { ppsOf s 2 with accepted := some t, expected := some (t + 16000000000), missRun := 0, outRun := [], outSeen := false }
  let s2 := setCand s1 2 { candOf s1 2 with presTime := true, presFreq := true }
  takeOffset (takeSecond s2 2 sec) 2 ((t : Int) - sec * sec16)

/-- GN_RAW_PPS: the edge lies `sub` sixteenths of a ns after the latest tick. With its correction it is judged as every
PPS edge, and a glitch leaves the message to the second's own edge (R99, R100); without its message it is a missing second
(R83). -/
def execGnRawPps (sub : Fin 32) (s : State) : Host.Outcome State Fault Refusal :=
  .next <|
    if gnRuns s = false ∨ s.gn.valid = false ∨ s.gn.sleeping = true then s else
    let s1 := emit s .rawPps
    match s1.gn.msg with
    | none => gnssMissed s1
    | some (sec, quant) =>
      let t := ((nowT16 s + sub.val : Nat) + quant).toNat
      match (ppsOf s1 2).expected with
      | none => takeSecond (setPps { s1 with gn := { s1.gn with msg := none } } 2 (acquireEdge (ppsOf s1 2) t)) 2 sec
      | some e => if ((t : Int) - e).natAbs ≤ winOf s1 2 then gnssAccept s1 t sec else glitchEdge s1 2 t

/-! ## Starts, sleep and wake (R152 to R157) -/

/-- The start type (R153). -/
def startTypeOf (eph pos time : Bool) : StartType :=
  if pos = false then .cold else if time ∧ eph = true then .hot else .warm

/-- The baseband starts: channels idle, no solution until an epoch gives one. -/
def gnBegin (s : State) (t : StartType) : State :=
  let s1 := setSound (setSolution s false) false
  osnmaEval (manualStarts { s1 with gn := { s1.gn with
    chans := [], startType := t, startWait := true, startMs := 0, sleeping := false, msg := none, msgSeen := false,
    startUnc := ((startUncNs s).map fun u => ceilDiv u 1000000000).getD full } })

/-- The start that R153 chooses from what is kept. -/
def gnStart (s : State) : State :=
  let s1 : State := { s with gn := { s.gn with noPos := false } }
  gnBegin s1 (startTypeOf (ephUsable s1) (posKnown s1) (timeKnown s1))

/-- A wake with its cause: 0 condition, 1 refresh, 2 command (R156, R161). -/
def gnWakeUp (s : State) (cause : Nat) : State :=
  if s.gn.sleeping then runScript (raiseN { s with gn := { s.gn with sleeping := false } } 121 0 [cause]) .wake
  else s

/-- GN_START_HOT falls back by R153. -/
def execGnStartHot (s : State) : Host.Outcome State Fault Refusal :=
  .next (if gnRuns s = false then s else gnStart (gnWakeUp s 2))

/-- GN_START_WARM discards the kept ephemeris for this start. -/
def execGnStartWarm (s : State) : Host.Outcome State Fault Refusal :=
  .next (if gnRuns s = false then s
    else
      let s1 := gnWakeUp { s with gn := { s.gn with noPos := false } } 2
      gnBegin s1 (startTypeOf false (posKnown s1) (timeKnown s1)))

/-- GN_START_COLD discards the kept data for this start. -/
def execGnStartCold (s : State) : Host.Outcome State Fault Refusal :=
  .next (if gnRuns s = false then s else gnBegin (gnWakeUp { s with gn := { s.gn with noPos := true } } 2) .cold)

/-- The conditions of sleep (R155). -/
def maySleep (s : State) : Bool :=
  rb s 0x500070 0 && decide (s.ref.tsel ≠ 2) && ([0, 1, 2].all fun d => decide ((dpllOf s d).sel ≠ 2))
  && s.tb.timeValid && decide (s.ref.tsel < 6) && decide (eql s s.ref.tsel ≤ rf s 0x500070 4 4)
  && decide (tmode s ≠ 1)

/-- GNSS is absent as a candidate: no roles, no expected edge, QL 15 (R91, R155). -/
def gnssGone (s : State) : State :=
  let s1 := setPps (setCand s 2 { candOf s 2 with presTime := false, presFreq := false }) 2 PpsIn.cold
  takeQl (loseRole (loseRole s1 2 0) 2 1) 2 15 15

/-- Sleep is entered: channels idle, the SLEEP script runs, GNSS is absent, the record is committed. -/
def gnSleepNow (s : State) : State :=
  let s1 := setSound (setSolution s false) false
  let s2 : State := { s1 with gn := { s1.gn with chans := [], sleeping := true, msg := none, refreshing := false } }
  gnCommit (runScript (raiseN (gnssGone s2) 120 0 []) .sleep)

/-- GN_SLEEP. -/
def execGnSleep (s : State) : Host.Outcome State Fault Refusal :=
  .next (if gnRuns s && !s.gn.sleeping && maySleep s then gnSleepNow s else s)

/-- GN_WAKE: a sleep condition fails. -/
def execGnWake (s : State) : Host.Outcome State Fault Refusal :=
  .next (if gnRuns s && s.gn.sleeping && !maySleep s then gnStart (gnWakeUp s 0) else s)

/-- GN_SLEEP_REFRESH. -/
def execGnSleepRefresh (s : State) : Host.Outcome State Fault Refusal :=
  .next <|
    if gnRuns s && s.gn.sleeping then
      let s1 := gnStart (gnWakeUp s 1)
      { s1 with gn := { s1.gn with refreshing := true } }
    else s

/-- GN_REFRESH_DONE: the record is committed, and the baseband sleeps again if it may; sleep entry commits it. -/
def execGnRefreshDone (s : State) : Host.Outcome State Fault Refusal :=
  .next <|
    if s.gn.refreshing = false then s else
    let s1 : State := { s with gn := { s.gn with refreshing := false } }
    if maySleep s1 then gnSleepNow s1 else gnCommit s1

/-- 30 min have passed since the record's last commit. -/
def gnCommitDue (s : State) : Bool :=
  (s.gn.lastCommit.map fun t => decide (t + 1800 * ticksPerSec ≤ s.tb.ticks)).getD true

/-- GN_RECORD_COMMIT: at most every 30 min while the ephemeris has changed. -/
def execGnRecordCommit (s : State) : Host.Outcome State Fault Refusal :=
  .next (if s.gn.ephChanged && gnCommitDue s then gnCommit s else s)

/-- HIST_COMMIT_DUE: firmware requests a HIST commit within the budget of its class (R118, R375). -/
def execHistCommitDue (s : State) : Host.Outcome State Fault Refusal :=
  .next (if s.dpl.model.isSome then fwCommit s clsHist [0] none else s)

end Sys2Proof.Machine
end

