-- ==== Sys2Proof/Machine/Views.lean ====
section
/-! DEFINITION. What registers read as: the stored word with the read-only bits that the state gives it, block by block
(R3, R15, R66 to R68, R76, R120 to R122, R158 to R160, R190 to R192, R204, R214, R247, R280, R296, R329, R330, R348,
R349, R359, R360, R400 to R402, R427 to R430, R445 to R448, R474, R475, R492 to R494, R507, R508), and the user counter
page (R327). -/

namespace Sys2Proof.Machine

/-- A number as a word. -/
def w32 (n : Nat) : Word := BitVec.ofNat 32 n

def satU (n : Nat) : Word := w32 (min full n)

/-- Bits of a list of truth values, bit 0 first. -/
def bitMap (n : Nat) (f : Nat → Bool) : Nat := (List.range n).foldl (fun m i => m + boolBit (f i) i) 0

/-- The element number and offset within an array of register sets. -/
def element (off base stride count : Nat) : Option (Nat × Nat) :=
  if base ≤ off ∧ off < base + stride * count then some ((off - base) / stride, (off - base) % stride) else none

def glbView (s : State) (o : Nat) : Word :=
  if o = 0 then 0x4D5A4880
  else if o = 4 then w32 (s.fuse.variant.toNat + boolBit s.fuse.port23Absent 2 + boolBit s.fuse.gnssAbsent 3 + 0xB000)
  else if o = 0x18 then w32 (s.glb.step + min 0xFFFF s.glb.restoreMs * 2 ^ 16)
  else if o = 0x1C then
    w32 ((if s.glb.recovery = 0 ∧ s.glb.ctrlUntil ≠ 0 then 1 else s.glb.recovery % 4) + min 15 (s.glb.ctrlTicks.filter fun t => decide (s.tb.ticks < t + 60 * ticksPerSec)).length * 256
      + min 15 (s.glb.escTicks.filter fun t => decide (s.tb.ticks < t + 600 * ticksPerSec)).length * 4096
      + s.glb.failCause * 65536)
  else if o = 0x44 then
    if s.glb.step = 0 then 0 else w32 (s.loam.runSlot + s.loam.runState * 2 + boolBit s.loam.csig.isSome 3 + fwCode s.loam.slot0 * 16
      + fwCode s.loam.slot1 * 256 + min 15 s.loam.attempts * 4096 + min 255 s.loam.elapsed * 65536)
  else if o = 0x48 then s.loam.unreadable.setWidth 32
  else 0

def clkView (s : State) (o : Nat) : Word :=
  let c := s.clk
  if o = 0 then c.loSel.setWidth 32
  else if o = 4 then
    w32 (boolBit c.unified 0 + boolBit c.xtal 1 + boolBit c.loin 2 + boolBit c.loin 3 + boolBit (clkRuns c.core) 4
      + boolBit (clkRuns c.pke) 5 + boolBit (clkRuns c.ctrl) 6
      + (if c.unified then 0
         else (List.range 3).foldl (fun n d => n + boolBit (rf s (0x100010 + 4 * d) 0 4 ≠ 0) (8 + d)) 0))
  else if o = 0x20 then
    let on := fun (x : ClkSrc) => decide (x = .root ∨ x = .osc)
    w32 (boolBit (on c.tbclk) 0 + boolBit (on c.core) 1 + boolBit (on c.pke) 2 + boolBit (on c.ctrl) 3)
  else 0

/-- Power states of `n` planner units from a key, two bits each. -/
def unitStates (s : State) (key n : Nat) : Word :=
  w32 ((List.range n).foldl (fun m i => m + unitState s (key + i) % 4 * 4 ^ i) 0)

def pwrView (s : State) (o : Nat) : Word :=
  if o = 0x10 then unitStates s 0 16 else if o = 0x14 then unitStates s 16 8 else if o = 0x18 then unitStates s 24 12
  else if o = 0x1C then unitStates s 37 8
  else if o = 0x8000 then w32 (boolBit s.clk.mbtRun 0)
  else if o = 0x8004 then
    w32 (boolBit s.clk.mbtPass 0 + min 255 s.clk.mbtFail * 256 + min 255 s.clk.mbtRepaired * 65536
      + min 255 s.clk.mbtUnrep * 2 ^ 24)
  else 0

def tbView (s : State) (o : Nat) : Word :=
  let lp := leapPending s
  if o = 0x08 then
    w32 (boolBit s.tb.timeValid 0
      + boolBit (refQualified s) 1
      + boolBit s.tb.holdover 2 + boolBit s.tb.stepArmed 3 + boolBit lp.isSome 4
      + boolBit ((lp.map fun l => decide (l.new < l.old)).getD false) 5 + boolBit s.tb.leapExpired 6
      + s.tb.stepCnt.toNat * 256)
  else if o = 0x04 then w32 (boolBit s.tb.forceInvalid 3)
  else if o = 0x10 then w32 (nsOf s.tb.counter)
  else if o = 0x14 then w32 ((stampWords s.tb.nowLatch).getD 1 0)
  else if o = 0x18 then w32 ((stampWords s.tb.nowLatch).getD 2 0)
  else if o = 0x1C then w32 s.tb.anchorNs
  else if o = 0x20 then w32 s.tb.anchorSec
  else if o = 0x24 then w32 (s.tb.anchorSec / 2 ^ 32 % 65536 + s.tb.anchorStep.toNat * 65536)
  else if o = 0x30 then w32 (twos 40 s.tb.dco % 2 ^ 32)
  else if o = 0x34 then w32 (twos 40 s.tb.dco / 2 ^ 32)
  else if o = 0x60 then satWord s.tb.offset
  else if o = 0x64 then satWord (roundDiv (s.tb.integ * 1000) (2 ^ 24))
  else 0

def roleCode : RoleState → Nat
  | .absent => 0
  | .disqualified => 1
  | .qualifying => 2
  | .qualified => 3

/-- REF (R120). DESIGN CHOICE (log entry 114): offsets and the build-out are rounded down to their register's unit, and
BO_ACTIVE is 1 for any build-out that is not 0. -/
def refView (s : State) (o : Nat) : Word :=
  if o = 0x08 then w32 (s.ref.tsel + boolBit (s.ref.bo ≠ 0) 3)
  else if o = 0x0C then w32 ((List.range 7).foldl (fun n i => n + roleCode (candOf s i).stT * 4 ^ i) 0)
  else if o = 0x10 then w32 ((List.range 7).foldl (fun n i => n + roleCode (candOf s i).stF * 4 ^ i) 0)
  else if o = 0x24 then satWord (s.ref.bo / 1000)
  else if o = 0x2C then w32 (min 31 s.ref.pairAgree + boolBit s.ref.pairDisc 8)
  else match element o 0x40 0x20 6 with
    | some (i, 0x10) => satWord ((candOf s i).offset / 16)
    | some (i, 0x14) => satWord (candOf s i).freq
    | some (i, 0x18) =>
      let c := candOf s i
      w32 (c.rxql % 16 + eql s i % 16 * 16 + c.raw % 256 * 256 + c.srcClass % 256 * 65536)
    | _ => 0

/-- The bandwidth code in use (R111, R112). DESIGN CHOICE (log entry 116): 0 in FREERUN and HOLDOVER, which have no
bandwidth. -/
def bwCode (s : State) (d : Nat) : Nat :=
  let a := 0x480000 + 0x40 * d
  match (dpllOf s d).st with
  | .acquire => if rb s a 0 then 40 else rf s a 1 6
  | .narrow => 24
  | .track => rf s a 1 6
  | _ => 0

def modelView (m : HistModel) (o : Nat) : Word :=
  ([m.f0, m.age, m.tc1, m.tc2, m.t0, m.sigF, m.sigA, m.sigT].map satWord).getD ((o - 0x110) / 4) (w32 m.th)

def dplView (s : State) (o : Nat) : Word :=
  if o = 0x100 then satU s.dpl.hoErr
  else if o = 0x104 then (if s.tb.holdover then satU s.dpl.hoT else 0)
  else if o = 0x108 then satWord s.dpl.preload
  else if 0x110 ≤ o ∧ o ≤ 0x130 then (s.dpl.model.map fun m => modelView m o).getD 0
  else match element o 0 0x40 3 with
    | some (d, 0x08) =>
      let x := dpllOf s d
      w32 (dpllCode x.st + x.sel % 8 * 8 + bwCode s d * 64 + outQl s d % 16 * 4096)
    | some (d, 0x0C) => satWord (Config.dpllPhase d s.tb.ticks)
    | some (d, 0x10) => satWord (dpllOf s d).freq
    | some (d, 0x14) => satWord (dpllOf s d).bo
    | _ => 0

def chCode : ChState → Nat
  | .idle => 0
  | .search => 1
  | .pullIn => 2
  | .track => 3
  | .lost => 4

def gnView (s : State) (o : Nat) : Word :=
  if o = 4 then w32 (outOfBand s + boolBit s.gn.sleeping 10 + boolBit s.gn.valid 11 + boolBit s.gn.integrity 12)
  else if o = 0x28 ∨ o = 0x2C then satU (tget (fun _ => Band.cold) s.gn.bands ((o - 0x28) / 4)).meas
  else if o = 0x30 then w32 (boolBit (s.gn.feBusy || s.gn.feScript.isSome) 1)
  else if o = 0x3C then w32 (leNat (subPad s.gn.feRx 0 4))
  else if o = 0x40 then w32 (leNat (subPad s.gn.feRx 4 4))
  else if o = 0x94 then w32 (osnmaCode s.gn.osnma + s.gn.osnmaCause % 256 * 256)
  else if o = 0xA4 then w32 (startCode s.gn.startType + s.gn.startMs * 256)
  else match element o 0x1000 0x10 128 with
    | some (c, 4) =>
      let x := chanOf s c
      w32 (chCode x.st + boolBit x.used 3 + boolBit x.auth 4 + boolBit x.narrow 5 + x.cn0.toNat * 256 + x.slot % 64 * 65536)
    | some (c, 8) => satWord (chanOf s c).doppler
    | some (c, 12) => w32 (twos 8 (chanOf s c).elev + (chanOf s c).azim % 512 * 65536)
    | _ => 0

def ttView (s : State) (o : Nat) : Word :=
  match element o 0 0x40 16, element o 0x400 0x20 16 with
  | some (n, 0x24), _ => w32 (boolBit (ttOutOf s n).running 0)
  | _, some (m, k) =>
    let x := tget (fun _ => TtIn.cold) s.ttIn m
    let ws := stampWords (ofT16 x.stamp)
    if k = 0x08 then w32 (ws.getD 0 0) else if k = 0x0C then w32 (ws.getD 1 0) else if k = 0x10 then w32 (ws.getD 2 0)
    else if k = 0x18 then w32 (x.count % 2 ^ 32) else 0
  | _, _ => 0

def lpView (s : State) (o : Nat) : Word :=
  match element (o % 0x40000) 0x100 0x100 4 with
  | some (k, 8) =>
    let j := 4 * (o / 0x40000) + k
    let p := portOf s j
    let en := portEnabled s j
    w32 (boolBit p.up 0 + boolBit p.holding 1 + p.fecActive % 4 * 4 + p.pauseCls.toNat * 16 + boolBit p.pausePort 12
      + boolBit (p.stormPort || decide (p.stormCls ≠ 0)) 13 + boolBit (en && p.localFault) 14
      + boolBit (en && p.remoteFault) 15 + p.sgmii % 4 * 65536)
  | _ => 0

def mgView (s : State) (o : Nat) : Word :=
  if o = 8 then w32 (boolBit s.mg.up 0 + s.mg.speed % 4 * 65536)
  else if o = 0x28 then w32 (boolBit s.mg.lowered 23)
  else 0

def tsView (s : State) (o : Nat) : Word :=
  if o = 0x908 then satU s.ts.calCount
  else if o = 0x90C then w32 (twos 64 s.ts.calSum % 2 ^ 32)
  else if o = 0x910 then s.ts.sumHi
  else match element o 0 0x40 16, element o 0x800 4 5 with
    | some (j, k), _ =>
      let x := tget (fun _ => TsPort.cold) s.ts.ports j
      if k = 0x0C then satWord (fixedDelay s j true) else if k = 0x10 then satWord (fixedDelay s j false)
      else if k = 0x14 then satWord x.compTx else if k = 0x18 then satWord x.compRx
      else if k = 0x1C then w32 (boolBit x.degraded 0) else 0
    | _, some (r, _) => w32 (twos 16 (s.ts.temps.getD r 0) + s.ts.volts.getD r 0 % 4096 * 65536)
    | _, _ => 0

def rspView (s : State) (o : Nat) : Word :=
  if o = 4 then w32 (boolBit (rb s 0xB00000 0 && (List.range 16).any (laneHealthy s)) 0)
  else if o = 8 then w32 ((bitMap 16 fun k => (laneOf s k).testing) * 65536)
  else if o = 0x0C then w32 (bitMap 16 fun k => laneHealthy s k)
  else if 0x44 ≤ o ∧ o ≤ 0x50 then
    let g := grantOf s (rf s 0xB00040 0 12)
    if g.live then Config.grantWord ((o - 0x44) / 4) (beBytes 2 g.j ++ beBytes 2 g.prof ++ [BitVec.ofNat 8 g.typ,
      BitVec.ofNat 8 (twos 8 g.log)] ++ beBytes 4 (g.expiry - nowSec s) ++ g.peer)
    else 0
  else if o = 0x60 then w32 ((s.rsp.grants.filter fun e => e.2.live).length)
  else 0

def ntsSlotCode : SlotState → Nat
  | .empty => 0
  | .current => 1
  | .accepted => 2
  | .pending => 3

def ntsView (s : State) (o : Nat) : Word :=
  let cur := curSlot? s
  let gen := (cur.map (slotOf s)).getD KeySlot.cold
  if o = 4 then
    w32 (boolBit (ntsServes s) 0 + boolBit s.ent.ready 1 + boolBit cur.isSome 2 + boolBit s.nts.conflict 3
      + boolBit (s.nts.pool = 0) 4 + boolBit s.nts.stale 5 + cur.getD 0 * 256)
  else if o = 0x0C then w32 (boolBit s.nts.busy 0 + s.nts.result % 16 * 16)
  else if o = 0x20 then w32 (min 65536 s.nts.pool)
  else if o = 0x24 then gen.id
  else if o = 0x28 then (if cur.isSome then w32 (gen.born + (rd s 0xC00010).toNat) else 0)
  else match element o 0x40 0x10 8 with
    | some (k, 0) => (slotOf s k).id
    | some (k, 4) => w32 (slotOf s k).born
    | some (k, 8) => w32 (ntsSlotCode (slotOf s k).st)
    | _ => 0

def gntView (s : State) (o : Nat) : Word :=
  if o = 0 then w32 (boolBit s.gnt.rekey 1 + boolBit s.gnt.drbgKey 2)
  else if o = 0x0C then w32 (s.gnt.occ % 8192)
  else match element o 0x1000 0x10 16 with
    | some (j, 4) => satU (creditOf s j)
    | _ => 0

def ringStCode : RingState → Nat
  | .disabled => 0
  | .running => 1
  | .stopping => 2
  | .error => 3

def hifView (s : State) (o : Nat) : Word :=
  if o = 0 then w32 (s.hif.speed % 8 + s.hif.width % 32 * 8 + boolBit s.hif.linkUp 8)
  else match element o 0x80 4 8, element o 0x1000 0x20 256 with
    | some (w, _), _ => w32 (bitMap 32 fun b => decide ((ringOf s (32 * w + b)).st = .error))
    | _, some (r, k) =>
      let g := ringOf s r
      if k = 0x10 then w32 (boolBit (g.st = .running ∨ g.st = .error) 0)
      else if k = 0x14 then w32 (ringStCode g.st + g.cause % 16 * 16 + boolBit g.armed 8)
      else if k = 0x18 then w32 (g.f.toNat + g.q.toNat * 65536)
      else 0
    | _, _ =>
      if o = 0x9000 ∨ o = 0x9004 then w32 (bitMap 32 fun b => (vecOf s (8 * (o - 0x9000) + b)).pba) else 0

def pkeView (s : State) (o : Nat) : Word :=
  let slot := tget (fun _ => ([] : Bytes)) s.pke.slots (rf s 0xF00010 0 8)
  if o = 0 then w32 (boolBit s.pke.wrapLock 0)
  else if o = 4 then
    w32 (bitMap 12 (fun k => rb s 0xF00008 k && !(tget (fun _ => Core.cold) s.pke.cores k).faulty)
      + bitMap 12 (fun k => (jobOn s k).isSome) * 65536)
  else if o = 8 then w32 (bitMap 12 (fun k => (tget (fun _ => Core.cold) s.pke.cores k).testing) * 65536)
  else if o = 0x14 then w32 (boolBit (slot ≠ []) 0 + (if slot = [] then 0 else keyType slot % 8 * 2))
  else if o = 0x18 then w32 (s.pke.slots.length % 512)
  else 0

def entView (s : State) (o : Nat) : Word :=
  let e := s.ent
  if o = 0 then w32 (boolBit e.reseedNow 0)
  else if o = 4 then
    w32 (boolBit e.ready 0 + boolBit e.servingOld 1 + boolBit e.blocked 2 + boolBit e.katFail 3
      + bitMap 4 (fun i => e.started && !e.failing.getLsbD i) * 16)
  else if o = 0x10 then 81 else if o = 0x14 then 840
  else if o = 0x18 then w32 (min 0x1FFFFF e.reqs)
  else if o = 0x1C then satU ((s.tb.ticks - e.seedTick) / ticksPerMs)
  else match element o 0x40 4 4 with
    | some (i, _) =>
      let g := tget (fun _ => (0, 0)) e.good i
      if e.started then w32 (min (if e.failing.getLsbD i then 1023 else 1024) (g.1 + (s.tb.ticks - g.2) / 500)) else 0
    | none => 0

def verdictCode : Verdict → Nat
  | .absent => 0
  | .intact => 1
  | .repaired => 2
  | .single => 3
  | .rolledBack => 4
  | .conflicted => 5
  | .lost => 6
  | .unreadable => 7
  | .evicted => 8

def loamView (s : State) (o : Nat) : Word :=
  let l := s.loam
  let k := segKey (rf s 0x1100008 0 4) (rf s 0x1100008 4 5)
  let joined := (List.range l.retired.length).flatMap fun i => (List.range 16).map fun j => 3584 + 16 * i + j
  let counts := ((List.range 3456).map (128 + ·) ++ joined).map (pgmOf l)
  let work := fun (e : Nat × Nat) => !(decide (e.1 = clsKeys) && s.nts.conflict)
  if o = 4 then
    w32 (l.st % 4 + boolBit l.cur.isSome 2 + boolBit (l.pfail || l.holdoff) 3 + boolBit l.restored 4
      + boolBit (l.repair.any work || l.copies.any (toRelease l)) 5 + min 63 l.spares * 256)
  else if o = 0x0C then
    w32 (verdictCode (tget (fun _ => Verdict.absent) l.verdict k) + tget (fun _ => 0) l.copiesAt k % 4 * 16
      + (if (l.recUse.lookup k).isSome then 256 else 0) + (l.lineUse.lookup k).getD 0 % 2 * 2 ^ 24)
  else if o = 0x10 then satU (tget (fun _ => 0) l.genUse k)
  else if o = 0x20 then w32 ((l.retired.length + l.sysRetired.length) % 512)
  else if o = 0x24 then satU (counts.foldl max 0)
  else if o = 0x28 then satU (counts.foldl (· + ·) 0 / counts.length)
  else if o = 0x100 then w32 (rtcNow s / 32768)
  else if o = 0x104 then w32 (rtcNow s / 32768 / 2 ^ 32 % 65536)
  else if o = 0x108 then w32 (rtcNow s % 32768)
  else if o = 0x10C then w32 (boolBit l.rtcValid 0 + boolBit l.vbatLow 2)
  else if o = 0x110 then w32 l.rtcAlign
  else 0

def brimCode : BrimState → Nat
  | .off => 0
  | .search => 1
  | .ring => 2
  | .line => 3
  | .alone => 4

def brimView (s : State) (o : Nat) : Word :=
  let b := s.brim
  if o = 4 then
    w32 (brimCode b.st + boolBit (leads s) 3 + (myNum s).getD 0 % 8 * 16 + b.leader.getD 0 % 8 * 256
      + min 8 b.members.length * 2048)
  else if o = 8 then s.fuse.brimId.setWidth 32
  else if o = 0x0C then (s.fuse.brimId >>> 32).setWidth 32
  else if o = 0x10 then satU b.enumMs
  else if o = 0x80 then satWord b.delayE
  else if o = 0x84 then satWord b.delayW
  else if o = 0x90 then satWord b.offset
  else if o = 0x94 then satU b.rotNs
  else match element o 0x20 8 8, element o 0x60 4 8 with
    | some (m, 0), _ => (b.members.getD m 0).setWidth 32
    | some (m, 4), _ => (b.members.getD m 0 >>> 32).setWidth 32
    | _, some (m, _) =>
      if m < b.members.length then
        let path := (pathTo b (b.members.getD m 0)).getD (0, false)
        w32 (1 + path.1 % 8 * 2 + boolBit path.2 4 + b.eqls.getD m 15 % 16 * 256)
      else 0
    | _, _ => 0

def mitView (s : State) (o : Nat) : Word :=
  let m := s.mit
  if o = 4 then
    w32 (mitCode m.st + boolBit m.linkUp 3 + boolBit m.inbandUp 4 + boolBit (witnessed s) 5 + boolBit (16 ≤ m.lock) 6)
  else if o = 0x0C then w32 (boolBit (witnessed s) 0)
  else if o = 0x18 then satWord m.offset
  else if o = 0x1C then satWord m.delay
  else if o = 0x24 then m.peerId.setWidth 32
  else if o = 0x28 then (m.peerId >>> 32).setWidth 32
  else if o = 0x2C then s.fuse.unitMac.setWidth 32
  else if o = 0x30 then w32 (s.fuse.unitMac.toNat / 2 ^ 32)
  else if o = 0x34 then w32 m.lastTakeover
  else 0

def bcpView (s : State) (o : Nat) : Word :=
  if o = 8 then s.bcp.mboxIn
  else if o = 0x0C then s.bcp.mboxOut
  else match element o 0x100 0x20 2 with
    | some (c, k) =>
      let x := i2cOf s c
      if k = 0 then w32 (boolBit x.busy 7 + x.status % 8 * 256)
      else if k = 0x10 then w32 (leNat (subPad x.rx 0 4)) else if k = 0x14 then w32 (leNat (subPad x.rx 4 4)) else 0
    | none => 0

def evtView (s : State) (o : Nat) : Word :=
  let used := s.evt.alarms.filter fun e => e.2.used
  if o = 0x14 then
    w32 (used.length % 256 + (used.filter fun e => e.2.active).length % 256 * 256 + boolBit (alarmLow s) 16)
  else if 0x1C ≤ o ∧ o ≤ 0x30 then
    let a := alarmOf s (rf s 0x1500018 0 7)
    let words := [w32 (a.id + a.sev * 512 + boolBit a.active 11 + boolBit a.unack 12 + a.count * 65536), a.mask,
      w32 (secOf a.first), w32 (nsOf a.first), w32 (secOf a.last), w32 (nsOf a.last)]
    (if a.used then words.getD ((o - 0x1C) / 4) 0 else 0)
  else match element o 0x2000 4 384 with
    | some (i, _) =>
      let x := siltOf s i
      w32 (boolBit x.summary 0 + classOf i * 4 + min 0xFFFF x.raises * 65536)
    | none => 0

def pmcView (s : State) (o : Nat) : Word :=
  match element o 0x100 0x10 64 with
  | some (k, 8) => (pmcOf s k).val.setWidth 32
  | some (k, 12) => (pmcOf s k).hi
  | _ => 0

/-- The low-word addresses of the statistics counters (R487, R488). -/
def statLow (a : Nat) : Bool :=
  decide (a % 8 = 0) &&
  ((decide (0x800000 ≤ a ∧ a < 0x900000) && decide (0x1000 ≤ a % 0x40000 ∧ a % 0x40000 < 0x1400) && decide (a % 0x100 < 0x20))
   || decide (0x901000 ≤ a ∧ a < 0x901020) || decide (0xB08000 ≤ a ∧ a < 0xB08028)
   || decide (0xC00100 ≤ a ∧ a < 0xC00120) || decide (0xD02000 ≤ a ∧ a < 0xD02018)
   || decide (0xF00100 ≤ a ∧ a < 0xF00110) || decide (a = 0x1000140) || decide (a = 0x1100030))

/-- The read-only bits of a register at an offset in block `b`, in the order of R510. -/
def blockView (s : State) (b o : Nat) : Word :=
  match b with
  | 0 => glbView s o
  | 1 => clkView s o
  | 2 => pwrView s o
  | 3 => tbView s o
  | 4 => refView s o
  | 5 => dplView s o
  | 6 => gnView s o
  | 7 => ttView s o
  | 8 => lpView s o
  | 9 => mgView s o
  | 10 => tsView s o
  | 11 => rspView s o
  | 12 => ntsView s o
  | 13 => gntView s o
  | 14 => hifView s o
  | 15 => pkeView s o
  | 16 => entView s o
  | 17 => loamView s o
  | 18 => brimView s o
  | 19 => mitView s o
  | 20 => bcpView s o
  | 21 => evtView s o
  | 22 => pmcView s o
  | _ => 0

/-- The block of an address is fused off (R4, R5). -/
def blockFused (s : State) (a : Nat) : Bool :=
  (s.fuse.port23Absent && decide (0x880000 ≤ a ∧ a < 0x900000))
  || (s.fuse.gnssAbsent && decide (0x500000 ≤ a ∧ a < 0x600000))

/-- A register or counter of a logical port that does not exist: it is in no table (R10), so it reads 0 and takes no
write (R190, R214). -/
def portRegHidden (s : State) (a : Nat) : Bool :=
  if 0x800000 ≤ a ∧ a < 0x900000 then
    let o := a % 0x40000
    decide ((0x200 ≤ o ∧ o < 0x500) ∨ (0x1100 ≤ o ∧ o < 0x1400))
      && !lpSplit s ((a - 0x800000) / 0x40000)
  else decide (0xA00000 ≤ a ∧ a < 0xA00400) && !portExists s ((a - 0xA00000) / 0x40)

/-- Until RESTORED rises, only GLB and the blocks that WARM does not reach answer (R504; log entry 7). -/
def readable (s : State) (a : Nat) : Bool :=
  !blockFused s a && !portRegHidden s a && (s.loam.restored || decide (a < 0x100000) || !warmReaches a)

/-- The control word of a GNSS channel. -/
def chanCtlAt (a : Nat) : Bool := decide (0x501000 ≤ a ∧ a < 0x501800) && decide (a % 0x10 = 0)

/-- GN_CHc_CTL with MANUAL = 0 shows firmware's assignment (R135). -/
def chanCtlView (s : State) (a : Nat) : Word :=
  let x := chanOf s ((a - 0x501000) / 0x10)
  if rb s a 0 then rd s a else (rd s a &&& 0xFFFFF801) ||| w32 (x.signal % 16 * 2 + x.sv % 64 * 32)

/-- What an aligned 32-bit read of BAR0 returns (R10, R511). -/
def readView (s : State) (a : Nat) : Word :=
  match blockOf a with
  | none => 0
  | some b =>
    if readable s a = false then 0
    else if statLow a then (statGet s a).setWidth 32
    else if 4 ≤ a ∧ statLow (a - 4) = true then tget (fun _ => 0) s.statHi ((latchOf a).getD 0)
    else if chanCtlAt a then chanCtlView s a
    else rd s a ||| blockView s b (a - (blocks.getD b (0, 0, [])).1)

/-- A word of the user counter page (R327). -/
def userWord (s : State) (o : Nat) : Word :=
  if o = 0 then w32 s.hif.userSeq
  else if o = 4 then w32 s.tb.anchorSec
  else if o = 8 then w32 (s.tb.anchorSec / 2 ^ 32 % 65536 + s.tb.anchorStep.toNat * 65536)
  else if o = 0x0C then
    w32 (boolBit s.tb.timeValid 0 + boolBit s.tb.holdover 1 + boolBit (leapBits s).isSome 2
      + boolBit ((leapBits s).getD false) 3)
  else if o = 0x10 then w32 (rf s 0x300080 0 16)
  else if o = 0x14 then satU s.dpl.hoErr
  else if o = 0x18 then w32 (nowShort s)
  else if o = 0x1C then w32 s.tb.anchorNs
  else match element o 0x100 8 64 with
    | some (k, e) =>
      let p := pmcOf s k
      if rb s (0x1600100 + 0x10 * k) 12 then
        (if e = 0 then p.val.setWidth 32 else w32 (p.val.toNat / 2 ^ 32 + boolBit p.ovf 16)) else 0
    | none => 0

/-- What a read of a ring's doorbell page returns (R305, R514). -/
def doorbellWord (s : State) (r : Nat) (cons : Bool) : Word :=
  if 192 ≤ r then 0 else if cons then w32 (ringOf s r).q.toNat else w32 (ringOf s r).f.toNat

/-- What an aligned 32-bit read of BAR2 returns: the doorbell pages, the user counter page, and 0 elsewhere (R302). -/
def bar2View (s : State) (o : Nat) : Word :=
  if o < 0x100000 then
    if o % 0x1000 = 0 then doorbellWord s (o / 0x1000) false else if o % 0x1000 = 4 then doorbellWord s (o / 0x1000) true else 0
  else if 0x300000 ≤ o ∧ o < 0x301000 then userWord s (o - 0x300000)
  else 0

end Sys2Proof.Machine
end

