-- ==== Sys2Proof/Machine/Counters.lean ====
section
/-! DEFINITION. The Silt windows, alarm acknowledgement, the counters and the performance counters (R482 to R494), and
the ESMC PDUs that are sent (R89). -/

namespace Sys2Proof.Machine

/-! ## Silt and the alarm table (R481 to R484) -/

/-- A summary record is delivered; the first coalescing raises EVT_COALESCE (R482, R483). -/
def siltSummary (s : State) (id : Nat) (x : Silt) : State :=
  let d := deliver s 0x72 id (severityNow id) (nowShort s)
    (leBytes 4 (min full x.raises) ++ leBytes 4 (min full x.undelivered) ++ leBytes 4 (siltW s id))
  if d.startsCoalescing then raiseN d.s 368 0 [] else d.s

/-- SILT_WINDOW_END. -/
def execSiltWindowEnd (i : Fin 384) (s : State) : Host.Outcome State Fault Refusal :=
  .next <|
    let id := i.val
    let x := siltOf s id
    if x.summary = false then setSilt s id Silt.cold
    else
      let s1 := setSilt s id
        (if x.raises ≤ siltN s id then Silt.cold
         else { summary := true, win := true, start := s.tb.ticks, raises := 0, undelivered := 0 })
      if x.raises = 0 then s1 else siltSummary s1 id x

/-- EVT_ALARM_ACK: UNACK of the entry in bits 6:0 clears. -/
def execEvtAlarmAck (value : Word) (s : State) : Host.Outcome State Fault Refusal :=
  .next (setAlarm s (fld value 0 7) { alarmOf s (fld value 0 7) with unack := false })

/-! ## Drop and error counters, statistics (R488, R489) -/

/-- An address is a drop and error counter. -/
def isDropCounter (a : Nat) : Bool :=
  match regAt a with
  | some (r, _) => r.count32
  | none => false

/-- DROP_COUNTER_CLEAR: a write of 0. -/
def execDropCounterClear (addr : Nat) (s : State) : Host.Outcome State Fault Refusal :=
  if 0x2000000 ≤ addr then .fault .bar0Outside
  else if addr % 4 ≠ 0 then .next (accessError s)
  else .next (if isDropCounter addr && readable s addr then wr s addr 0 else s)

/-- The high word of a performance counter is latched (R494). -/
def latchPmc (s : State) (k : Nat) : State :=
  let p := pmcOf s k
  setPmc s k { p with hi := w32 (p.val.toNat / 2 ^ 32 + boolBit p.ovf 16) }

/-- What a read of an aligned address of BAR0 does beside returning its word: the low word of a statistics counter latches
the high word for its block (R488), TS_CAL_SUM_LO latches TS_CAL_SUM_HI (R204), PMCk_LO latches PMCk_HI (R494), and BCP_MBOX_FROM_BC clears its FULL flag
(R433). -/
def readEffect (s : State) (a : Nat) : State :=
  if readable s a = false then s
  else if a = 0xA0090C then latchCalSum s
  else if 0x1600108 ≤ a ∧ a < 0x1600500 ∧ a % 16 = 8 then latchPmc s ((a - 0x1600108) / 16)
  else if a = 0x140000C then { s with bcp := { s.bcp with outFull := false } }
  else match latchOf a with
    | some b =>
      if statLow a then { s with statHi := tset (fun _ => 0) s.statHi b ((statGet s a >>> 32).setWidth 32) } else s
    | none => s

/-- STAT_COUNTER_READ: the low word of a statistics counter is read; any other aligned address of BAR0 or BAR2 returns what
it reads as (R10, R302). -/
def execStatCounterRead (bar : Bar) (addr : Nat) (s : State) : Host.Outcome State Fault Refusal :=
  match bar with
  | .bar2 =>
    .next (if addr % 4 ≠ 0 then emit (accessError s) (.readData 2 0) else emit s (.readData 2 (bar2View s addr)))
  | .bar0 =>
    if 0x2000000 ≤ addr then .fault .bar0Outside
    else if addr % 4 ≠ 0 then .next (emit (accessError s) (.readData 0 0))
    else .next (emit (readEffect s addr) (.readData 0 (readView s addr)))

/-! ## Performance counters (R490, R491, R494) -/

def pmcA (k : Nat) : Nat := 0x1600100 + 0x10 * k

/-- PMC_CLEAR. -/
def execPmcClear (k : Fin 64) (s : State) : Host.Outcome State Fault Refusal :=
  .next (setPmc s k.val { pmcOf s k.val with val := 0 })

/-- CLEAR_ALL. -/
def execClearAll (s : State) : Host.Outcome State Fault Refusal :=
  .next ((List.range 64).foldl (fun t k => setPmc t k { pmcOf t k with val := 0 }) s)

/-- FREEZE. -/
def execFreeze (on : Bool) (s : State) : Host.Outcome State Fault Refusal :=
  .next (wrf s 0x1600000 0 1 (if on then 1 else 0))

/-- A signal that the table of R490 lists in a mode: 0 to 383 and 0x200, 0x202, 0x203, 0x207 by edge, 0x201, 0x204,
0x205, 0x206 by level. -/
def pmcMode (signal : Nat) (level : Bool) : Bool :=
  if level then [0x201, 0x204, 0x205, 0x206].contains signal
  else decide (signal < 384) || [0x200, 0x202, 0x203, 0x207].contains signal

/-- PMC_CTL_WRITE: a signal in a mode that R490 does not give it leaves the register as it is. -/
def execPmcCtlWrite (k : Fin 64) (value : Word) (s : State) : Host.Outcome State Fault Refusal :=
  .next (if pmcMode (fld value 0 10) (flag value 10) then storeMask s (pmcA k.val) 0x1F3FFF value else s)

/-- PMC_LO_READ: the high word is latched. -/
def execPmcLoRead (k : Fin 64) (s : State) : Host.Outcome State Fault Refusal :=
  .next (emit (latchPmc s k.val) (.readData 0 ((pmcOf s k.val).val.setWidth 32)))

/-- PMC_WRAP: n occurrences take the counter past 2^48 - 1. -/
def execPmcWrap (k : Fin 64) (n : Nat) (s : State) : Host.Outcome State Fault Refusal :=
  .next <|
    if rb s 0x1600000 0 = false ∧ rb s (pmcA k.val) 11 = true ∧ 2 ^ 48 ≤ (pmcOf s k.val).val.toNat + n then
      let (s1, raises) := pmcAdd s k.val n
      if raises then raiseN s1 369 0 [] else s1
    else s

/-! ## ESMC (R89) -/

/-- An ESMC information PDU: ITU slow protocol, QL TLV, extended QL TLV where the level has an eSSM code (G.8264,
PRESUMED, log entry 25). -/
def esmcFrame (s : State) (j : Nat) : Bytes :=
  let c := esmcCode (outQl s 1)
  let src := beBytes 2 (rd s (0xB00104 + 8 * j)).toNat ++ beBytes 4 (rd s (0xB00100 + 8 * j)).toNat
  let ext : Bytes := match c.2 with
    | some e => [2, 0, 20, BitVec.ofNat 8 e] ++ List.replicate 16 0
    | none => []
  subPad ([0x01, 0x80, 0xC2, 0, 0, 0x02] ++ src ++ [0x88, 0x09, 0x0A, 0x00, 0x19, 0xA7, 0x00, 0x01, 0x10, 0, 0, 0]
    ++ [1, 0, 4, BitVec.ofNat 8 c.1] ++ ext) 0 60

/-- ESMC_PDU_SEND: every port that is up sends the PDU (log entry 25). -/
def execEsmcPduSend (s : State) : Host.Outcome State Fault Refusal :=
  .next <|
    ((List.range 16).filter fun j => portEnabled s j && (portOf s j).up).foldl (fun t j =>
      enqueue t j { cls := 0, frame := esmcFrame t j, src := .device, launch := none, tol := 0, ins := .none, req := 0,
                    stamp := 0 }) s

end Sys2Proof.Machine
end

