-- ==== Sys2Proof/Machine/Entropy.lean ====
section
/-! DEFINITION. The entropy source (R350 to R356): start-up, health tests, reseeds, refusals and blocking. -/

namespace Sys2Proof.Machine

def setEnt (s : State) (e : Ent) : State := { s with ent := e }

/-- The sources that fail their health tests. -/
def failCount (s : State) : Nat := ((List.range 4).filter fun i => s.ent.failing.getLsbD i).length

/-- Two or more sources fail: no reseed runs (R354). -/
def cannotReseed (s : State) : Bool := decide (2 ≤ failCount s)

/-- ENT_STARTUP_FAIL, once (R352). -/
def startupFail (s : State) : State :=
  if s.ent.startFail then s else raiseN (setEnt s { s.ent with startFail := true }) 326 0 []

/-- ENT_READY: start-up completes with three passing sources and a passed known-answer test; the pool is filled and
the consumers are served (R352, R355, R356). -/
def execEntReady (s : State) : Host.Outcome State Fault Refusal :=
  .next <|
    if s.ent.started = false ∨ s.ent.ready = true ∨ s.ent.katFail = true then s
    else if cannotReseed s then startupFail s
    else
      let s1 := setEnt s { s.ent with ready := true, reqs := 0, seedTick := s.tb.ticks }
      let s2 := alarmClear (raiseN (fillPool s1) 320 0 []) 326
      refreshServing (noteStep s2 (if s2.tb.timeValid then 8 else 5))

/-- A source fails a health test: it is marked, counted for each test that failed, and its good run starts again
(R351). -/
def sourceFail (s : State) (x : Fin 4) (rct apt : Bool) : State :=
  if rct = false ∧ apt = false then s
  else
    let s1 := setEnt s { s.ent with
      failing := s.ent.failing ||| BitVec.ofNat 4 (2 ^ x.val),
      good := tset (fun _ => (0, 0)) s.ent.good x.val (0, s.tb.ticks) }
    let s2 := orReg s1 0x1000004 (2 ^ (8 + x.val))
    let s3 := if rct then bump s2 (0x1000100 + 8 * x.val) 1 else s2
    let s4 := if apt then bump s3 (0x1000104 + 8 * x.val) 1 else s3
    raiseN s4 321 x [x]

/-- ENT_SOURCE_FAIL (R351). -/
def execEntSourceFail (x : Fin 4) (rct apt : Bool) (s : State) : Host.Outcome State Fault Refusal :=
  .next (sourceFail s x rct apt)

/-- The health tests of the first 1,024 samples of each source, which pass for every other source (R351, R352). -/
def startSources (s : State) (rct apt : BitVec 4) : State :=
  (List.finRange 4).foldl (fun t x => sourceFail t x (rct.getLsbD x) (apt.getLsbD x))
    (setEnt s { s.ent with failing := 0, good := (List.range 4).foldl (fun g i => tset (fun _ => (0, 0)) g i (0, s.tb.ticks)) [] })

/-- A reseed starts where it is allowed; else it is refused, and the old state serves on (R353, R354). -/
def reseed (s : State) : State :=
  if cannotReseed s then
    let first := !s.ent.refused
    let s1 := bump (setEnt s { s.ent with servingOld := true, refused := true, reseedNow := false }) 0x1000148 1
    if first then raiseN s1 323 0 [] else s1
  else setEnt s { s.ent with reseeding := true }

/-- ENT_SOURCE_RECOVER: 1,024 good samples; a refused reseed then runs at once where no more than one source fails
(R351, R354). -/
def execEntSourceRecover (x : Fin 4) (s : State) : Host.Outcome State Fault Refusal :=
  .next <|
    if s.ent.failing.getLsbD x = false then s
    else
    let s1 := setEnt s { s.ent with
      failing := s.ent.failing &&& ~~~BitVec.ofNat 4 (2 ^ x.val),
      good := tset (fun _ => (0, 0)) s.ent.good x.val (1024, s.tb.ticks) }
    let s2 := raiseN s1 322 x [x]
    let s2 := if s2.ent.failing = 0 then alarmClear s2 321 else s2
    if s2.ent.servingOld = true ∧ cannotReseed s2 = false then setEnt s2 { s2.ent with reseeding := true } else s2

/-- ms since the last successful seed. -/
def seedAgeMs (s : State) : Nat := (s.tb.ticks - s.ent.seedTick) / ticksPerMs

/-- ENT_RESEED_REQ generate requests or ENT_RESEED_MS have passed since the last successful seed (R353). -/
def reseedIsDue (s : State) : Bool :=
  decide (rf s 0x1000008 0 32 ≤ s.ent.reqs) || decide (rf s 0x100000C 0 32 ≤ seedAgeMs s)

/-- The old state may serve no longer: 2^20 generate requests or 1 s (R354). -/
def seedTooOld (s : State) : Bool := decide (2 ^ 20 ≤ s.ent.reqs) || decide (1000 ≤ seedAgeMs s)

/-- ENT_RESEED_DUE (R353, R354). -/
def execEntReseedDue (s : State) : Host.Outcome State Fault Refusal :=
  .next (if s.ent.ready = true ∧ s.ent.reseeding = false ∧ reseedIsDue s = true then reseed s else s)

/-- RESEED_NOW: reads 1 until the reseed is done or refused (R353, R360). -/
def execReseedNow (s : State) : Host.Outcome State Fault Refusal :=
  .next (if s.ent.ready then reseed (setEnt s { s.ent with reseedNow := true }) else s)

/-- ENT_RESEED_DONE: a fresh seed clears SERVING_OLD and BLOCKED (R353, R354). -/
def execEntReseedDone (s : State) : Host.Outcome State Fault Refusal :=
  .next <|
    if s.ent.reseeding then
      let old := s.ent.servingOld
      let s1 := setEnt s { s.ent with reseeding := false, refused := false, reseedNow := false, servingOld := false,
                                      blocked := false, reqs := 0, seedTick := s.tb.ticks }
      let s2 := statInc s1 0x1000140 1
      let s3 := if old then alarmClear (raiseN s2 325 0 []) 324 else s2
      refreshServing (fillPool s3)
    else s

/-- ENT_BLOCKED: the old state may serve no longer; the pool drains, and jobs wait at their draw (R354 to R356, R361). -/
def execEntBlocked (s : State) : Host.Outcome State Fault Refusal :=
  .next <|
    if s.ent.servingOld = true ∧ s.ent.blocked = false ∧ seedTooOld s = true then
      noteDrawWaits (raiseN (setEnt s { s.ent with blocked := true }) 324 0 [])
    else s

end Sys2Proof.Machine
end

