-- ==== Sys2Proof/Machine/Registers.lean ====
section
/-! DEFINITION. The plain write of a BAR0 register (R9 to R14, R510, R511, R513) and what follows at once from a written
setting that has no command of its own. -/

namespace Sys2Proof.Machine

/-- The last candidate XON that PFC may use: XOFF − 16, not below 0 (R190). -/
def clampXon (s : State) (a : Nat) : State := wr s a (w32 (min (rd s a).toNat ((rd s (a - 4)).toNat - 16)))

/-- The baseband stops with GN_CTL.EN (R159): channels idle, no solution, no candidate. -/
def gnStop (s : State) : State :=
  let s1 := setSound (setSolution s false) false
  let s2 : State := { s1 with gn := { s1.gn with chans := [], msg := none, refreshing := false } }
  gnssGone s2

/-- MIT_PAIR_ID takes a value: 0 ends the pairing; another value offers it on an up lane with EN = 1 (R418). -/
def pairIdWritten (s : State) : State :=
  if rd s 0x1300008 = 0 then
    mitTo (setMit s { s.mit with linkUp := false, inbandUp := false, toMirror := [], relinquish := false, paired := false, pairKey := none }) .solo
  else if mitWanted s = true ∧ s.mit.linkUp = true then sendPairing s
  else s

/-- Offset of an address in the trigger output that it belongs to. -/
def ttWordAt (a : Nat) : Bool := decide (0x600000 ≤ a ∧ a < 0x600400) && decide (4 ≤ a % 0x40 ∧ a % 0x40 ≤ 0x20)
def ttCtlAt (a : Nat) : Bool := decide (0x600000 ≤ a ∧ a < 0x600400) && decide (a % 0x40 = 0)

/-- A ring's base and configuration registers, which a write reaches only while the ring is DISABLED (R321, R322). -/
def ringRegAt (a : Nat) : Option Nat :=
  if 0xE01000 ≤ a ∧ a < 0xE03000 ∧ a % 0x20 ≤ 0x10 then some ((a - 0xE01000) / 0x20) else none

/-- The mask bit of an MSI-X vector (R329). -/
def vecMaskAt (a : Nat) : Bool := decide (0xE08000 ≤ a ∧ a < 0xE08400) && decide (a % 16 = 12)

/-- The PFC XON threshold of a logical port. -/
def lpXonAt (a : Nat) : Bool :=
  decide (0x800000 ≤ a ∧ a < 0x900000) && decide (0x100 ≤ a % 0x40000 ∧ a % 0x40000 < 0x500) && decide (a % 0x100 = 0x2C)

/-- The control word of a DENY prefix. -/
def denyCtlAt (a : Nat) : Bool := decide (0xD00100 ≤ a ∧ a < 0xD00300 ∧ a % 0x20 = 0x10)

/-- The prefix length is held at most 32, with V6 at most 128 (R296). -/
def clampDeny (s : State) (a : Nat) : State :=
  wrf s a 8 8 (min (rf s a 8 8) (if rb s a 1 then 128 else 32))

/-- What a stored setting brings about at once: the roles of a candidate (R121), the word of a servo without a
reference (R51), the expiry and the leap schedule (R59), the service holds (R244, R272,
R394, R458), OSNMA's state (R150), the receiver's and MG's enable, Mitten's pair. -/
def afterWrite (s t : State) (a : Nat) : State :=
  if 0x400040 ≤ a ∧ a < 0x400100 ∧ a % 0x20 = 0 then dropAbsent t ((a - 0x400040) / 0x20)
  else if a = 0x300000 then (if tbMode t ≠ tbMode s ∧ servoSource t = 7 then servoHold t else t)
  else if a = 0xB00000 ∨ a = 0xB00008 ∨ a = 0xC00000 ∨ a = 0x40 ∨ a = 0x100000 then holdsChange t
  else if a = 0x500000 then (if gnRuns s = true ∧ gnRuns t = false then gnStop t
    else if gnRuns s = false ∧ gnRuns t = true then gnStart t else t)
  else if chanCtlAt a then chanWritten s t ((a - 0x501000) / 0x10)
  else if a = 0x500090 ∨ (0x5000C0 ≤ a ∧ a < 0x5000E0) then osnmaEval t
  else if a = 0x900000 then (if rb t a 0 then t else if t.mg.up then raiseN (mgDown t) 224 0 [] else mgDown t)
  else if a = 0x900028 then (if rb s a 0 = true ∧ rb t a 0 = false then mgRaiseNow t else t)
  else if a = 0x200000 then (List.range (min 16 (rf t a 4 5))).foldl (fun u k => setUnit u k 0) t
  else if 0x300080 ≤ a ∧ a < 0x300300 then leapSchedule (checkExpiry (userTouch t))
  else if a = 0x1300000 then mitCtlWritten s t
  else if a = 0x1300008 then pairIdWritten t
  else if lpXonAt a then clampXon t a
  else if denyCtlAt a then clampDeny t a
  else t

/-- A trigger output's CTL without EN: the output stops (R70). With EN the enable is a command of its own. -/
def writeTtCtl (s : State) (a : Nat) (v : Word) : State :=
  if flag v 0 then storeMask s a 0xFE v
  else ttFinish (storeMask s a 0xFF v) ((a - 0x600000) / 0x40)

/-- The store of a plain write at an aligned address. -/
def plainWrite (s : State) (a : Nat) (v : Word) : State :=
  if ttCtlAt a then writeTtCtl s a v
  else if chanCtlAt a then storeMask s a (if flag v 0 then 0x3F7FF else 0x3F001) v
  else if ttWordAt a = true ∧ rb s (a - a % 0x40) 0 = true then s
  else if vecMaskAt a then store s a (v ||| (rd s a &&& 1))
  else if a = 0x208000 ∧ fld v 2 2 = 3 then s
  else if a = 0x100000 then store s a (if rb s a 2 then v else v &&& 0xFFFFFFFB)
  else if 0x160010C ≤ a ∧ a < 0x1600500 ∧ a % 16 = 12 then
    let k := (a - 0x160010C) / 16
    if flag v 16 then setPmc s k { pmcOf s k with ovf := false, hi := (pmcOf s k).hi &&& 0xFFFF } else s
  else match ringRegAt a with
    | some r => if (ringOf s r).st = .disabled then store s a v else s
    | none => store s a v

/-- REGISTER_WRITE: a field without a command of its own, in BAR0 or BAR2. -/
def execRegisterWrite (bar : Bar) (addr : Nat) (value : Word) (s : State) : Host.Outcome State Fault Refusal :=
  match bar with
  | .bar2 => bar2Write s addr value
  | .bar0 =>
    if 0x2000000 ≤ addr then .fault .bar0Outside
    else if addr % 4 ≠ 0 then .next (accessError s)
    else .next (if readable s addr then afterWrite s (plainWrite s addr value) addr else s)

/-- The number of a BAR in the record of reads. -/
def barNum : Bar → Nat
  | .bar0 => 0
  | .bar2 => 2

/-- BAR0_BAD_ACCESS, in BAR0 or BAR2: the write is dropped, the read returns 0, and the error is counted (R9, R301). -/
def execBar0BadAccess (bar : Bar) (write : Bool) (s : State) : Host.Outcome State Fault Refusal :=
  .next (if write then accessError s else emit (accessError s) (.readData (barNum bar) 0))

end Sys2Proof.Machine
end

