-- ==== Sys2Proof/Machine/Restore.lean ====
section
/-! DEFINITION. Start-up (R499): the boot ROM's choice of a slot (R388 to R396), the march test (R470), voting and
restore (R367 to R372, R503), the clocks and the preload (R116, R453), and what then starts. -/

namespace Sys2Proof.Machine

/-! ## Voting (R367 to R370) -/

/-- Two intact copies agree: equal in everything but the copy index, their page and the CRC (R367). -/
def sameRecord (a b : Copy) : Bool := decide ({ a with copy := 0, page := 0 } = { b with copy := 0, page := 0 })

/-- The copies of a list that agree with a copy. -/
def agreeing (cs : List Copy) (c : Copy) : Nat := (cs.filter (sameRecord c)).length

/-- The copy that most copies of `all` agree with, and how many. -/
def mostAgreed (all : List Copy) : List Copy → Option (Copy × Nat)
  | [] => none
  | c :: cs =>
    match mostAgreed all cs with
    | none => some (c, agreeing all c)
    | some (d, n) => if n ≤ agreeing all c then some (c, agreeing all c) else some (d, n)

/-- States of a generation with intact copies: A, C and S. -/
inductive GenState where
  | agreed | split | single
  deriving DecidableEq, Repr

def genState (cs : List Copy) : GenState :=
  if cs.length = 1 then .single
  else match mostAgreed cs cs with
    | some (_, n) => if 2 ≤ n then .agreed else .split
    | none => .split

def insertDesc (g : Nat) : List Nat → List Nat
  | [] => [g]
  | h :: t => if g = h then h :: t else if h < g then g :: h :: t else h :: insertDesc g t

/-- The generations of a list of copies, newest first. -/
def gensOf (cs : List Copy) : List Nat := cs.foldl (fun l c => insertDesc c.gen l) []

def ofGen (cs : List Copy) (g : Nat) : List Copy := cs.filter fun c => decide (c.gen = g)

/-- The result of a vote: verdict, record used, agreeing copies. -/
structure Vote where
  verdict : Verdict
  used : Option Copy
  copies : Nat
  deriving DecidableEq, Repr

/-- The record of an agreed generation. -/
def agreedVote (v : Verdict) (cs : List Copy) : Vote :=
  match mostAgreed cs cs with
  | some (c, n) => { verdict := v, used := some c, copies := min 3 n }
  | none => { verdict := .lost, used := none, copies := 0 }

/-- The vote over the generations that R369 leaves, newest first (R370). -/
def voteGens (cs : List Copy) (g : Nat) (older : List Nat) : Vote :=
  let top := ofGen cs g
  let p : Option (List Copy) := match older with
    | h :: _ => if genState (ofGen cs h) = .agreed then some (ofGen cs h) else none
    | [] => none
  match genState top, p with
  | .agreed, _ =>
    let v := agreedVote .intact top
    { v with verdict := if 3 ≤ v.copies then .intact else .repaired }
  | .split, some ps => agreedVote .conflicted ps
  | .split, none => { verdict := .conflicted, used := none, copies := 0 }
  | .single, some ps => agreedVote .rolledBack ps
  | .single, none => { verdict := .single, used := top.head?, copies := 1 }

/-- The vote of a segment over its intact copies (R369, R370). -/
def vote (cs : List Copy) (listed : Bool) : Vote :=
  match gensOf cs with
  | [] => { verdict := if listed then .lost else .absent, used := none, copies := 0 }
  | g :: older =>
    match ofGen cs g, older with
    | [c], [] => if c.copy = 1 then { verdict := .single, used := some c, copies := 1 } else voteGens cs g older
    | [c], h :: rest => if c.copy = 1 then voteGens cs h rest else voteGens cs g older
    | _, _ => voteGens cs g older

/-- The intact copies of a segment. -/
def segCopies (l : Loam) (cls seg : Nat) : List Copy :=
  l.copies.filter fun c => c.intact && decide (c.cls = cls) && decide (c.seg = seg)

/-- The copies over which a line votes: its own; a TRIAL line without any converts the other line's (R393). -/
def lineCopies (trial : Bool) (line : Nat) (cs : List Copy) : List Copy :=
  let own := cs.filter fun c => decide (c.line = line)
  if own = [] ∧ trial = true then cs else own

/-! ## The boot ROM (R388 to R392) -/

def fwOf : Nat → FwState
  | 1 => .valid
  | 2 => .pending
  | 3 => .trial
  | 4 => .committed
  | 5 => .rejected
  | _ => .empty

/-- The countersignature keys that intact KEYS copies hold, each once. -/
def csigKeys (l : Loam) : List Bytes :=
  (segCopies l clsKeys 0).foldl (fun ks c =>
    match c.payload with
    | .keys _ (some k) => if ks.contains k then ks else ks ++ [k]
    | _ => ks) []

/-- The key that R389 requires: none where no image boots, `some none` where no key is required. -/
def csigChoice (l : Loam) : Option (Option Bytes) :=
  match csigKeys l with
  | [] => if l.csigFlag then none else some none
  | [k] => some (some k)
  | _ => none

/-- What the boot ROM decides. -/
structure Boot where
  slot0 : FwState
  slot1 : FwState
  run : Nat
  ok : Bool
  attempts : Nat
  elapsed : Nat
  began : Nat               -- TAI second at which the trial started
  trialStart : Bool
  rolled : Bool             -- a trial has been abandoned
  cause : Nat               -- 0 FW_ROLLBACK, 1 attempts, 2 image check, 3 trial window
  changed : Bool
  deriving DecidableEq, Repr

def bootSlot (b : Boot) (k : Nat) : FwState := if k = 0 then b.slot0 else b.slot1

def setBootSlot (b : Boot) (k : Nat) (st : FwState) : Boot :=
  if k = 0 then { b with slot0 := st } else { b with slot1 := st }

/-- Slot `k` boots if its image is accepted, else the other one. -/
def bootFrom (b : Boot) (k : Nat) (img : Nat → Bool) : Boot :=
  if img k then { b with run := k, ok := true }
  else { b with run := 1 - k, ok := img (1 - k) }

/-- FWMETA votes a factory default: slot 0, or slot 1 where slot 0 fails; the booted image counts as COMMITTED
(R392). -/
def bootDefault (img : Nat → Bool) : Boot :=
  let b : Boot := { slot0 := .empty, slot1 := .empty, run := 0, ok := false, attempts := 0, elapsed := 0,
                    began := 0, trialStart := false, rolled := false, cause := 0, changed := true }
  let b1 := bootFrom b 0 img
  setBootSlot b1 b1.run .committed

/-- The trial of slot `k` is over: the slot is REJECTED and the other boots. -/
def bootReject (b : Boot) (k cause : Nat) (was : FwState) (img : Nat → Bool) : Boot :=
  { setBootSlot b k .rejected with run := 1 - k, ok := img (1 - k), attempts := 0, elapsed := 0,
                                   rolled := decide (was = .trial), cause := cause, changed := true }

/-- The slot that boots, from FWMETA's states (R390, R391). -/
def bootChoice (b : Boot) (rollback : Bool) (img : Nat → Bool) : Boot :=
  match [0, 1].find? fun k => decide (bootSlot b k = .pending ∨ bootSlot b k = .trial) with
  | some k =>
    let st := bootSlot b k
    if rollback = true ∧ st = .trial then bootReject b k 0 st img
    else if st = .trial ∧ 3 ≤ b.attempts then bootReject b k 1 st img
    else if img k = false then bootReject b k 2 st img
    else if st = .pending then
      { setBootSlot b k .trial with run := k, ok := true, attempts := 1, elapsed := 0, trialStart := true, changed := true }
    else { b with run := k, ok := true, attempts := b.attempts + 1, changed := true }
  | none =>
    let c := if b.slot1 = .committed then 1 else 0
    let b1 := bootFrom b c img
    if bootSlot b (1 - c) = .rejected ∧ b.elapsed ≠ 0 then
      { b1 with rolled := true, cause := 3, elapsed := 0, changed := true }
    else b1

/-- The FWMETA vote runs over both lines (R499). -/
def fwmetaVote (l : Loam) : Vote := vote (segCopies l clsFwmeta 0) (l.dir.contains (clsFwmeta, 0))

/-- The boot ROM's decision: images are accepted under the countersignature key that R389 requires (R388). -/
def bootRom (l : Loam) (key : Option Bytes) (rollback : Bool) (env : StartEnv) : Boot :=
  let img := fun (k : Nat) => imageAccepted key (if k = 0 then env.image0 else env.image1)
  match (fwmetaVote l).used.map fun c => c.payload with
  | some (Payload.fwmeta a b n e t _) =>
    bootChoice { slot0 := fwOf a, slot1 := fwOf b, run := 0, ok := false, attempts := n, elapsed := e, began := t,
                 trialStart := false, rolled := false, cause := 0, changed := false } rollback img
  | _ => bootDefault img

/-- The quad-output read by which the boot ROM streams a byte of a slot's image: command and address (R525). -/
def flashRead (s : State) (slot offset : Nat) : Bytes :=
  if s.glb.qspi4b then 0x6C :: beBytes 4 (0x800000 * slot + offset) else 0x6B :: beBytes 3 (0x800000 * slot + offset)

/-! ## The march test (R470) -/

/-- A sub-array needs more spare rows than it has good ones. -/
def beyondRepair (e : Nat × Nat × Nat) : Bool := decide (e.2.1 ≠ 0) && decide (2 < e.2.1 + e.2.2)

/-- Rows repaired, over the 144 sub-arrays. -/
def rowsRepaired (rows : List (Nat × Nat × Nat)) : Nat :=
  (rows.filter fun e => !beyondRepair e && decide (e.1 < 144)).foldl (fun n e => n + e.2.1) 0

/-- Sub-arrays beyond repair, in the order of the sub-array table: 0 to 95 packet buffer, 96 to 127 Gauntlet and state,
128 to 139 control scratchpad, 140 to 142 PKE, 143 DRBG and nonce pool. -/
def unrepairable (rows : List (Nat × Nat × Nat)) : List Nat :=
  ((rows.filter fun e => beyondRepair e && decide (e.1 < 144)).map (·.1)).eraseDups

/-- The march test and soft repair, with their events and what they leave. -/
def marchTest (s : State) (rows : List (Nat × Nat × Nat)) : State :=
  let bad := unrepairable rows
  let n := rowsRepaired rows
  let s1 := setClk s { s.clk with mbtRepaired := min 255 n, mbtUnrep := bad.length,
                                  bufLost := (bad.filter fun x => decide (x < 96)).length,
                                  noPke := bad.any fun x => decide (140 ≤ x) }
  let s2 := if n = 0 then s1 else raiseN s1 37 0 [n]
  bad.foldl (fun t x => raiseN t 38 x [x]) s2

/-- The boot ROM does not start firmware: a control scratchpad sub-array is beyond repair. -/
def scratchBad (rows : List (Nat × Nat × Nat)) : Bool := (unrepairable rows).any fun x => decide (128 ≤ x ∧ x < 140)

/-- The responder never starts: a Gauntlet sub-array is beyond repair. -/
def gauntletBad (rows : List (Nat × Nat × Nat)) : Bool := (unrepairable rows).any fun x => decide (96 ≤ x ∧ x < 128)

/-! ## The Loam restore (R367 to R372, R393 to R396) -/

/-- The segments that vote: listed, or with an intact copy; FWMETA has voted at step 1 but is a record like others. -/
def votingSegs (l : Loam) : List (Nat × Nat) :=
  ((l.dir ++ (l.copies.filter (·.intact)).map fun c => (c.cls, c.seg)).eraseDups).filter fun e =>
    !l.evicted.contains e.1

/-- A record of the other line than `k`, FWMETA apart. -/
def otherLine (k : Nat) (c : Copy) : Bool := c.intact && decide (c.line ≠ k) && decide (c.cls ≠ clsFwmeta)

/-- The booted slot finds no record of its line (R395): FW_COMMIT has deleted them, or it is on no trial and only the
other line has records. -/
def fallsBack (l : Loam) : Bool :=
  let k := l.runSlot
  let st := if k = 0 then l.slot0 else l.slot1
  !(l.copies.any fun c => c.intact && decide (c.line = k) && decide (c.cls ≠ clsFwmeta))
  && (decide (l.oldSlot = some k) || (decide (st ≠ .trial) && l.copies.any (otherLine k)))

/-- One segment takes its vote. -/
def takeVote (s : State) (e : Nat × Nat) (v : Vote) : State :=
  let k := segKey e.1 e.2
  let l := s.loam
  let conflict := decide (v.verdict = .conflicted)
  let use := if e.1 = clsKeys ∧ conflict = true then none else v.used
  let again := [Verdict.repaired, .single, .rolledBack, .conflicted, .lost].contains v.verdict
  let l1 : Loam := { l with
    verdict := tset (fun _ => Verdict.absent) l.verdict k v.verdict,
    copiesAt := tset (fun _ => 0) l.copiesAt k v.copies,
    repair := if again then l.repair ++ [e] else l.repair,
    prevKeys := if e.1 = clsKeys ∧ conflict = true then v.used.map (·.payload) else l.prevKeys }
  let l2 : Loam := match use with
    | some c => { l1 with genUse := tput l1.genUse k c.gen, recUse := tput l1.recUse k c.payload,
                          lineUse := tput l1.lineUse k c.line }
    | none => l1
  let s1 := setLoam s l2
  match v.verdict with
  | .conflicted => raiseN s1 328 e.1 [e.1, e.2]
  | .single => raiseN s1 329 e.1 [e.1, e.2]
  | .lost => raiseN s1 330 e.1 [e.1, e.2]
  | _ => s1

/-- A segment that does not vote: its class cannot be read (R394, R395). -/
def noteUnreadable (s : State) (e : Nat × Nat) : State :=
  setLoam s { s.loam with verdict := tset (fun _ => Verdict.absent) s.loam.verdict (segKey e.1 e.2) .unreadable }

/-- Every segment is voted, but for FWMETA, which has voted at step 1; the classes of `blind` are UNREADABLE. -/
def voteAll (s : State) (blind : List Nat) : State :=
  let trial := trialRunning s
  let line := s.loam.runSlot
  (votingSegs s.loam).foldl (fun t e =>
    if e.1 = clsFwmeta then t
    else if blind.contains e.1 then noteUnreadable t e
    else takeVote t e (vote (lineCopies trial line (segCopies t.loam e.1 e.2)) (t.loam.dir.contains e))) s

/-- A segment that a TRIAL image has to convert: it has no record of its own line (R393). -/
def toConvert (s : State) (e : Nat × Nat) : Bool :=
  !(segCopies s.loam e.1 e.2).any fun x => decide (x.line = s.loam.runSlot)

/-- Classes with a record that the booted image cannot use: with a segment that it cannot convert (R394), or all of them
in a fallback (R395). -/
def blindClasses (s : State) (env : StartEnv) : List Nat :=
  let segs := (votingSegs s.loam).filter fun e => decide (e.1 ≠ clsFwmeta)
  if fallsBack s.loam then (segs.map (·.1)).eraseDups
  else if trialRunning s then
    ((segs.filter fun e => (env.convertFail.any fun x => decide (x.val = e.1)) && toConvert s e).map (·.1)).eraseDups
  else []

/-- UNREADABLE classes are marked and raised (R394, R395). -/
def markBlind (s : State) (blind : List Nat) : State :=
  let m : BitVec 16 := BitVec.ofNat 16 (blind.foldl (fun n c => n ||| 2 ^ c) 0)
  let fb := fallsBack s.loam
  let s1 := setLoam s { s.loam with unreadable := m, runState := if fb then 2 else s.loam.runState }
  if fb then raiseN s1 342 0 [] else blind.foldl (fun t _ => raiseN t 341 0 []) s1

/-- A commit of start-up waits in the queue, past a PFAIL_N that is low (R521). -/
def queueCommit (s : State) (by_ : CommitBy) (cls : Nat) (p : Option Payload) : State :=
  setLoam s { s.loam with queue := s.loam.queue ++ [{ by_ := by_, cls := cls, segs := [0], payload := p }] }

/-- FWMETA has voted, and what the boot ROM has decided is committed before the image starts (R391, R392, R499); a PFAIL_N
that is low makes the commit wait (R521), and a READ_ONLY store takes none (log entry 124). -/
def bootCommit (s : State) (b : Boot) (v : Vote) : State :=
  let s1 := if v.verdict = .absent then s else takeVote s (clsFwmeta, 0) v
  if b.changed = false ∨ s1.loam.st = 3 then s1
  else if s1.loam.pfail then queueCommit s1 .firmware clsFwmeta none
  else
    let req : Commit := { by_ := .firmware, cls := clsFwmeta, segs := [0], payload := none }
    programSegment s1 { req := req, seg := 0, gen := nextGen s1 clsFwmeta 0, payload := snapshot s1 clsFwmeta 0,
                        rest := [], written := 0, lastGen := 0 }
      { copy1 := cleanProg, copy2 := cleanProg, copy3 := cleanProg, sysFail := none }

/-- A rollback: the log of what the trial wrote, of its start and of the cause is to be committed; the trial line is deleted
and FW_ROLLBACK raised with that commit, before the unit serves (R396). -/
def rollBack (s : State) (cause : Nat) : State :=
  let gone := ((s.loam.copies.filter (otherLine s.loam.runSlot)).map fun c => (c.cls, c.seg)).eraseDups
  let log := leBytes 1 cause ++ leBytes 6 s.loam.trialStart ++ gone.flatMap fun e => leBytes 1 e.1 ++ leBytes 1 e.2
  queueCommit s .trial clsRblog (some (.bytes log))

/-- One "L" register of a reached block takes its record's value (R503). -/
def restoreReg (reached : Nat → Bool) (s : State) (e : Nat × Word) : State := if reached e.1 then setL s e.1 e.2 else s

/-- The restored "L" registers. -/
def restoreRegs (reached : Nat → Bool) (s : State) : State :=
  s.loam.recUse.foldl (fun t e =>
    match e.2 with
    | .words ws => if e.1 / 32 = clsCfg ∨ e.1 / 32 = clsTime then ws.foldl (restoreReg reached) t else t
    | _ => t) s

/-- The keys at start-up (R270, R271). -/
def restoreKeys (s : State) (blind : List Nat) : State :=
  let verdict := tget (fun _ => Verdict.absent) s.loam.verdict (segKey clsKeys 0)
  if blind.contains clsKeys = true ∨ verdict = .conflicted ∨ verdict = .lost then
    raiseN { s with nts := { s.nts with conflict := true } } 251 0 []
  else
    let slots : Tab KeySlot := match recOf s clsKeys 0 with
      | some (.keys sl _) => sl.filter fun e => decide (e.2.st ≠ .pending)
      | _ => []
    if slots.any (fun e => decide (e.2.st = .current)) then { s with nts := { s.nts with slots := slots } }
    else if rb s 0xC00000 2 then beginRotation s none true else s

/-- The restored policies are enabled one after another; a region that fails its check leaves EN = 0 (R297). -/
def restorePolicies (s : State) : State :=
  let on := (List.range 64).filter fun k => polEn s k
  let off := on.foldl (fun t k => wrf t (polA k) 0 1 0) s
  on.foldl (fun t k =>
    if regionBad t k then raiseN t 259 k [k] else fillRegion (wrf t (polA k) 0 1 1) k) off

/-- Each port's amplification credit is AMP_BURST at power-up (R292). -/
def startCredits (s : State) : State := (List.range 16).foldl (fun t j => setCredit t j (ampBurst t j)) s

/-- The oscillator model (R116). -/
def restoreModel (s : State) : State :=
  match recOf s clsHist 0 with
  | some (.hist m) => { s with dpl := { s.dpl with model := some m } }
  | _ => s

/-! ## Step 4 (R116, R453, R499) -/

/-- DPLL0 is preloaded (R116). Without a HIST record the preload of 0 is an application as well, and DPL_PRELOAD_DONE is
raised: DESIGN CHOICE (log entry 117). -/
def preloadDpll (s : State) (temp : Int) : State :=
  let s1 : State := { s with dpl := { s.dpl with temp := temp } }
  if rb s 0x480000 7 then
    let p : Int := match s.dpl.model with
      | some m => modelPpt (modelNum m (if s.loam.rtcValid then (rtcNow s / 32768 : Int) else m.th) temp)
      | none => 0
    let s2 : State := { s1 with dpl := { s1.dpl with
      preload := p, d := tset (fun _ => Dpll.cold) s1.dpl.d 0 { dpllOf s1 0 with freq := p } } }
    raiseN s2 59 0 [0, if s.loam.rtcValid then 0 else 1]
  else s1

/-- The entropy source starts (R352, R470). -/
def startEnt (s : State) (env : StartEnv) : State :=
  if s.clk.noPke then s
  else
    let s1 := setEnt s { s.ent with started := true, katFail := !env.katOk }
    if env.katOk = false then startupFail s1
    else
      let s2 := startSources s1 env.srcRct env.srcApt
      if cannotReseed s2 then startupFail s2 else s2

/-- The line ports start training. -/
def startPorts (s : State) : State := ((List.range 16).filter fun j => portEnabled s j).foldl startTraining s

/-- The outputs that were restored with EN = 1 take up their schedules (R71, R501). -/
def startTriggers (s : State) : State :=
  ((List.finRange 16).filter fun n => rb s (ttOutA n.val) 0).foldl (fun t (n : Fin 16) =>
    let ctl := rd t (ttOutA n)
    outcomeState t (execTtOutEnable n ctl (wrf t (ttOutA n) 0 1 0))) s

/-- The GNSS record that the store holds (R157). -/
def keptGnss (s : State) : GnRec :=
  gnJoin ((List.range 8).map fun k => match recOf s clsGnss k with
    | some (.gnss r) => r
    | _ => GnRec.none)

/-- The almanacs that the store holds. -/
def keptAlmanac (s : State) : Bytes :=
  (List.range 8).flatMap fun k => match recOf s clsAlmanac k with
    | some (.bytes b) => b
    | _ => []

/-- The record is at hand and the INIT script runs, whether or not the baseband is enabled (R131, R157); an enabled baseband
starts (R153). -/
def startGnss (s : State) : State :=
  if s.fuse.gnssAbsent then s
  else
    let s1 := runScript { s with gn := { s.gn with kept := keptGnss s, almanac := keptAlmanac s } } .init
    if gnRuns s1 then gnStart s1 else s1

/-- Brim sends its presence pulse (R410). -/
def startBrim (s : State) : State := if rb s 0x1200000 0 then outcomeState s (execBrimEnable s) else s

/-- What only a start that reaches TB, DPL, REF, TT, CLK, GN and BRIM does at step 4. -/
def startKept (s : State) (env : StartEnv) : State :=
  let s1 := if rb s 0x100000 2 then outcomeState s (execUnifiedReq s) else s
  startBrim (startGnss (startTriggers (preloadDpll s1 env.temp)))

/-- GLB_START_DONE carries the reset causes. -/
def startDone (s : State) : State :=
  let s1 : State := { s with glb := { s.glb with step := max 4 s.glb.step, failN := decide (s.glb.recovery = 2) } }
  raiseN s1 0 0 [(rd s1 0x10).toNat]

/-- The counter at power-up (R38). -/
def rtcCounter (s : State) : Nat := if s.loam.rtcValid then rtcNow s * (secUnits / 32768) else 0

/-- The Loam restore of step 3. An image that runs within 10 s clears ATTEMPTS (R391). -/
def restoreStep (reached : Nat → Bool) (env : StartEnv) (b : Boot) (s : State) : State :=
  let s1 := if b.rolled then rollBack s b.cause else s
  let blind := blindClasses s1 env
  let s2 := restoreRegs reached (voteAll (markBlind s1 blind) blind)
  let s3 := restorePolicies (restoreKeys s2 blind)
  let s3 := if reached 0xD01000 then startCredits s3 else s3
  let s4 := setLoam s3 { s3.loam with restored := true }
  let s6 := if b.trialStart then raiseN s4 338 0 [] else s4
  let s7 := if s6.loam.rtcLost then raiseN (setLoam s6 { s6.loam with rtcLost := false }) 336 0 [] else s6
  let s8 := if s7.loam.attempts ≠ 0 ∧ env.restoreMs ≤ 10000 then
      queueCommit (setLoam s7 { s7.loam with attempts := 0 }) .firmware clsFwmeta none
    else s7
  { s8 with glb := { s8.glb with step := 3, restoreMs := min 0xFFFF env.restoreMs } }

/-- What the boot ROM's decision leaves in the store's state. -/
def bootState (s : State) (b : Boot) (key : Option Bytes) (pfail : Bool) : State :=
  let run := if b.run = 0 then b.slot0 else b.slot1
  setLoam s { s.loam with csig := key, slot0 := b.slot0, slot1 := b.slot1, runSlot := b.run, attempts := b.attempts,
                          elapsed := b.elapsed,
                          trialStart := if b.trialStart then (if s.loam.rtcValid then rtcNow s / 32768 else 0) else b.began, runState := if run = .trial then 1 else 0, pfail := pfail }

/-- The start-up timeline, steps 1 to 4, for the blocks that the reset reaches. `full` is a start of the whole device. -/
def startUp (full rollback : Bool) (reached : Nat → Bool) (env : StartEnv) (s : State) : State :=
  let s0 : State := { s with glb := { s.glb with step := 1, qspi4b := if full then env.qspi4b else s.glb.qspi4b },
                             clk := { s.clk with loSel := if full then env.loSel else s.clk.loSel },
                             loam := loadTables s.loam }
  match csigChoice s0.loam with
  | none => enterFailed s0 4
  | some key =>
    let b := bootRom s0.loam key rollback env
    if b.ok = false then enterFailed s0 4
    else
      let s1 := marchTest (bootCommit (bootState s0 b key env.pfailLow) b (fwmetaVote s0.loam)) env.failRows
      let s2 : State := { s1 with glb := { s1.glb with step := 2 } }
      if scratchBad env.failRows then enterFailed s2 2
      else
        let s3 := if gauntletBad env.failRows then enterFailed s2 2 else s2
        let s4 := restoreStep reached env b s3
        let s5 := if full then
            startKept (checkExpiry (restoreModel { s4 with tb := { s4.tb with counter := rtcCounter s4 } })) env
          else s4
        let s6 := startDone (startMit (startEnt (startPorts s5) env))
        refreshServing (if s6.ent.ready ∧ s6.tb.timeValid = true then noteStep s6 8 else s6)

end Sys2Proof.Machine
end

