-- ==== Sys2Proof/Machine/Mirror.lean ====
section
/-! DEFINITION. A record mirrored to the standby of a Mitten pair (R420), and what the settings that it changes bring
about. -/

namespace Sys2Proof.Machine

/-- A mirrored CFG segment: its "L" fields take the record's values, those it does not list their defaults. -/
def applyCfg (s : State) (seg : Nat) (ws : List (Nat × Word)) : State :=
  let mine := fun (a : Nat) => !ownField a && decide (loamMask a ≠ 0) && decide (segOfReg a = segKey clsCfg seg)
  let s1 := (s.regs.filter fun e => mine e.1).foldl (fun t e => setL t e.1 (coldWord e.1)) s
  (ws.filter fun e => mine e.1).foldl (fun t e => setL t e.1 e.2) s1

/-- The port whose LPn_CFG an address is. -/
def lpCfgAt (a : Nat) : Option Nat := (List.range 16).find? fun j => decide (lpA j = a)

/-- The line port whose LPn_MODE an address is. -/
def lpModeAt (a : Nat) : Option Nat := (List.range 4).find? fun n => decide (lpBase n = a)

/-- The policy whose CTL an address is. -/
def polAt (a : Nat) : Option Nat :=
  if 0xD00400 ≤ a ∧ a < 0xD00600 ∧ a % 8 = 0 then some ((a - 0xD00400) / 8) else none

/-- LPn_CFG has changed: a port that is enabled trains, one that is not goes down, and another may retrain (R24, R167,
R539). -/
def mirroredPort (s t : State) (j : Nat) : State :=
  if rb s (lpA j) 0 = false ∧ portEnabled t j = true then startTraining t j
  else if portEnabled s j = true ∧ rb t (lpA j) 0 = false then portDisabled t j
  else cfgChanged s t j

/-- A policy has changed: it is checked and its new region is filled (R291, R297). -/
def mirroredPolicy (s t : State) (k : Nat) : State :=
  if polEn t k = true ∧ regionBad t k = true then raiseN (wrf t (polA k) 0 1 0) 259 k [k]
  else if polSize t k = polSize s k ∧ polBase t k = polBase s k then t
  else fillRegion t k

/-- A trigger output's CTL has changed: it takes up its schedule or stops (R70, R71). -/
def mirroredTrigger (s t : State) (a : Nat) : State :=
  if h : (a - 0x600000) / 0x40 < 16 then
    if rb s a 0 = false ∧ rb t a 0 = true then
      outcomeState t (execTtOutEnable ⟨(a - 0x600000) / 0x40, h⟩ (rd t a) (wrf t a 0 1 0))
    else if rb s a 0 = true ∧ rb t a 0 = false then ttFinish t ((a - 0x600000) / 0x40)
    else t
  else t

/-- What a mirrored setting that differs from the one before brings about: the same as its write by the host. -/
def mirrorEffect (s t : State) (a : Nat) : State :=
  match lpModeAt a, lpCfgAt a, polAt a with
  | some n, _, _ => modeChanged s t n
  | _, some j, _ => mirroredPort s t j
  | _, _, some k => mirroredPolicy s t k
  | none, none, none =>
    if ttCtlAt a then mirroredTrigger s t a
    else if 0xD01000 ≤ a ∧ a < 0xD01100 ∧ a % 16 = 0 then
      setCredit t ((a - 0xD01000) / 16) (min (creditOf t ((a - 0xD01000) / 16)) (ampBurst t ((a - 0xD01000) / 16)))
    else if a = 0x100000 ∧ rb s a 2 = false ∧ rb t a 2 = true then
      holdsChange (outcomeState t (execUnifiedReq t))
    else afterWrite s t a

/-- A mirrored CFG segment is in force, with what its changes bring about. -/
def takeMirroredCfg (s : State) (seg : Nat) (ws : List (Nat × Word)) : State :=
  let t := applyCfg s seg ws
  let changed := ((s.regs.map (·.1) ++ t.regs.map (·.1)).eraseDups).filter fun a => decide (rd s a ≠ rd t a)
  changed.foldl (mirrorEffect s) t

/-- MIT_MIRROR_RECEIVE: the standby takes the record, commits it under its own generations outside its budget, and
acknowledges it once it is committed. KEYS run from that commit on, and a conflict of KEYS stays until the host acts (R271,
R273, R373, R420). -/
def execMitMirrorReceive (rec : MirrorRec) (serial : Nat) (tag : Bytes) (s : State) : Host.Outcome State Fault Refusal :=
  .next <|
    if s.mit.linkUp = false ∨ mitServes s = true ∨ mirrorSealed s rec serial tag = false then s
    else if rec.cls.val = clsCfg ∧ rec.seg.val < segCount clsCfg then
      refreshServing (mirrorCommit (takeMirroredCfg s rec.seg rec.words) serial clsCfg rec.seg none)
    else if rec.cls.val = clsKeys ∧ rec.seg.val = 0 then
      mirrorCommit s serial clsKeys 0 (some (.keys (mirrorSlots rec) rec.csig))
    else s

end Sys2Proof.Machine
end

