-- ==== Sys2Proof/Machine/Resets.lean ====
section
/-! DEFINITION. The resets (R495 to R498, R504, R505), their reach, the escalation, and the loss of the supplies
(R376, R385). -/

namespace Sys2Proof.Machine

/-! ## What a reset reaches (R496) -/

def dropRegs (s : State) (p : Nat → Bool) : State :=
  { s with regs := s.regs.filter (fun e => !p e.1), stat := s.stat.filter (fun e => !p e.1),
           statHi := s.statHi.filter (fun e => !p e.1) }

/-- The store's volatile state is gone; the array, the keep-alive domain and the boot flash stay. -/
def coldLoam (l : Loam) : Loam :=
  { Loam.cold with
    copies := l.copies, dir := l.dir, csigFlag := l.csigFlag, st := l.st, spares := l.spares, sys := l.sys,
    sysHome := l.sysHome, sysRetired := l.sysRetired, retired := l.retired, evicted := l.evicted, pgm := l.pgm,
    rtcBase := l.rtcBase, rtcTick := l.rtcTick, rtcValid := l.rtcValid, rtcAlign := l.rtcAlign, vbatLow := l.vbatLow,
    vbatGone := l.vbatGone, rtcLost := l.rtcLost, flash := l.flash, oldSlot := l.oldSlot }

/-- Fused values at their registers and in GNT (R247, R285). -/
def fusedCold (s : State) : State :=
  wr (wr { s with gnt := { s.gnt with key := s.fuse.gntKey } } 0xB00010 (s.fuse.clockId.setWidth 32)) 0xB00014
    ((s.fuse.clockId >>> 32).setWidth 32)

/-- Every block at its Cold values but for the registers that `p` does not reach. The count of elapsed ticks and the
indices of the free values run on. -/
def coldAll (s : State) (p : Nat → Bool) : State :=
  fusedCold (dropRegs
    { State.reset with
      pending := s.pending, out := s.out, fuse := s.fuse, regs := s.regs,
      tb := { Tb.cold with ticks := s.tb.ticks },
      ts := { Ts.cold with draws := s.ts.draws }, ent := { Ent.cold with drawn := s.ent.drawn },
      loam := coldLoam s.loam, glb := { Glb.cold with powered := s.glb.powered, resetHeld := s.glb.resetHeld } } p)

/-- SyncE candidates lose their role with the links that a reset takes down (R84). -/
def dropSynce (s : State) : State := loseRole (loseRole s 4 1) 5 1

/-- The blocks that WARM reaches at their Cold values; FAILED and the escalation count outlive it (R505). -/
def coldWarm (s : State) : State :=
  fusedCold (dropSynce (dropRegs
    { s with
      lp := [], mg := Mg.cold, ts := { Ts.cold with draws := s.ts.draws }, rsp := Rsp.cold, nts := Nts.cold,
      gnt := Gnt.cold, hif := { s.hif with rings := [], vecs := [] }, pke := Pke.cold,
      ent := { Ent.cold with drawn := s.ent.drawn }, mit := Mit.cold, bcp := Bcp.cold, evt := Evt.cold, pmc := [],
      loam := coldLoam s.loam,
      clk := { s.clk with units := [], mbtRun := false, mbtPass := false, mbtFail := 0, mbtMode := true },
      glb := { Glb.cold with powered := s.glb.powered, resetHeld := s.glb.resetHeld, escTicks := s.glb.escTicks,
                             recovery := s.glb.recovery, failCause := s.glb.failCause, failN := s.glb.failN, qspi4b := s.glb.qspi4b } }
    warmReaches))

/-! ## A cut commit (R376, R497) -/

/-- The supplies or a reset cut the segment commit in progress: the copies programmed so far stay. -/
def cutCommit (s : State) : State :=
  match s.loam.cur with
  | none => s
  | some c =>
    let n := min 3 (Config.cutCopies s.tb.ticks)
    let dir := if s.loam.dir.contains (c.req.cls, c.seg) then s.loam.dir else s.loam.dir ++ [(c.req.cls, c.seg)]
    let put := fun (x : Loam × List Nat) (k : Nat) => writeCopy 0 0 x (newCopy s c (k + 1))
    setLoam s (saveTables ((List.range n).foldl put ({ s.loam with cur := none, dir := dir }, [])).1)

/-! ## Causes -/

/-- A cause bit of GLB_RST_CAUSE is set (R508). -/
def causeBit (s : State) (i : Nat) : State := orReg s 0x10 (2 ^ i)

/-! ## POR, PIN, CHIP -/

/-- POR: the supplies are in range; the timeline runs once RESET_N is high (R495, R499). -/
def execPor (env : StartEnv) (s : State) : Host.Outcome State Fault Refusal :=
  .next <|
    let s1 := coldAll (cutCommit s) porReaches
    let s2 : State := { s1 with glb := { s1.glb with powered := true } }
    if s2.glb.resetHeld then s2 else startUp true false (fun _ => true) env s2

/-- RESET_PIN: RESET_N held low for 1 µs; the pins and blocks wait for its release (R495, R497, R498). -/
def execResetPin (s : State) : Host.Outcome State Fault Refusal :=
  .next <|
    let s1 := coldAll (cutCommit (gaspFirst s)) chipReaches
    causeBit { s1 with glb := { s1.glb with resetHeld := true } } 1

/-- RESET_N_RELEASE starts the timeline from step 1 where the supplies are in range (R498). -/
def execResetNRelease (env : StartEnv) (s : State) : Host.Outcome State Fault Refusal :=
  .next <|
    if s.glb.resetHeld = false then s
    else
      let s1 : State := { s with glb := { s.glb with resetHeld := false } }
      if s1.glb.powered then startUp true false (fun _ => true) env s1 else s1

/-- A POR or PIN reset runs: what acts meanwhile is absorbed, but for its cause bit (R497, R520). -/
def resetRuns (s : State) : Bool := s.glb.resetHeld || !s.glb.powered

/-- A CHIP reset acts. -/
def actChip (env : StartEnv) (s : State) : State := startUp true false (fun _ => true) env (coldAll s chipReaches)

/-- CHIP: the request waits for the segment commit in progress (R497). -/
def execChip (env : StartEnv) (s : State) : Host.Outcome State Fault Refusal :=
  .next <|
    let s1 := gaspFirst (causeBit s 2)
    if resetRuns s then causeBit s 2
    else if s1.loam.cur.isSome then { s1 with glb := { s1.glb with deferred := some .chip } } else actChip env s1

/-! ## WARM and its escalation -/

/-- Ten minutes and one minute in ticks. -/
def tenMin : Nat := 600 * ticksPerSec
def oneMin : Nat := 60 * ticksPerSec

/-- Ticks of a list that lie within a window. -/
def within (now w : Nat) (ts : List Nat) : List Nat := ts.filter fun t => decide (now < t + w)

/-- A WARM restart acts; the second escalated one within 10 min leaves the device in FAILED (R504, R505). -/
def actWarm (esc rollback : Bool) (env : StartEnv) (s : State) : State :=
  let esced := if esc then within s.tb.ticks tenMin s.glb.escTicks ++ [s.tb.ticks] else s.glb.escTicks
  let s1 := startUp false rollback warmReaches env (coldWarm { s with glb := { s.glb with escTicks := esced } })
  if esc = true ∧ 2 ≤ esced.length then enterFailed s1 3 else s1

/-- Two requests that wait: CHIP absorbs WARM, and of two WARM requests one restart comes, an escalation or a rollback if
either is one (R396, R497, R505). -/
def mergeDeferred : Option Deferred → Bool → Bool → Deferred
  | some .chip, _, _ => .chip
  | some (.warm e r), esc, rollback => .warm (e || esc) (r || rollback)
  | none, esc, rollback => .warm esc rollback

/-- A WARM restart is requested (R497). -/
def requestWarm (esc rollback : Bool) (env : StartEnv) (s : State) : State :=
  let s1 := gaspFirst (causeBit s (if esc then 4 else 3))
  if s1.loam.cur.isSome then
    { s1 with glb := { s1.glb with deferred := some (mergeDeferred s1.glb.deferred esc rollback) } }
  else actWarm esc rollback env s1

/-- WARM. -/
def execWarm (env : StartEnv) (s : State) : Host.Outcome State Fault Refusal :=
  .next (if resetRuns s then causeBit s 3 else requestWarm false false env s)

/-- DEFERRED_RESET_ACT: the segment commit in progress has ended. -/
def execDeferredResetAct (env : StartEnv) (s : State) : Host.Outcome State Fault Refusal :=
  .next <|
    if s.loam.cur.isSome then s
    else match s.glb.deferred with
      | none => s
      | some .chip => actChip env s
      | some (.warm esc rollback) => actWarm esc rollback env s

/-- FW_ROLLBACK: the trial is abandoned, and the device reboots at once (R396, R398). -/
def execFwRollback (r : Fin 256) (env : StartEnv) (s : State) : Host.Outcome State Fault Refusal :=
  .next <| loamCommand s r (· == 0x13) fun x =>
    if trialRunning s then requestWarm false true env (loamEnd (setSlotState s s.loam.runSlot .rejected) r x 0)
    else loamEnd s r x 1

/-! ## CTRL, PKE, PERST -/

/-- The control cluster restarts; the third restart within 60 s is escalated (R17, R505). Until it runs again no PKE, mint
or Loam command completes. -/
def ctrlRestart (env : StartEnv) (s : State) : State :=
  let ts := within s.tb.ticks oneMin s.glb.ctrlTicks ++ [s.tb.ticks]
  let s1 := ctrlRestarts { s with glb := { s.glb with ctrlTicks := ts } }
  if 3 ≤ ts.length then requestWarm true false env { s1 with glb := { s1.glb with ctrlTicks := [] } }
  else ctrlBack s1

/-- CTRL. -/
def execCtrl (env : StartEnv) (s : State) : Host.Outcome State Fault Refusal :=
  .next (if resetRuns s then causeBit s 5 else ctrlRestart env (causeBit s 5))

/-- CTRL_WATCHDOG: firmware has not serviced the watchdog for 100 ms. -/
def execCtrlWatchdog (env : StartEnv) (s : State) : Host.Outcome State Fault Refusal :=
  .next (if resetRuns s then causeBit s 6 else ctrlRestart env (causeBit s 6))

/-- PKE: key slots, WRAP_LOCK, jobs and the block's registers return to their Cold values (R344, R496). -/
def execPke (s : State) : Host.Outcome State Fault Refusal :=
  .next (causeBit { dropRegs s (fun a => decide (0xF00000 ≤ a ∧ a < 0x1000000)) with pke := Pke.cold } 7)

/-- PERST: rings, HIF registers and the link (R496). -/
def execPerst (s : State) : Host.Outcome State Fault Refusal :=
  .next <|
    let s1 := dropRegs (clearMsix (resetRings s)) (fun a => decide (0xE00000 ≤ a ∧ a < 0xF00000))
    causeBit (ringErrorEnd { s1 with hif := { Hif.cold with userSeq := s1.hif.userSeq, rings := s1.hif.rings, vecs := s1.hif.vecs } }) 8

/-! ## Supplies -/

/-- The backup registers, zeroed. -/
def dropBackup (s : State) : State :=
  { s with regs := s.regs.filter fun e => decide (e.1 < 0x1100200 ∨ 0x1100300 ≤ e.1) }

/-- Both supplies of the keep-alive domain are lost: its time and the backup registers are gone (R385). -/
def keepAliveLost (s : State) : State :=
  orReg (dropBackup (setLoam s { s.loam with rtcValid := false, rtcBase := 0, rtcTick := s.tb.ticks, rtcAlign := 0,
                                             rtcLost := true })) 0x110010C 2

/-- SUPPLY_LOSS: everything but the array, the boot flash and the keep-alive domain is lost; that domain too where VBAT is
lost (R376, R385). -/
def execSupplyLoss (s : State) : Host.Outcome State Fault Refusal :=
  .next <|
    let s1 := coldAll (cutCommit s) porReaches
    let s2 : State := { s1 with glb := { s1.glb with powered := false } }
    if s2.loam.vbatGone then keepAliveLost s2 else s2

/-- VBAT_LOSS: with the supplies gone too, the RTC and the backup registers are lost; while VDDIO_18 is present, the
domain runs on until that goes as well (R385). -/
def execVbatLoss (s : State) : Host.Outcome State Fault Refusal :=
  .next <|
    let s1 := setLoam s { s.loam with vbatGone := true }
    if s.glb.powered then s1 else keepAliveLost s1

/-- VBAT_LOW: VBAT crosses 1.8 V (R401); at 1.8 V or more it supplies the keep-alive domain (R385). -/
def execVbatLow (low : Bool) (s : State) : Host.Outcome State Fault Refusal :=
  .next (setLoam s { s.loam with vbatLow := low, vbatGone := s.loam.vbatGone && low })

end Sys2Proof.Machine
end

