-- ==== Sys2Proof/Machine/Scheduler.lean ====
section
/-! DEFINITION. The scheduler's commands: NTP broadcast, Sync, Follow_Up, Announce and unicast grants (R230, R232 to
R236). -/

namespace Sys2Proof.Machine

/-- The next sequenceId of a stream. -/
def seqOf (s : State) (k : Nat) : Nat := tget (fun _ => 0) s.rsp.seqs k

def nextSeq (s : State) (k : Nat) : State :=
  { s with rsp := { s.rsp with seqs := tset (fun _ => 0) s.rsp.seqs k ((seqOf s k + 1) % 65536) } }

/-- Streams: grants by entry, then multicast Sync and Announce by profile and port. -/
def syncStream (p j : Nat) : Nat := 10000 + 16 * p + j
def annStream (p j : Nat) : Nat := 20000 + 16 * p + j

/-- Slots that fall while the link is down or held, or while the responder is off, produce no frame (R184). -/
def slotOpen (s : State) (j : Nat) : Bool := rspEn s && portEnabled s j && (portOf s j).up

/-- A rule selects the profile on the port (R234). -/
def ruleSelects (s : State) (p j : Nat) : Bool :=
  (List.range 256).any fun r =>
    let c := rd s (ruleA r)
    flag c 0 && decide (fld c 10 6 = p) && flag c (16 + j)

/-- The profile schedules on the port: enabled, PTP, selected, and not the time receiver (R234, R237). -/
def schedules (s : State) (p j : Nat) : Bool :=
  let pr := profOf s p
  pr.en && decide (pr.proto = 2) && ruleSelects s p j && !isTimeRx s j p && slotOpen s j

/-- A Sync leaves for a destination on a stream (R206, R234). -/
def sendSync (s : State) (j p stream : Nat) (d : PtpDst) (uni : Bool) : State :=
  let pr := profOf s p
  let q := seqOf s stream
  let s1 := nextSeq s stream
  let log := if uni then 0x7F else sfld pr.ptpint 0 8
  let mk := fun (two : Bool) (corr : Nat) (ts : Bytes) =>
    ptpMsg s1 j 0 pr.domain (sdoOf pr) (ptpFlags two uni) corr q log ts
  let zero10 : Bytes := List.replicate 10 0
  if pr.twoStep then
    enqueue s1 j (txItem pr.cls (ptpFrame s1 j pr d [] true .full (mk true 0 zero10)) .sched (.syncTwo p stream q) 0)
  else
    match ptpTimed s1 j pr d [] (mk false 0 zero10) with
    | (f, tr, false) => enqueue s1 j (txItem pr.cls f .sched (.syncOne (ptpOff d []) tr) 0)
    | (_, _, true) =>
      let t := plannedT16 s1
      let f := ptpFrame s1 j pr d [] true .full (mk false (fnsT16 t) (ptpStamp t))
      enqueue s1 j { txItem pr.cls f .sched .none 0 with launch := some t }

/-- What R233 states of the device's time. -/
structure AnnState where
  cls : Nat
  source : Nat
  traceable : Bool
  variance : Nat
  deriving DecidableEq, Repr

def annState (s : State) (pr : Prof) : AnnState :=
  if s.tb.timeValid = false then { cls := 248, source := 0xA0, traceable := false, variance := 0xFFFF }
  else if s.ref.tsel < 4 then
    let src := if s.ref.tsel = 2 then 0x20 else if s.ref.tsel = 3 then 0x40 else 0x10
    if eql s s.ref.tsel ≤ 3 then { cls := 6, source := src, traceable := true, variance := 0x4E5D }
    else { cls := 248, source := src, traceable := false, variance := 0xFFFF }
  else { cls := fld pr.ptpint 24 8, source := 0xA0, traceable := true, variance := 0xFFFF }

/-- clockAccuracy by DPL_HO_ERR in ns (R233). -/
def clockAccuracy (e : Nat) : Nat :=
  if e ≤ 25 then 0x20 else if e ≤ 100 then 0x21 else if e ≤ 250 then 0x22 else if e ≤ 1000 then 0x23
  else if e ≤ 2500 then 0x24 else if e ≤ 10000 then 0x25 else 0xFE

/-- An Announce leaves in class 3 (R232, R233). -/
def sendAnnounce (s : State) (j p stream : Nat) (d : PtpDst) (uni : Bool) : State :=
  let pr := profOf s p
  let a := annState s pr
  let lf := leapFlag s 43200
  let flags := ptpFlags false uni + boolBit (decide (0 < lf)) 0 + boolBit (decide (lf < 0)) 1 + 4 + 8
    + (if a.traceable then 48 else 0)
  let body : Bytes := List.replicate 10 0 ++ beBytes 2 (twos 16 (ptpUtc s)) ++ [0, BitVec.ofNat 8 (fld pr.ptp 16 8)]
    ++ [BitVec.ofNat 8 a.cls, BitVec.ofNat 8 (clockAccuracy s.dpl.hoErr)] ++ beBytes 2 a.variance
    ++ [BitVec.ofNat 8 (fld pr.ptp 24 8)] ++ clockId s ++ beBytes 2 0 ++ [BitVec.ofNat 8 a.source]
  let msg := ptpMsg s j 11 pr.domain (sdoOf pr) flags 0 (seqOf s stream) (if uni then 0x7F else sfld pr.ptpint 8 8) body
  enqueue (nextSeq s stream) j (txItem 3 (ptpFrame s j pr d [] false .full msg) .sched .none 0)

/-- Announce messages are sent while TIME_VALID is true, else only with UNSYNC = 1 (R225). -/
def announces (s : State) (p : Nat) : Bool := s.tb.timeValid || (profOf s p).unsync

/-- PTP_SYNC_SLOT (R225, R234). -/
def execPtpSyncSlot (p : Fin 64) (j : Fin 16) (s : State) : Host.Outcome State Fault Refusal :=
  .next <|
    if schedules s p j = true ∧ (profOf s p).unicast = false ∧ s.tb.timeValid = true then
      sendSync s j p (syncStream p j) (ptpGroup s j p (profOf s p) false) false
    else s

/-- PTP_ANNOUNCE_SLOT (R225, R233, R234). -/
def execPtpAnnounceSlot (p : Fin 64) (j : Fin 16) (s : State) : Host.Outcome State Fault Refusal :=
  .next <|
    if schedules s p j = true ∧ (profOf s p).unicast = false ∧ announces s p = true then
      sendAnnounce s j p (annStream p j) (ptpGroup s j p (profOf s p) false) false
    else s

/-- PTP_FOLLOW_UP: the egress stamp of a two-step Sync is known; none is sent while TIME_VALID is
false (R225, R232, R234). -/
def execPtpFollowUp (j : Fin 16) (s : State) : Host.Outcome State Fault Refusal :=
  .next <|
    match s.rsp.syncSent.find? (fun e => decide (e.1 = j.val)) with
    | none => s
    | some e =>
      let (_, p, stream, q, t) := e
      let s1 : State := { s with rsp := { s.rsp with syncSent := s.rsp.syncSent.erase e } }
      let pr := profOf s1 p
      let uni := decide (stream < 4096)
      let d := if uni then ptpPeer s1 j p (grantOf s1 stream).peer else ptpGroup s1 j p pr false
      let msg := ptpMsg s1 j 8 pr.domain (sdoOf pr) (ptpFlags false uni) (fnsT16 t) q
        (if uni then 0x7F else sfld pr.ptpint 0 8) (ptpStamp t)
      if slotOpen s1 j = false ∨ s1.tb.timeValid = false ∨ (uni = true ∧ (grantOf s1 stream).live = false) then s1
      else enqueue s1 j (txItem 3 (ptpFrame s1 j pr d [] false .full msg) .sched .none 0)

/-- GRANT_SLOT (R236). -/
def execGrantSlot (g : Fin 4096) (s : State) : Host.Outcome State Fault Refusal :=
  .next <|
    let x := grantOf s g
    let pr := profOf s x.prof
    if x.live = false ∨ slotOpen s x.j = false ∨ pr.en = false ∨ pr.proto ≠ 2 ∨ isTimeRx s x.j x.prof = true then s
    else
      let d := ptpPeer s x.j x.prof x.peer
      if x.typ = 0 ∧ s.tb.timeValid = true then sendSync s x.j x.prof g d true
      else if x.typ = 11 ∧ announces s x.prof = true then sendAnnounce s x.j x.prof g d true
      else s

/-- GRANT_EXPIRED (R235). -/
def execGrantExpired (g : Fin 4096) (s : State) : Host.Outcome State Fault Refusal :=
  .next (if (grantOf s g).expiry ≤ nowSec s then setGrant s g Grant.cold else s)

/-- An NTP mode-5 message leaves a port (R230). -/
def sendBroadcast (s : State) (p j : Nat) (src : Bytes) : State :=
  let pr := profOf s p
  let v6 := decide (src.length = 16)
  let dst : Bytes := if v6 then [0xFF, 0x05, 0, 0, 0, 0, 0, 0, 0, 0, 0, 0, 0, 0, 0x01, 0x01] else [224, 0, 1, 1]
  let base := ntpHeader s pr .served [] 0
  let li := if pr.smear then 0 else leapLi s
  let hdr := fun (tx : Nat) =>
    [BitVec.ofNat 8 (li * 64 + 37), base.getD 1 0, BitVec.ofNat 8 (fld pr.ntp 24 8)] ++ sub base 3 21
      ++ List.replicate 16 (0 : Byte) ++ beBytes 8 tx
  let mk := fun (m : Csum) (body : Bytes) =>
    ethFrame (groupMac dst) (macOf s j) [] (ipEtype dst) (udpIp src dst 123 123 pr.ttl pr.dscp m body)
  let off := if v6 then 62 else 42
  match csumMethod s j v6 pr.cls with
  | some .pad =>
    enqueue s j (txItem pr.cls (mk .pad (hdr 0 ++ [0, 0])) .sched (.ntp (off + 40) pr.smear (some (off + 48))) 0)
  | some m => enqueue s j (txItem pr.cls (mk m (hdr 0)) .sched (.ntp (off + 40) pr.smear none) 0)
  | none =>
    let t := plannedT16 s
    enqueue s j { txItem pr.cls (mk .full (hdr (ntpStamp s pr.smear t))) .sched .none 0 with launch := some t }

/-- NTP_BROADCAST_SLOT: from the service address of the lowest-numbered enabled rule that selects the profile with
DSEL = 0b01, on each of that rule's ports, but for the time receiver's (R230, R237). -/
def execNtpBroadcastSlot (p : Fin 64) (s : State) : Host.Outcome State Fault Refusal :=
  .next <|
    let pr := profOf s p
    if pr.bcast = false ∨ s.tb.timeValid = false then s
    else
      let rule := (List.range 256).find? fun r =>
        let c := rd s (ruleA r)
        flag c 0 && decide (fld c 1 2 = 1) && decide (fld c 10 6 = p)
      match rule with
      | none => s
      | some r =>
        let c := rd s (ruleA r)
        (List.range 16).foldl (fun t j =>
          let (a, ctl) := ruleAddr t (j / 4) (fld c 3 7)
          if flag c (16 + j) && flag ctl 4 && flag ctl (j % 4) && slotOpen t j && !isTimeRx t j p then sendBroadcast t p j a else t) s

end Sys2Proof.Machine
end

