-- ==== Sys2Proof/Machine/Dispatch.lean ====
section
/-! DEFINITION. One arm for each command: its effect on everything but the queue. -/

namespace Sys2Proof.Machine

/-- The effect of a command. -/
def exec (i : Instr) (s : State) : Host.Outcome State Fault Refusal :=
  match i with
  | .registerWrite bar addr value => Sys2Proof.Machine.execRegisterWrite bar addr value s
  | .bar0BadAccess bar write => Sys2Proof.Machine.execBar0BadAccess bar write s
  | .frameReceived j frame ago hostOk => Sys2Proof.Machine.execFrameReceived j frame ago hostOk s
  | .laneAccept lane => Sys2Proof.Machine.execLaneAccept lane s
  | .laneReplyDone lane => Sys2Proof.Machine.execLaneReplyDone lane s
  | .lpTxStart j => Sys2Proof.Machine.execLpTxStart j s
  | .lpTxEnd j => Sys2Proof.Machine.execLpTxEnd j s
  | .launchInstant j => Sys2Proof.Machine.execLaunchInstant j s
  | .taiSecondBoundary => Sys2Proof.Machine.execTaiSecondBoundary s
  | .ppsOutFall => Sys2Proof.Machine.execPpsOutFall s
  | .servoUpdate => Sys2Proof.Machine.execServoUpdate s
  | .tbDcoLoWrite value => Sys2Proof.Machine.execTbDcoLoWrite value s
  | .tbDcoHiWrite value => Sys2Proof.Machine.execTbDcoHiWrite value s
  | .setTime alsoStepNow => Sys2Proof.Machine.execSetTime alsoStepNow s
  | .stepNow alsoSetTime => Sys2Proof.Machine.execStepNow alsoSetTime s
  | .restep => Sys2Proof.Machine.execRestep s
  | .forceInvalid hold => Sys2Proof.Machine.execForceInvalid hold s
  | .tbNowRead => Sys2Proof.Machine.execTbNowRead s
  | .leapApply => Sys2Proof.Machine.execLeapApply s
  | .tbLeapExpired => Sys2Proof.Machine.execTbLeapExpired s
  | .ttOutEnable n ctl => Sys2Proof.Machine.execTtOutEnable n ctl s
  | .ttOutStagedWrite n w value => Sys2Proof.Machine.execTtOutStagedWrite n w value s
  | .ttOutUpdate n => Sys2Proof.Machine.execTtOutUpdate n s
  | .ttPulseFire n => Sys2Proof.Machine.execTtPulseFire n s
  | .ttPulseEnd n => Sys2Proof.Machine.execTtPulseEnd n s
  | .ttCapture m rising sub => Sys2Proof.Machine.execTtCapture m rising sub s
  | .refFreqGate k ppb => Sys2Proof.Machine.execRefFreqGate k ppb s
  | .ppsEdge input sub => Sys2Proof.Machine.execPpsEdge input sub s
  | .missingSecond k => Sys2Proof.Machine.execMissingSecond k s
  | .refPairCompare => Sys2Proof.Machine.execRefPairCompare s
  | .lorternoMessage input msg => Sys2Proof.Machine.execLorternoMessage input msg s
  | .lorternoByteGap input => Sys2Proof.Machine.execLorternoByteGap input s
  | .lorternoWindowTimeout input => Sys2Proof.Machine.execLorternoWindowTimeout input s
  | .refEsmcTimeout k => Sys2Proof.Machine.execRefEsmcTimeout k s
  | .rspPtpAnnTimeout => Sys2Proof.Machine.execRspPtpAnnTimeout s
  | .refEvaluate freqs => Sys2Proof.Machine.execRefEvaluate freqs s
  | .dpllAcquireLock d => Sys2Proof.Machine.execDpllAcquireLock d s
  | .dpllNarrowDone d => Sys2Proof.Machine.execDpllNarrowDone d s
  | .dplLockloss d => Sys2Proof.Machine.execDplLockloss d s
  | .holdoverSteer temp => Sys2Proof.Machine.execHoldoverSteer temp s
  | .hoErrUpdate temp => Sys2Proof.Machine.execHoErrUpdate temp s
  | .histSample freq temp => Sys2Proof.Machine.execHistSample freq temp s
  | .histCommitDue => Sys2Proof.Machine.execHistCommitDue s
  | .gnIfMeasure b hz => Sys2Proof.Machine.execGnIfMeasure b hz s
  | .gnIfClockStop b => Sys2Proof.Machine.execGnIfClockStop b s
  | .gnIfRestored b => Sys2Proof.Machine.execGnIfRestored b s
  | .gnFeGo => Sys2Proof.Machine.execGnFeGo s
  | .gnFeTransferDone rx => Sys2Proof.Machine.execGnFeTransferDone rx s
  | .gnFeScriptEnd => Sys2Proof.Machine.execGnFeScriptEnd s
  | .gnSearchDone c found => Sys2Proof.Machine.execGnSearchDone c found s
  | .gnChannelIdle c => Sys2Proof.Machine.execGnChannelIdle c s
  | .gnNavUnit c bits starts => Sys2Proof.Machine.execGnNavUnit c bits starts s
  | .gnEpoch sol => Sys2Proof.Machine.execGnEpoch sol s
  | .gnIstoReport => Sys2Proof.Machine.execGnIstoReport s
  | .gnPpsMessage m => Sys2Proof.Machine.execGnPpsMessage m s
  | .gnRawPps sub => Sys2Proof.Machine.execGnRawPps sub s
  | .gnKrootReceived k => Sys2Proof.Machine.execGnKrootReceived k s
  | .gnKrootVerified => Sys2Proof.Machine.execGnKrootVerified s
  | .gnOsnmaReport => Sys2Proof.Machine.execGnOsnmaReport s
  | .gnStartHot => Sys2Proof.Machine.execGnStartHot s
  | .gnStartWarm => Sys2Proof.Machine.execGnStartWarm s
  | .gnStartCold => Sys2Proof.Machine.execGnStartCold s
  | .gnSleep => Sys2Proof.Machine.execGnSleep s
  | .gnWake => Sys2Proof.Machine.execGnWake s
  | .gnSleepRefresh => Sys2Proof.Machine.execGnSleepRefresh s
  | .gnRefreshDone => Sys2Proof.Machine.execGnRefreshDone s
  | .gnRecordCommit => Sys2Proof.Machine.execGnRecordCommit s
  | .lpLinkUp j sgmii => Sys2Proof.Machine.execLpLinkUp j sgmii s
  | .lpLinkDown j remoteFault => Sys2Proof.Machine.execLpLinkDown j remoteFault s
  | .lpFecTryTimeout j => Sys2Proof.Machine.execLpFecTryTimeout j s
  | .lpFecResolved j fec => Sys2Proof.Machine.execLpFecResolved j fec s
  | .lpModeWrite n value => Sys2Proof.Machine.execLpModeWrite n value s
  | .lpSpeedFecWrite j value => Sys2Proof.Machine.execLpSpeedFecWrite j value s
  | .lpPortDisable j => Sys2Proof.Machine.execLpPortDisable j s
  | .lpPortEnable j => Sys2Proof.Machine.execLpPortEnable j s
  | .lpFecUncorr j => Sys2Proof.Machine.execLpFecUncorr j s
  | .pauseExpired j sc => Sys2Proof.Machine.execPauseExpired j sc s
  | .lpPauseStorm j sc => Sys2Proof.Machine.execLpPauseStorm j sc s
  | .lpPauseResume j sc => Sys2Proof.Machine.execLpPauseResume j sc s
  | .pfcRepeat j c => Sys2Proof.Machine.execPfcRepeat j c s
  | .lpHoldExpired j => Sys2Proof.Machine.execLpHoldExpired j s
  | .mgFrameReceived frame hostOk => Sys2Proof.Machine.execMgFrameReceived frame hostOk s
  | .mgWakeStatusWrite value => Sys2Proof.Machine.execMgWakeStatusWrite value s
  | .mgLink up speed => Sys2Proof.Machine.execMgLink up speed s
  | .mgPauseStorm => Sys2Proof.Machine.execMgPauseStorm s
  | .mgTrafficInterval bits i2cOk => Sys2Proof.Machine.execMgTrafficInterval bits i2cOk s
  | .tsRegionReport temps supplies => Sys2Proof.Machine.execTsRegionReport temps supplies s
  | .tsRestored j => Sys2Proof.Machine.execTsRestored j s
  | .tsCalClear => Sys2Proof.Machine.execTsCalClear s
  | .tsCalSumRead => Sys2Proof.Machine.execTsCalSumRead s
  | .tsCalEntryExpire seq => Sys2Proof.Machine.execTsCalEntryExpire seq s
  | .rspRuleStage r mask value => Sys2Proof.Machine.execRspRuleStage r mask value s
  | .rspRuleApply r value => Sys2Proof.Machine.execRspRuleApply r value s
  | .rspProfileStage p w value => Sys2Proof.Machine.execRspProfileStage p w value s
  | .rspProfileApply p value => Sys2Proof.Machine.execRspProfileApply p value s
  | .ntpBroadcastSlot p => Sys2Proof.Machine.execNtpBroadcastSlot p s
  | .ptpSyncSlot p j => Sys2Proof.Machine.execPtpSyncSlot p j s
  | .ptpAnnounceSlot p j => Sys2Proof.Machine.execPtpAnnounceSlot p j s
  | .ptpFollowUp j => Sys2Proof.Machine.execPtpFollowUp j s
  | .pdelayRespFollowUp j => Sys2Proof.Machine.execPdelayRespFollowUp j s
  | .grantSlot g => Sys2Proof.Machine.execGrantSlot g s
  | .grantExpired g => Sys2Proof.Machine.execGrantExpired g s
  | .ptpDelayReqSlot => Sys2Proof.Machine.execPtpDelayReqSlot s
  | .rspLaneFault lane => Sys2Proof.Machine.execRspLaneFault lane s
  | .rspLaneRetest lanes => Sys2Proof.Machine.execRspLaneRetest lanes s
  | .rspLaneTestDone lane pass => Sys2Proof.Machine.execRspLaneTestDone lane pass s
  | .ntsRotationDue => Sys2Proof.Machine.execNtsRotationDue s
  | .ntsKeyDrawn => Sys2Proof.Machine.execNtsKeyDrawn s
  | .ntsKeysCommitted ok => Sys2Proof.Machine.execNtsKeysCommitted ok s
  | .ntsMirrorWaitExpired => Sys2Proof.Machine.execNtsMirrorWaitExpired s
  | .ntsRotationRetry => Sys2Proof.Machine.execNtsRotationRetry s
  | .rotateNow => Sys2Proof.Machine.execRotateNow s
  | .authNew => Sys2Proof.Machine.execAuthNew s
  | .acceptPrev => Sys2Proof.Machine.execAcceptPrev s
  | .restorePeer rec => Sys2Proof.Machine.execRestorePeer rec s
  | .ntsKeyCmdInvalid code => Sys2Proof.Machine.execNtsKeyCmdInvalid code s
  | .mint r buf writeOk => Sys2Proof.Machine.execMint r buf writeOk s
  | .gntRekey => Sys2Proof.Machine.execGntRekey s
  | .gntKeyDrawn => Sys2Proof.Machine.execGntKeyDrawn s
  | .gntSweep => Sys2Proof.Machine.execGntSweep s
  | .gntPolicyWrite k value => Sys2Proof.Machine.execGntPolicyWrite k value s
  | .gntAmpCfgWrite j value => Sys2Proof.Machine.execGntAmpCfgWrite j value s
  | .gntSampleSecond => Sys2Proof.Machine.execGntSampleSecond s
  | .hifProdWrite r value => Sys2Proof.Machine.execHifProdWrite r value s
  | .hifConsWrite r value => Sys2Proof.Machine.execHifConsWrite r value s
  | .hifDescFetch r desc data => Sys2Proof.Machine.execHifDescFetch r desc data s
  | .hifRingEnable r cfg => Sys2Proof.Machine.execHifRingEnable r cfg s
  | .hifRingDisable r => Sys2Proof.Machine.execHifRingDisable r s
  | .hifRingStopped r => Sys2Proof.Machine.execHifRingStopped r s
  | .hifDmaFail r onFetch => Sys2Proof.Machine.execHifDmaFail r onFetch s
  | .msixTimer v => Sys2Proof.Machine.execMsixTimer v s
  | .msixUnmask v => Sys2Proof.Machine.execMsixUnmask v s
  | .hifFlr => Sys2Proof.Machine.execHifFlr s
  | .hifPcieLinkDown => Sys2Proof.Machine.execHifPcieLinkDown s
  | .hifPcieLink speed width ctl => Sys2Proof.Machine.execHifPcieLink speed width ctl s
  | .modAdd core => Sys2Proof.Machine.execModAdd core s
  | .modSub core => Sys2Proof.Machine.execModSub core s
  | .modMul core => Sys2Proof.Machine.execModMul core s
  | .modInv core => Sys2Proof.Machine.execModInv core s
  | .modExp core => Sys2Proof.Machine.execModExp core s
  | .ecdsaSign core => Sys2Proof.Machine.execEcdsaSign core s
  | .ecdsaVerify core => Sys2Proof.Machine.execEcdsaVerify core s
  | .ed25519Sign core => Sys2Proof.Machine.execEd25519Sign core s
  | .ed25519Verify core => Sys2Proof.Machine.execEd25519Verify core s
  | .x25519 core => Sys2Proof.Machine.execX25519 core s
  | .rsaPriv core => Sys2Proof.Machine.execRsaPriv core s
  | .rsaPub core => Sys2Proof.Machine.execRsaPub core s
  | .keyImport core => Sys2Proof.Machine.execKeyImport core s
  | .keyWrap core => Sys2Proof.Machine.execKeyWrap core s
  | .keygen core => Sys2Proof.Machine.execKeygen core s
  | .keyErase core => Sys2Proof.Machine.execKeyErase core s
  | .random r writeOk => Sys2Proof.Machine.execRandom r writeOk s
  | .pkeUnknownOpcode core => Sys2Proof.Machine.execPkeUnknownOpcode core s
  | .pkeDispatch => Sys2Proof.Machine.execPkeDispatch s
  | .pkeDrawDone r => Sys2Proof.Machine.execPkeDrawDone r s
  | .pkeYield core coreTime => Sys2Proof.Machine.execPkeYield core coreTime s
  | .pkeJobDone core parityError writeOk coreTime => Sys2Proof.Machine.execPkeJobDone core parityError writeOk coreTime s
  | .pkeCoreRetest cores => Sys2Proof.Machine.execPkeCoreRetest cores s
  | .pkeCoreTestDone core pass => Sys2Proof.Machine.execPkeCoreTestDone core pass s
  | .pkeAbort r => Sys2Proof.Machine.execPkeAbort r s
  | .wrapLock => Sys2Proof.Machine.execWrapLock s
  | .randomWaitExpired r => Sys2Proof.Machine.execRandomWaitExpired r s
  | .entReady => Sys2Proof.Machine.execEntReady s
  | .entSourceFail x rct apt => Sys2Proof.Machine.execEntSourceFail x rct apt s
  | .entSourceRecover x => Sys2Proof.Machine.execEntSourceRecover x s
  | .entReseedDue => Sys2Proof.Machine.execEntReseedDue s
  | .reseedNow => Sys2Proof.Machine.execReseedNow s
  | .entReseedDone => Sys2Proof.Machine.execEntReseedDone s
  | .entBlocked => Sys2Proof.Machine.execEntBlocked s
  | .loamCommit r => Sys2Proof.Machine.execLoamCommit r s
  | .loamRead r writeOk => Sys2Proof.Machine.execLoamRead r writeOk s
  | .fwWrite r image => Sys2Proof.Machine.execFwWrite r image s
  | .fwActivate r image => Sys2Proof.Machine.execFwActivate r image s
  | .fwCommit r => Sys2Proof.Machine.execFwCommit r s
  | .fwRollback r env => Sys2Proof.Machine.execFwRollback r env s
  | .csigSet r key => Sys2Proof.Machine.execCsigSet r key s
  | .wipe r => Sys2Proof.Machine.execWipe r s
  | .loamUnknownOpcode r => Sys2Proof.Machine.execLoamUnknownOpcode r s
  | .loamFirmwareCommit sid payload => Sys2Proof.Machine.execLoamFirmwareCommit sid payload s
  | .loamCommitStart => Sys2Proof.Machine.execLoamCommitStart s
  | .loamSegmentDone res => Sys2Proof.Machine.execLoamSegmentDone res s
  | .loamRewrite => Sys2Proof.Machine.execLoamRewrite s
  | .loamPfail => Sys2Proof.Machine.execLoamPfail s
  | .pfailRelease => Sys2Proof.Machine.execPfailRelease s
  | .pfailHoldoffEnd => Sys2Proof.Machine.execPfailHoldoffEnd s
  | .loamWearMove => Sys2Proof.Machine.execLoamWearMove s
  | .vbatLoss => Sys2Proof.Machine.execVbatLoss s
  | .fwTrialMinute => Sys2Proof.Machine.execFwTrialMinute s
  | .brimEnable => Sys2Proof.Machine.execBrimEnable s
  | .brimResearch => Sys2Proof.Machine.execBrimResearch s
  | .brimPresence => Sys2Proof.Machine.execBrimPresence s
  | .brimPresencePulseEnd => Sys2Proof.Machine.execBrimPresencePulseEnd s
  | .brimSearchStart => Sys2Proof.Machine.execBrimSearchStart s
  | .brimSearchPass others east west ms => Sys2Proof.Machine.execBrimSearchPass others east west ms s
  | .brimLaneUp x => Sys2Proof.Machine.execBrimLaneUp x s
  | .brimLaneDown x => Sys2Proof.Machine.execBrimLaneDown x s
  | .brimExchange x e beyond => Sys2Proof.Machine.execBrimExchange x e beyond s
  | .brimElection eqls eligible => Sys2Proof.Machine.execBrimElection eqls eligible s
  | .brimTokenArrive side seq rotNs => Sys2Proof.Machine.execBrimTokenArrive side seq rotNs s
  | .brimTokenRegen => Sys2Proof.Machine.execBrimTokenRegen s
  | .brimControlMessage m => Sys2Proof.Machine.execBrimControlMessage m s
  | .brimMsgSend r data => Sys2Proof.Machine.execBrimMsgSend r data s
  | .brimMsgReceive r src data hostOk => Sys2Proof.Machine.execBrimMsgReceive r src data hostOk s
  | .mitMsgSend r data => Sys2Proof.Machine.execMitMsgSend r data s
  | .mitMsgReceive r data hostOk => Sys2Proof.Machine.execMitMsgReceive r data hostOk s
  | .brimAlignLoss => Sys2Proof.Machine.execBrimAlignLoss s
  | .mitLaneUp => Sys2Proof.Machine.execMitLaneUp s
  | .mitLaneDown => Sys2Proof.Machine.execMitLaneDown s
  | .mitPairingMessage m => Sys2Proof.Machine.execMitPairingMessage m s
  | .mitPairingTimeout => Sys2Proof.Machine.execMitPairingTimeout s
  | .mitHeartbeatSend => Sys2Proof.Machine.execMitHeartbeatSend s
  | .mitInbandSend => Sys2Proof.Machine.execMitInbandSend s
  | .mitHeartbeatRx inband serving since => Sys2Proof.Machine.execMitHeartbeatRx inband serving since s
  | .mitHeartbeatMissed => Sys2Proof.Machine.execMitHeartbeatMissed s
  | .mitInbandSilent => Sys2Proof.Machine.execMitInbandSilent s
  | .mitLastGaspRx => Sys2Proof.Machine.execMitLastGaspRx s
  | .mitMirrorReceive rec serial tag => Sys2Proof.Machine.execMitMirrorReceive rec serial tag s
  | .mitMirrorAck sid serial => Sys2Proof.Machine.execMitMirrorAck sid serial s
  | .mitWitnessAlive => Sys2Proof.Machine.execMitWitnessAlive s
  | .mitWitnessExpired => Sys2Proof.Machine.execMitWitnessExpired s
  | .relinquish => Sys2Proof.Machine.execRelinquish s
  | .mitTakeoverNotice => Sys2Proof.Machine.execMitTakeoverNotice s
  | .spiWrite instr addr words fin => Sys2Proof.Machine.execSpiWrite instr addr words fin s
  | .spiRead instr addr shifted fin => Sys2Proof.Machine.execSpiRead instr addr shifted fin s
  | .spiBadInstr instr => Sys2Proof.Machine.execSpiBadInstr instr s
  | .i2ctWrite target addr words fin => Sys2Proof.Machine.execI2ctWrite target addr words fin s
  | .i2ctRead target addr shifted fin => Sys2Proof.Machine.execI2ctRead target addr shifted fin s
  | .bcpMboxToBcWrite value => Sys2Proof.Machine.execBcpMboxToBcWrite value s
  | .bcpMboxFromBcRead => Sys2Proof.Machine.execBcpMboxFromBcRead s
  | .xramAccess offset width write => Sys2Proof.Machine.execXramAccess offset width write s
  | .bcpI2cGo c => Sys2Proof.Machine.execBcpI2cGo c s
  | .bcpI2cDone c e => Sys2Proof.Machine.execBcpI2cDone c e s
  | .bcpI2cRetry c => Sys2Proof.Machine.execBcpI2cRetry c s
  | .bcpI2cTimeout c => Sys2Proof.Machine.execBcpI2cTimeout c s
  | .bcpDiscStuck => Sys2Proof.Machine.execBcpDiscStuck s
  | .clkXtalLost => Sys2Proof.Machine.execClkXtalLost s
  | .clkLoinLost => Sys2Proof.Machine.execClkLoinLost s
  | .clkFreqCheck lo xtal sds => Sys2Proof.Machine.execClkFreqCheck lo xtal sds s
  | .unifiedReq => Sys2Proof.Machine.execUnifiedReq s
  | .clkReturn => Sys2Proof.Machine.execClkReturn s
  | .clkMuxRescue d => Sys2Proof.Machine.execClkMuxRescue d s
  | .pwrIdlePark u idle => Sys2Proof.Machine.execPwrIdlePark u idle s
  | .pwrScheduledWake u late => Sys2Proof.Machine.execPwrScheduledWake u late s
  | .pwrDemandWake u late => Sys2Proof.Machine.execPwrDemandWake u late s
  | .pwrLaneWake lanes => Sys2Proof.Machine.execPwrLaneWake lanes s
  | .pwrLanePark lanes => Sys2Proof.Machine.execPwrLanePark lanes s
  | .mbtRun mode alg => Sys2Proof.Machine.execMbtRun mode alg s
  | .mbtDone failRows => Sys2Proof.Machine.execMbtDone failRows s
  | .siltWindowEnd k => Sys2Proof.Machine.execSiltWindowEnd k s
  | .evtAlarmAck value => Sys2Proof.Machine.execEvtAlarmAck value s
  | .dropCounterClear addr => Sys2Proof.Machine.execDropCounterClear addr s
  | .statCounterRead bar addr => Sys2Proof.Machine.execStatCounterRead bar addr s
  | .pmcClear k => Sys2Proof.Machine.execPmcClear k s
  | .clearAll => Sys2Proof.Machine.execClearAll s
  | .freeze on => Sys2Proof.Machine.execFreeze on s
  | .pmcCtlWrite k value => Sys2Proof.Machine.execPmcCtlWrite k value s
  | .pmcLoRead k => Sys2Proof.Machine.execPmcLoRead k s
  | .pmcWrap k n => Sys2Proof.Machine.execPmcWrap k n s
  | .por env => Sys2Proof.Machine.execPor env s
  | .resetPin => Sys2Proof.Machine.execResetPin s
  | .chip env => Sys2Proof.Machine.execChip env s
  | .warm env => Sys2Proof.Machine.execWarm env s
  | .ctrl env => Sys2Proof.Machine.execCtrl env s
  | .pke => Sys2Proof.Machine.execPke s
  | .ctrlWatchdog env => Sys2Proof.Machine.execCtrlWatchdog env s
  | .perst => Sys2Proof.Machine.execPerst s
  | .deferredResetAct env => Sys2Proof.Machine.execDeferredResetAct env s
  | .supplyLoss => Sys2Proof.Machine.execSupplyLoss s
  | .lorternoFramingError input => Sys2Proof.Machine.execLorternoFramingError input s
  | .gnPullInDone c => Sys2Proof.Machine.execGnPullInDone c s
  | .mgPauseHoldEnd => Sys2Proof.Machine.execMgPauseHoldEnd s
  | .esmcPduSend => Sys2Proof.Machine.execEsmcPduSend s
  | .spiHdrShort => Sys2Proof.Machine.execSpiHdrShort s
  | .resetNRelease env => Sys2Proof.Machine.execResetNRelease env s
  | .brimDisable => Sys2Proof.Machine.execBrimDisable s
  | .mitEnable => Sys2Proof.Machine.execMitEnable s
  | .mitDisable => Sys2Proof.Machine.execMitDisable s
  | .vbatLow low => Sys2Proof.Machine.execVbatLow low s

end Sys2Proof.Machine
end

