-- ==== Sys2Proof/Machine/Step.lean ====
section
/-! DEFINITION. One step: the command at the front of the queue runs, or the block idles for one TBCLK tick. -/

namespace Sys2Proof.Machine

/-- The queue's rest. -/
def State.withPending (s : State) (cs : List Instr) : State := { s with pending := cs }

/-- One step of the block. On an empty queue one TBCLK tick passes (log entry 2). -/
def step (s : State) : Host.Outcome State Fault Refusal :=
  match s.pending with
  | [] => .next (idleTick s)
  | c :: cs => exec c (s.withPending cs)

/-- A state with the command that a word spells at the front of its queue; unchanged where it spells none. -/
def State.withFetchWord (s : State) (nbits w : Nat) : State :=
  match Sys2Proof.decodeTableWord nbits w with
  | none => s
  | some c => s.withPending (c :: s.pending)

end Sys2Proof.Machine
end

