-- ==== Sys2Proof/Safety.lean ====
section
/-! DEFINITION. What counts as a safe run, in the terms the statements use: next states and what they hold, counters,
what a family of commands leaves alone, and the invariant of the exchange RAM. -/

namespace Sys2Proof.Machine

/-- An outcome is a next state. -/
def answersNext (o : Host.Outcome State Fault Refusal) : Prop := ∃ t, o = .next t

/-- The command completes, and the next state is as stated. -/
def Gives (c : Instr) (s : State) (P : State → Prop) : Prop := ∃ t, exec c s = .next t ∧ P t

/-- The registers that raising an event may count in: EVT_SAT, EVT_DISCARD and the drop counters of the rings. -/
def eventReg (a : Nat) : Bool :=
  decide (a = 0x1500040 ∨ a = 0x1500044) || decide (0xE01000 ≤ a ∧ a < 0xE03000 ∧ a % 0x20 = 0x1C)

/-- Every register but those of a set, and but the event counters, holds the word it held. -/
def RegsKept (own : Nat → Bool) (s t : State) : Prop := ∀ a, eventReg a = false → own a = false → rd t a = rd s a

/-- A 32-bit drop and error counter has grown by n, saturating (R487). -/
def Counted (s t : State) (a n : Nat) : Prop := rd t a = BitVec.ofNat 32 (min full ((rd s a).toNat + n))

/-- A commit of a class that firmware requests is accepted now (R373, R375). -/
def CommitFits (s : State) (cls : Nat) : Prop :=
  powerFailing s = false ∧ noSpace s cls = false ∧ (takeToken s cls).isSome = true

/-- The commit that firmware queues for one segment. -/
def ownCommit (cls seg : Nat) (p : Option Payload) : Commit :=
  { by_ := .firmware, cls := cls, segs := [seg], payload := p }

/-- A fetched descriptor has been completed: it is no longer among the fetched ones of its ring (R308). -/
def Completed (s t : State) (r idx : Nat) : Prop :=
  (ringOf t r).fetched = (ringOf s r).fetched.filter fun f => decide (f.idx ≠ idx)

/-- The PKE clock runs, and a core runs a job whose operation is the one given and which passes every check (R337, R345,
R456). -/
def Runs (s : State) (c : Nat) (j : PkeJob) (op : Nat) : Prop :=
  clkRuns s.clk.pke = true ∧ jobOn s c = some j ∧ pkeOp j.desc = op ∧ j.result = notRun ∧
  validate s.pke.wrapLock j.desc j.input j.slotKey = 0

/-- Operand k of a job whose operands are numbers of the job's size. -/
def jobField (j : PkeJob) (k : Nat) : Nat := field (jobInput j) (pkeBytes (pkeSize j.desc)) k

/-- The job with its result and output left by the core. -/
def jobWith (s : State) (j : PkeJob) (result : Nat) (out : Bytes) : State :=
  setJob s { j with result := result, output := out, faulty := false }

/-- A Loam ring has a well-formed descriptor of an operation in front, and no commit of its own waits (R396, R398). -/
def LoamCmd (s : State) (r : Nat) (x : Fetched) (op : Nat) : Prop :=
  (ringOf s r).fetched.head? = some x ∧ isLoamRing r = true ∧ ringCommits s r = false ∧
  loamClean x.desc = true ∧ loamOp x.desc = op

/-- The exchange RAM is in canonical form and inside its 64 KiB (R439). -/
def XramOk (s : State) : Prop := twf (fun _ => (0 : Byte)) s.bcp.xram = true ∧ ∀ e ∈ s.bcp.xram, e.1 < 65536

/-- A state that differs from another at most in what raising events, writing completions and counting touch. -/
def Quiet (s t : State) : Prop :=
  t = { s with regs := t.regs, evt := t.evt, pmc := t.pmc, hif := t.hif, out := t.out }

/-- The command names no address outside its window: of all commands only the accesses of BAR0 and of BAR4 have one
(log entry 75). -/
def inWindow : Instr → Bool
  | .registerWrite .bar0 a _ | .dropCounterClear a | .statCounterRead .bar0 a => decide (a < 0x2000000)
  | .xramAccess o _ _ => decide (o < 65536)
  | _ => true

/-- The fused values and the commands that wait are as they were. -/
def FuseQueueKept (s t : State) : Prop := t.fuse = s.fuse ∧ t.pending = s.pending

/-- The families of commands. -/
inductive Family where
  | timebase | trigger | reference | kaolin | gnss | linePort | management | timestamp | scheduler
  | responder | gauntlet | nts | ring | pke | entropy | loam | brim | mitten | board | clock | counter
  | register | reset | message | mirror
  deriving DecidableEq, Repr

/-- The family of a command. -/
def familyOf : Instr → Family
  | .taiSecondBoundary .. | .ppsOutFall .. | .servoUpdate .. | .tbDcoLoWrite .. | .tbDcoHiWrite ..
  | .setTime .. | .stepNow .. | .restep .. | .forceInvalid .. | .tbNowRead .. | .leapApply ..
  | .tbLeapExpired .. => .timebase
  | .ttOutEnable .. | .ttOutStagedWrite .. | .ttOutUpdate .. | .ttPulseFire .. | .ttPulseEnd .. | .ttCapture .. => .trigger
  | .refFreqGate .. | .ppsEdge .. | .missingSecond .. | .refPairCompare .. | .lorternoMessage ..
  | .lorternoByteGap .. | .lorternoWindowTimeout .. | .refEsmcTimeout .. | .rspPtpAnnTimeout ..
  | .refEvaluate .. | .lorternoFramingError .. => .reference
  | .dpllAcquireLock .. | .dpllNarrowDone .. | .dplLockloss .. | .holdoverSteer .. | .hoErrUpdate ..
  | .histSample .. | .histCommitDue .. => .kaolin
  | .gnIfMeasure .. | .gnIfClockStop .. | .gnIfRestored .. | .gnFeGo .. | .gnFeTransferDone ..
  | .gnFeScriptEnd .. | .gnSearchDone .. | .gnChannelIdle .. | .gnNavUnit .. | .gnEpoch .. | .gnIstoReport ..
  | .gnPpsMessage .. | .gnRawPps .. | .gnKrootReceived .. | .gnKrootVerified .. | .gnOsnmaReport ..
  | .gnStartHot .. | .gnStartWarm .. | .gnStartCold .. | .gnSleep .. | .gnWake .. | .gnSleepRefresh ..
  | .gnRefreshDone .. | .gnRecordCommit .. | .gnPullInDone .. => .gnss
  | .frameReceived .. | .lpTxStart .. | .lpTxEnd .. | .launchInstant .. | .lpLinkUp .. | .lpLinkDown ..
  | .lpFecTryTimeout .. | .lpFecResolved .. | .lpModeWrite .. | .lpSpeedFecWrite .. | .lpPortDisable ..
  | .lpPortEnable .. | .lpFecUncorr .. | .pauseExpired .. | .lpPauseStorm .. | .lpPauseResume ..
  | .pfcRepeat .. | .lpHoldExpired .. => .linePort
  | .mgFrameReceived .. | .mgWakeStatusWrite .. | .mgLink .. | .mgPauseStorm .. | .mgTrafficInterval ..
  | .mgPauseHoldEnd .. => .management
  | .tsRegionReport .. | .tsRestored .. | .tsCalClear .. | .tsCalSumRead .. | .tsCalEntryExpire .. => .timestamp
  | .ntpBroadcastSlot .. | .ptpSyncSlot .. | .ptpAnnounceSlot .. | .ptpFollowUp .. | .grantSlot ..
  | .grantExpired .. | .ptpDelayReqSlot .. | .esmcPduSend .. => .scheduler
  | .laneAccept .. | .laneReplyDone .. | .rspRuleStage .. | .rspRuleApply .. | .rspProfileStage ..
  | .rspProfileApply .. | .pdelayRespFollowUp .. | .rspLaneFault .. | .rspLaneRetest .. | .rspLaneTestDone .. => .responder
  | .gntRekey .. | .gntKeyDrawn .. | .gntSweep .. | .gntPolicyWrite .. | .gntAmpCfgWrite ..
  | .gntSampleSecond .. => .gauntlet
  | .ntsRotationDue .. | .ntsKeyDrawn .. | .ntsKeysCommitted .. | .ntsMirrorWaitExpired ..
  | .ntsRotationRetry .. | .rotateNow .. | .authNew .. | .acceptPrev .. | .restorePeer ..
  | .ntsKeyCmdInvalid .. | .mint .. => .nts
  | .hifProdWrite .. | .hifConsWrite .. | .hifDescFetch .. | .hifRingEnable .. | .hifRingDisable ..
  | .hifRingStopped .. | .hifDmaFail .. | .msixTimer .. | .msixUnmask .. | .hifFlr .. | .hifPcieLinkDown ..
  | .hifPcieLink .. => .ring
  | .modAdd .. | .modSub .. | .modMul .. | .modInv .. | .modExp .. | .ecdsaSign .. | .ecdsaVerify ..
  | .ed25519Sign .. | .ed25519Verify .. | .x25519 .. | .rsaPriv .. | .rsaPub .. | .keyImport .. | .keyWrap ..
  | .keygen .. | .keyErase .. | .random .. | .pkeUnknownOpcode .. | .pkeDispatch .. | .pkeDrawDone ..
  | .pkeYield .. | .pkeJobDone .. | .pkeCoreRetest .. | .pkeCoreTestDone .. | .pkeAbort .. | .wrapLock ..
  | .randomWaitExpired .. => .pke
  | .entReady .. | .entSourceFail .. | .entSourceRecover .. | .entReseedDue .. | .reseedNow ..
  | .entReseedDone .. | .entBlocked .. => .entropy
  | .loamCommit .. | .loamRead .. | .fwWrite .. | .fwActivate .. | .fwCommit .. | .csigSet .. | .wipe ..
  | .loamUnknownOpcode .. | .loamFirmwareCommit .. | .loamCommitStart .. | .loamSegmentDone ..
  | .loamRewrite .. | .loamPfail .. | .pfailRelease .. | .pfailHoldoffEnd .. | .loamWearMove .. | .vbatLoss ..
  | .fwTrialMinute .. | .vbatLow .. => .loam
  | .brimEnable .. | .brimResearch .. | .brimPresence .. | .brimPresencePulseEnd .. | .brimSearchStart ..
  | .brimSearchPass .. | .brimLaneUp .. | .brimLaneDown .. | .brimExchange .. | .brimElection ..
  | .brimTokenArrive .. | .brimTokenRegen .. | .brimControlMessage .. | .brimAlignLoss .. | .brimDisable .. => .brim
  | .mitLaneUp .. | .mitLaneDown .. | .mitPairingMessage .. | .mitPairingTimeout .. | .mitHeartbeatSend ..
  | .mitInbandSend .. | .mitHeartbeatRx .. | .mitHeartbeatMissed .. | .mitInbandSilent .. | .mitLastGaspRx ..
  | .mitMirrorAck .. | .mitWitnessAlive .. | .mitWitnessExpired .. | .relinquish ..
  | .mitTakeoverNotice .. | .mitEnable .. | .mitDisable .. => .mitten
  | .spiWrite .. | .spiRead .. | .spiBadInstr .. | .i2ctWrite .. | .i2ctRead .. | .bcpMboxToBcWrite ..
  | .bcpMboxFromBcRead .. | .xramAccess .. | .bcpI2cGo .. | .bcpI2cDone .. | .bcpI2cRetry ..
  | .bcpI2cTimeout .. | .bcpDiscStuck .. | .spiHdrShort .. => .board
  | .clkXtalLost .. | .clkLoinLost .. | .clkFreqCheck .. | .unifiedReq .. | .clkReturn .. | .clkMuxRescue ..
  | .pwrIdlePark .. | .pwrScheduledWake .. | .pwrDemandWake .. | .pwrLaneWake .. | .pwrLanePark .. | .mbtRun ..
  | .mbtDone .. => .clock
  | .siltWindowEnd .. | .evtAlarmAck .. | .dropCounterClear .. | .statCounterRead .. | .pmcClear ..
  | .clearAll .. | .freeze .. | .pmcCtlWrite .. | .pmcLoRead .. | .pmcWrap .. => .counter
  | .registerWrite .. | .bar0BadAccess .. => .register
  | .fwRollback .. | .por .. | .resetPin .. | .chip .. | .warm .. | .ctrl .. | .pke .. | .ctrlWatchdog ..
  | .perst .. | .deferredResetAct .. | .supplyLoss .. | .resetNRelease .. => .reset
  | .brimMsgSend .. | .brimMsgReceive .. | .mitMsgSend .. | .mitMsgReceive .. => .message
  | .mitMirrorReceive .. => .mirror

/-- What the commands of a family leave alone: the next state is the state before, but for the parts listed. Every
other part of the state (other blocks, the exchange RAM, the fused values, the queue's rest) is unchanged. -/
def FamilyFrame (f : Family) (s t : State) : Prop :=
  match f with
  | .timebase => t = { s with regs := t.regs, evt := t.evt, pmc := t.pmc, hif := t.hif, out := t.out,
                              stat := t.stat, glb := t.glb, tb := t.tb, ttOut := t.ttOut, ref := t.ref,
                              dpl := t.dpl, lp := t.lp, mg := t.mg, rsp := t.rsp, nts := t.nts, loam := t.loam,
                              mit := t.mit }
  | .trigger => t = { s with regs := t.regs, evt := t.evt, pmc := t.pmc, hif := t.hif, out := t.out,
                             ttOut := t.ttOut, ttIn := t.ttIn }
  | .reference => t = { s with regs := t.regs, evt := t.evt, pmc := t.pmc, hif := t.hif, out := t.out,
                               glb := t.glb, tb := t.tb, ref := t.ref, dpl := t.dpl, gn := t.gn, rsp := t.rsp,
                               nts := t.nts, mit := t.mit }
  | .kaolin => t = { s with regs := t.regs, evt := t.evt, pmc := t.pmc, hif := t.hif, out := t.out, glb := t.glb,
                            tb := t.tb, ref := t.ref, dpl := t.dpl, rsp := t.rsp, nts := t.nts, loam := t.loam,
                            mit := t.mit }
  | .gnss => t = { s with regs := t.regs, evt := t.evt, pmc := t.pmc, hif := t.hif, out := t.out, glb := t.glb,
                          tb := t.tb, ref := t.ref, dpl := t.dpl, gn := t.gn, rsp := t.rsp, nts := t.nts,
                          pke := t.pke, loam := t.loam, mit := t.mit, clk := t.clk }
  | .linePort => t = { s with regs := t.regs, evt := t.evt, pmc := t.pmc, hif := t.hif, out := t.out,
                              stat := t.stat, glb := t.glb, tb := t.tb, ref := t.ref, dpl := t.dpl, lp := t.lp,
                              ts := t.ts, rsp := t.rsp, nts := t.nts, gnt := t.gnt, mit := t.mit, clk := t.clk }
  | .management => t = { s with regs := t.regs, evt := t.evt, pmc := t.pmc, hif := t.hif, out := t.out,
                                stat := t.stat, mg := t.mg, bcp := t.bcp }
  | .timestamp => t = { s with regs := t.regs, evt := t.evt, pmc := t.pmc, hif := t.hif, out := t.out, ts := t.ts }
  | .scheduler => t = { s with regs := t.regs, evt := t.evt, pmc := t.pmc, hif := t.hif, out := t.out, lp := t.lp,
                               rsp := t.rsp }
  | .responder => t = { s with regs := t.regs, evt := t.evt, pmc := t.pmc, hif := t.hif, out := t.out, lp := t.lp,
                               rsp := t.rsp, nts := t.nts, gnt := t.gnt, ent := t.ent, clk := t.clk }
  | .gauntlet => t = { s with regs := t.regs, evt := t.evt, pmc := t.pmc, hif := t.hif, out := t.out,
                              gnt := t.gnt, ent := t.ent }
  | .nts => t = { s with regs := t.regs, evt := t.evt, pmc := t.pmc, hif := t.hif, out := t.out, stat := t.stat,
                         rsp := t.rsp, nts := t.nts, ent := t.ent, loam := t.loam, mit := t.mit }
  | .ring => t = { s with regs := t.regs, evt := t.evt, pmc := t.pmc, hif := t.hif, out := t.out, stat := t.stat,
                          lp := t.lp, mg := t.mg, pke := t.pke, loam := t.loam, brim := t.brim }
  | .pke => t = { s with regs := t.regs, evt := t.evt, pmc := t.pmc, hif := t.hif, out := t.out, stat := t.stat,
                         gn := t.gn, pke := t.pke, ent := t.ent, clk := t.clk }
  | .entropy => t = { s with regs := t.regs, evt := t.evt, pmc := t.pmc, hif := t.hif, out := t.out,
                             stat := t.stat, glb := t.glb, rsp := t.rsp, nts := t.nts, pke := t.pke, ent := t.ent }
  | .loam => t = { s with regs := t.regs, evt := t.evt, pmc := t.pmc, hif := t.hif, out := t.out, stat := t.stat,
                          lp := t.lp, rsp := t.rsp, nts := t.nts, loam := t.loam, mit := t.mit }
  | .brim => t = { s with regs := t.regs, evt := t.evt, pmc := t.pmc, hif := t.hif, out := t.out, glb := t.glb,
                          tb := t.tb, ref := t.ref, dpl := t.dpl, rsp := t.rsp, nts := t.nts, brim := t.brim,
                          mit := t.mit, clk := t.clk }
  | .mitten => t = { s with regs := t.regs, evt := t.evt, pmc := t.pmc, hif := t.hif, out := t.out, glb := t.glb,
                            tb := t.tb, ref := t.ref, dpl := t.dpl, lp := t.lp, rsp := t.rsp, nts := t.nts,
                            ent := t.ent, loam := t.loam, mit := t.mit, clk := t.clk }
  | .board => t = { s with regs := t.regs, evt := t.evt, pmc := t.pmc, hif := t.hif, out := t.out, brim := t.brim,
                           bcp := t.bcp }
  | .clock => t = { s with regs := t.regs, evt := t.evt, pmc := t.pmc, hif := t.hif, out := t.out, glb := t.glb,
                           tb := t.tb, ref := t.ref, gn := t.gn, lp := t.lp, rsp := t.rsp, nts := t.nts,
                           pke := t.pke, mit := t.mit, clk := t.clk }
  | .counter => t = { s with regs := t.regs, evt := t.evt, pmc := t.pmc, hif := t.hif, out := t.out,
                             statHi := t.statHi, ts := t.ts, bcp := t.bcp }
  | .register => t = { s with regs := t.regs, evt := t.evt, pmc := t.pmc, hif := t.hif, out := t.out,
                              glb := t.glb, tb := t.tb, ttOut := t.ttOut, ref := t.ref, dpl := t.dpl, gn := t.gn,
                              lp := t.lp, mg := t.mg, rsp := t.rsp, nts := t.nts, ent := t.ent, mit := t.mit,
                              bcp := t.bcp, clk := t.clk }
  | .mirror => t = { s with regs := t.regs, evt := t.evt, pmc := t.pmc, hif := t.hif, out := t.out, glb := t.glb,
                            tb := t.tb, ttOut := t.ttOut, ref := t.ref, dpl := t.dpl, gn := t.gn, lp := t.lp,
                            mg := t.mg, rsp := t.rsp, nts := t.nts, gnt := t.gnt, ent := t.ent, loam := t.loam,
                            mit := t.mit, bcp := t.bcp, clk := t.clk }
  | .message => t = { s with regs := t.regs, evt := t.evt, pmc := t.pmc, hif := t.hif, out := t.out,
                             brim := t.brim }
  | .reset => t = { t with pending := s.pending, fuse := s.fuse }

/-- The registers that the commands of a family may write, beside the event counters. -/
def ownReg (f : Family) (a : Nat) : Bool :=
  match f with
  | .timebase => decide (0x300000 ≤ a ∧ a < 0x400000) || decide (0x600000 ≤ a ∧ a < 0x700000)
  | .trigger => decide (0x600000 ≤ a ∧ a < 0x700000)
  | .reference => decide (0x400000 ≤ a ∧ a < 0x480000)
  | .kaolin => decide (0x1100000 ≤ a ∧ a < 0x1200000)
  | .gnss => decide (0x400000 ≤ a ∧ a < 0x600000) || decide (0x1100000 ≤ a ∧ a < 0x1200000) || decide (a = 0xF00150)
  | .linePort => decide (0x800000 ≤ a ∧ a < 0x900000) || decide (0xA00000 ≤ a ∧ a < 0xE00000) || decide (a = 0xE00008)
  | .management => decide (0x900000 ≤ a ∧ a < 0xA00000) || decide (a = 0xE00008)
  | .timestamp => decide (0xA00000 ≤ a ∧ a < 0xB00000)
  | .scheduler => decide (0x800000 ≤ a ∧ a < 0x900000)
  | .responder => decide (0x800000 ≤ a ∧ a < 0x900000) || decide (0xB00000 ≤ a ∧ a < 0xE00000)
  | .gauntlet => decide (0xD00000 ≤ a ∧ a < 0xE00000)
  | .nts => decide (0xC00000 ≤ a ∧ a < 0xD00000) || decide (0x1100000 ≤ a ∧ a < 0x1200000) || decide (a = 0x130004C) ||
      decide (a = 0xE00008)
  | .ring => decide (a = 0x10) || decide (0x800000 ≤ a ∧ a < 0xA00000) || decide (0xE00000 ≤ a ∧ a < 0x1000000) ||
      decide (a = 0x100014C) || decide (0x1100000 ≤ a ∧ a < 0x1200000)
  | .pke => decide (0xF00000 ≤ a ∧ a < 0x1100000) || decide (a = 0xE00008)
  | .entropy => decide (0x1000000 ≤ a ∧ a < 0x1100000) || decide (a = 0xF00150)
  | .loam => decide (0x800000 ≤ a ∧ a < 0x900000) || decide (0x1100000 ≤ a ∧ a < 0x1200000) || decide (a = 0xE00008)
  | .brim => decide (0x1200000 ≤ a ∧ a < 0x1300000)
  | .mitten => decide (0x800000 ≤ a ∧ a < 0x900000) || decide (0xB00000 ≤ a ∧ a < 0xC00000) ||
      decide (0x1100000 ≤ a ∧ a < 0x1200000) || decide (0x1300000 ≤ a ∧ a < 0x1400000)
  | .board => decide (0x1400000 ≤ a ∧ a < 0x1500000) || decide (a = 0xE00004)
  | .clock => decide (0x100000 ≤ a ∧ a < 0x300000) || decide (0x800000 ≤ a ∧ a < 0x900000) ||
      decide (0xB00000 ≤ a ∧ a < 0xC00000) || decide (0xF00000 ≤ a ∧ a < 0x1000000)
  | .counter => isDropCounter a || decide (0x1600000 ≤ a ∧ a < 0x1700000)
  | .message => decide (a = 0x12000AC) || decide (a = 0xE00008)
  | .register => true
  | .mirror => true
  | .reset => true

/-- An address whose plain write stores its fields and is bent by no other rule: no trigger output, vector mask, ring
setting, clock control, performance counter, PFC threshold, DENY prefix or channel control. -/
def plainAddr (a : Nat) : Bool :=
  decide (a < 0x2000000 ∧ a % 4 = 0) && !ttCtlAt a && !ttWordAt a && !vecMaskAt a && !lpXonAt a && !denyCtlAt a && !chanCtlAt a &&
  decide (a ≠ 0x100000 ∧ a ≠ 0x208000) && !decide (0x160010C ≤ a ∧ a < 0x1600500 ∧ a % 16 = 12) && (ringRegAt a).isNone

/-- The gaps of BAR0 that belong to no block (R511). -/
def inGap (a : Nat) : Bool := decide (0x700000 ≤ a ∧ a < 0x800000) || decide (0x1700000 ≤ a ∧ a < 0x2000000)

end Sys2Proof.Machine
end

