-- ==== Sys2Proof/Certificates/Slice0/Obligations.lean ====
section
/-! DEFINITION. The statements for the provers, each a proposition about every state that meets its hypotheses. -/

open Sys2Proof Sys2Proof.Machine

/-! ## The queue and reset -/

/-- A step takes the command at the front of the queue and runs it with the queue's rest; on an empty queue one TBCLK
tick passes, which is the model's choice (log entry 2). -/
def Obligations.StepRunsFrontCommand : Prop :=
  (∀ (c : Instr) (cs : List Instr) (s : State), step { s with pending := c :: cs } = exec c { s with pending := cs }) ∧
  (∀ s : State, s.pending = [] → step s = .next (idleTick s))

/-- The state after reset: every stored register holds its Cold value, nothing waits, FAIL_N is low, TIME_VALID is
false, no Loam state is restored yet, and the exchange RAM is in canonical form. -/
def Obligations.ResetHoldsColdValues : Prop :=
  (∀ a, rd State.reset a = coldWord a) ∧ State.reset.pending = [] ∧ State.reset.glb.failN = true ∧
  State.reset.tb.timeValid = false ∧ State.reset.loam.restored = false ∧
  (∀ a, statGet State.reset a = 0) ∧ (∀ k, pmcOf State.reset k = PmcCnt.cold) ∧
  (∀ r, (ringOf State.reset r).st = .disabled) ∧ XramOk State.reset

/-- Every step keeps the exchange RAM in canonical form and inside its 64 KiB. -/
def Obligations.ExchangeRamStaysCanonical : Prop :=
  ∀ s t : State, XramOk s → step s = .next t → XramOk t

/-- No command of any family touches the fused values or the commands that wait behind it, and every command but an
access outside its window completes in every state. The commands of the responder's tables and lanes, of the scheduler,
of the NTS keys, of the settings of the timebase and of the clock inputs are named one by one. -/
def Obligations.FusesAndQueueKept : Prop :=
  (∀ (c : Instr) (s t : State), exec c s = .next t → FuseQueueKept s t) ∧
  (∀ (c : Instr) (s : State), inWindow c = true → ∃ t, exec c s = .next t) ∧
  (∀ (s : State) (k : Fin 16), Gives (.laneAccept k) s (FuseQueueKept s)) ∧
  (∀ (s : State) (k : Fin 16), Gives (.laneReplyDone k) s (FuseQueueKept s)) ∧
  (∀ (s : State) (k : Fin 16), Gives (.rspLaneFault k) s (FuseQueueKept s)) ∧
  (∀ (s : State) (ks : BitVec 16), Gives (.rspLaneRetest ks) s (FuseQueueKept s)) ∧
  (∀ (s : State) (k : Fin 16) (pass : Bool), Gives (.rspLaneTestDone k pass) s (FuseQueueKept s)) ∧
  (∀ (s : State) (r : Fin 256) (mask : Bool) (v : Word), Gives (.rspRuleStage r mask v) s (FuseQueueKept s)) ∧
  (∀ (s : State) (r : Fin 256) (v : Word), Gives (.rspRuleApply r v) s (FuseQueueKept s)) ∧
  (∀ (s : State) (p : Fin 64) (w : ProfWord) (v : Word), Gives (.rspProfileStage p w v) s (FuseQueueKept s)) ∧
  (∀ (s : State) (p : Fin 64) (v : Word), Gives (.rspProfileApply p v) s (FuseQueueKept s)) ∧
  (∀ (s : State) (p : Fin 64), Gives (.ntpBroadcastSlot p) s (FuseQueueKept s)) ∧
  (∀ (s : State) (p : Fin 64) (j : Fin 16), Gives (.ptpSyncSlot p j) s (FuseQueueKept s)) ∧
  (∀ (s : State) (p : Fin 64) (j : Fin 16), Gives (.ptpAnnounceSlot p j) s (FuseQueueKept s)) ∧
  (∀ (s : State) (j : Fin 16), Gives (.ptpFollowUp j) s (FuseQueueKept s)) ∧
  (∀ (s : State) (j : Fin 16), Gives (.pdelayRespFollowUp j) s (FuseQueueKept s)) ∧
  (∀ (s : State) (g : Fin 4096), Gives (.grantSlot g) s (FuseQueueKept s)) ∧
  (∀ (s : State) (g : Fin 4096), Gives (.grantExpired g) s (FuseQueueKept s)) ∧
  (∀ s : State, Gives .ptpDelayReqSlot s (FuseQueueKept s)) ∧
  (∀ s : State, Gives .esmcPduSend s (FuseQueueKept s)) ∧
  (∀ s : State, Gives .ntsRotationDue s (FuseQueueKept s)) ∧
  (∀ s : State, Gives .ntsKeyDrawn s (FuseQueueKept s)) ∧
  (∀ (s : State) (ok : Bool), Gives (.ntsKeysCommitted ok) s (FuseQueueKept s)) ∧
  (∀ s : State, Gives .ntsMirrorWaitExpired s (FuseQueueKept s)) ∧
  (∀ s : State, Gives .ntsRotationRetry s (FuseQueueKept s)) ∧
  (∀ s : State, Gives .rotateNow s (FuseQueueKept s) ∧ Gives .authNew s (FuseQueueKept s) ∧
    Gives .acceptPrev s (FuseQueueKept s)) ∧
  (∀ (s : State) (rec : MirrorRec), Gives (.restorePeer rec) s (FuseQueueKept s)) ∧
  (∀ (s : State) (code : BitVec 3), Gives (.ntsKeyCmdInvalid code) s (FuseQueueKept s)) ∧
  (∀ (s : State) (r : Fin 256) (buf : Option Bytes) (ok : Bool), Gives (.mint r buf ok) s (FuseQueueKept s)) ∧
  (∀ (s : State) (b : Bool), Gives (.setTime b) s (FuseQueueKept s) ∧ Gives (.stepNow b) s (FuseQueueKept s) ∧
    Gives (.forceInvalid b) s (FuseQueueKept s)) ∧
  (∀ s : State, Gives .clkXtalLost s (FuseQueueKept s)) ∧
  (∀ s : State, Gives .clkLoinLost s (FuseQueueKept s)) ∧
  (∀ (s : State) (lo xtal sds : Int), Gives (.clkFreqCheck lo xtal sds) s (FuseQueueKept s)) ∧
  (∀ s : State, Gives .unifiedReq s (FuseQueueKept s)) ∧
  (∀ s : State, Gives .clkReturn s (FuseQueueKept s)) ∧
  (∀ (s : State) (d : Domain), Gives (.clkMuxRescue d) s (FuseQueueKept s))

/-! ## Timebase -/

/-- The words of the oscillator control, PPS fall, RESTEP and the reading of TB_NOW. -/
def Obligations.TimebaseWordsTakeEffect : Prop :=
  (∀ s : State, exec .ppsOutFall s = .next { s with tb := { s.tb with ppsOut := false } }) ∧
  (∀ (s : State) (v : Word), tbMode s = 0 →
    exec (.tbDcoLoWrite v) s = .next { s with tb := { s.tb with dcoLo := some v } }) ∧
  (∀ (s : State) (v w : Word), tbMode s = 0 → s.tb.dcoLo = some w →
    exec (.tbDcoHiWrite v) s = .next { s with tb := { s.tb with
      dcoNext := some (signed 40 (fld v 0 8 * 2 ^ 32 + w.toNat)), dcoLo := none } }) ∧
  (∀ (s : State) (v : Word), tbMode s ≠ 0 → exec (.tbDcoLoWrite v) s = .next s ∧ exec (.tbDcoHiWrite v) s = .next s) ∧
  (∀ s : State, exec .restep s = .next { s with tb := { s.tb with stepArmed := true } }) ∧
  (∀ s : State, exec .tbNowRead s = .next { s with
    tb := { s.tb with nowLatch := s.tb.counter },
    out := .readData 0 (BitVec.ofNat 32 (nsOf s.tb.counter)) :: s.out })

/-- SET_TIME loads the counter at the next tick, STEP_NOW subtracts the latest offset; both clear TIME_VALID and count
a step; neither runs while the timebase refuses it. FORCE_INVALID holds TIME_VALID at 0, and its release lets TIME_VALID rise when
the servo already fulfils the rest. -/
def Obligations.SetTimeStepNowAndForceInvalidAct : Prop :=
  (∀ s : State, setRefusable s = false → (rd s 0x300070).toNat < 10 ^ 9 → clkRuns s.clk.tbclk = true →
    Gives (.setTime false) s fun t =>
      t.tb.counter = ofWords (rd s 0x300070).toNat (rd s 0x300074).toNat (rd s 0x300078).toNat ∧
      t.tb.stepCnt = s.tb.stepCnt + 1 ∧ t.tb.timeValid = false ∧ t.tb.good = 0) ∧
  (∀ s : State, setRefusable s = false → clkRuns s.clk.tbclk = true →
    Gives (.stepNow false) s fun t =>
      t.tb.counter = (((s.tb.counter + tickInc (paceWord s (s.tb.dcoNext.getD s.tb.dco)) : Nat) : Int)
        + -(s.tb.offset * 16) * 2 ^ 60).toNat ∧
      t.tb.stepCnt = s.tb.stepCnt + 1 ∧ t.tb.timeValid = false) ∧
  (∀ (s : State) (b : Bool), setRefusable s = true →
    exec (.setTime b) s = .next (orReg s 0x300008 0x10000) ∧ exec (.stepNow b) s = .next (orReg s 0x300008 0x10000)) ∧
  (∀ s : State, Gives (.forceInvalid true) s fun t => t.tb.timeValid = false ∧ t.tb.forceInvalid = true) ∧
  (∀ s : State, Gives (.forceInvalid false) s fun t => t.tb.forceInvalid = false) ∧
  (∀ s : State, timeReference s = true → tbMode s ≠ 2 → rf s 0x300000 8 4 ≤ s.tb.good →
    Gives (.forceInvalid false) s fun t => t.tb.timeValid = true)

/-- A TAI second starts: the anchor is taken, the PPS output rises while TIME_VALID holds, and the RTC follows; a leap
is applied at its second, and an expired leap table is noticed. -/
def Obligations.SecondsAndLeapsAreApplied : Prop :=
  (∀ s : State, clkRuns s.clk.tbclk = true →
    Gives .taiSecondBoundary s fun t =>
      t.tb.anchorNs = 0 ∧ t.tb.anchorSec = nowSec t ∧ (s.tb.timeValid = true → t.tb.ppsOut = true)) ∧
  (∀ s : State, clkRuns s.clk.tbclk = true → s.tb.anchorSec < nowSec s → s.tb.timeValid = true →
    rb s 0x1100114 0 = true →
    Gives .taiSecondBoundary s fun t => 
      t.loam.rtcBase = nowSec s * 32768 ∧ t.loam.rtcTick = t.tb.ticks ∧ t.loam.rtcValid = true) ∧
  (∀ (s : State) (a : Nat) (n : Int), nextChange s = some (a, n) → (nowSec s : Int) = applySec a (utcOfs s) n →
    (n = utcOfs s + 1 ∨ n = utcOfs s - 1) →
    Gives .leapApply s fun t =>
      rd t 0x300080 = putFld (rd s 0x300080) 0 16 (twos 16 n) ∧
      t.tb.lastLeap = some { at_ := a, old := utcOfs s, new := n } ∧ t.tb.flagLeap = none) ∧
  (∀ s : State, ((rd s 0x300084).toNat : Int) ≤ utcSec s → s.tb.leapExpired = false →
    Gives .tbLeapExpired s fun t => t.tb.leapExpired = true)

/-- A servo update takes the mean of the offsets of its source, in nanoseconds and saturating, and leaves holdover;
without a source it holds the counter. -/
def Obligations.ServoTakesTheMeanOffset : Prop :=
  (∀ (s : State) (e : Int), servoSource s < 6 → servoOffset s = some e →
    Gives .servoUpdate s fun t =>
      t.tb.offset = clampInt (-(2 ^ 31) + 1) (2 ^ 31 - 1) (roundDiv e 16) ∧ t.tb.holdover = false ∧
      t.tb.lastUpdate = s.tb.counter) ∧
  (∀ s : State, servoSource s = 7 →
    Gives .servoUpdate s fun t => t.tb.holdover = true ∧ t.tb.counter = s.tb.counter ∧ t.tb.offset = s.tb.offset)

/-! ## Triggers -/

/-- Trigger outputs start, stage, update, pulse and end a pulse, and capture inputs stamp an edge. -/
def Obligations.TriggersFireAndCapture : Prop :=
  (∀ (s : State) (n : Fin 16) (ctl : Word),
    rb s (ttOutA n) 0 = false → (ttOutOf s n).startKept = [] →
    ttBad (storeMask s (ttOutA n) 0xFE ctl) n = false →
    (nowT16 s : Int) + 32000 ≤ fireInstant (storeMask s (ttOutA n) 0xFE ctl) n
      (ttStart (storeMask s (ttOutA n) 0xFE ctl) n) →
    Gives (.ttOutEnable n ctl) s fun t =>
      (ttOutOf t n).running = true ∧ (ttOutOf t n).next = ttStart (storeMask s (ttOutA n) 0xFE ctl) n ∧
      rb t (ttOutA n) 0 = true) ∧
  (∀ (s : State) (n : Fin 16) (w : TtWord) (v : Word), rb s (ttOutA n) 0 = false →
    exec (.ttOutStagedWrite n w v) s = .next (store s (ttWordA n w) v)) ∧
  (∀ (s : State) (n : Fin 16) (w : TtWord) (v : Word), rb s (ttOutA n) 0 = true →
    Gives (.ttOutStagedWrite n w v) s fun t =>
      (ttOutOf t n).staged = ((ttOutOf s n).staged.filter fun e => decide (e.1 ≠ w)) ++ [(w, v)] ∧ t.regs = s.regs) ∧
  (∀ (s : State) (n : Fin 16), ttBad (ttApply n (ttOutOf s n).staged (ttApply n (ttOutOf s n).startKept s)) n = false →
    (ttOutOf s n).running = true →
    (∀ e ∈ (ttOutOf s n).staged, e.1 ≠ .count) →
    Gives (.ttOutUpdate n) s fun t =>
      (ttOutOf t n).staged = [] ∧ (ttOutOf t n).update = true ∧ (ttOutOf t n).running = true) ∧
  (∀ (s : State) (n : Fin 16), (ttOutOf s n).running = true → s.tb.timeValid = true →
    Gives (.ttPulseFire n) s fun t =>
      (ttOutOf t n).emitted = (ttOutOf s n).emitted + 1 ∧ (ttOutOf t n).lastFired = some (ttOutOf s n).next ∧
      (ttOutOf t n).pulse = true) ∧
  (∀ (s : State) (n : Fin 16),
    exec (.ttPulseEnd n) s = .next (setTtOut s n { ttOutOf s n with pulse := false })) ∧
  (∀ (s : State) (m : Fin 16) (rising : Bool) (sub : Fin 32), ttEdgeSelected s m rising = true →
    (∀ l, (ttInOf s m).last = some l → l + 256 ≤ s.tb.ticks * 32 + sub.val) →
    Gives (.ttCapture m rising sub) s fun t =>
      (ttInOf t m).stamp = ((nowT16 s : Int) + sub.val - rsf s (ttInA m + 4) 0 32).toNat ∧
      (ttInOf t m).count = ((ttInOf s m).count + 1) % 2 ^ 32 ∧
      (ttInOf t m).last = some (s.tb.ticks * 32 + sub.val))

/-! ## References -/

/-- Lorterno messages and their errors: from a hunting receiver the bytes of a good message wait for its edge and those
of a bad one count MSG_ERR; a gap and a framing error discard the message in progress and count MSG_ERR, but count
nothing while the receiver hunts; a message whose window closes counts MSG_WINDOW. -/
def Obligations.LorternoMessagesAreTakenOrCounted : Prop :=
  (∀ (s : State) (p : Fin 2) (m : Bytes), todUsed s p = true → (ppsOf s p).rx = [] → lorternoOk m = true →
    Gives (.lorternoMessage p m) s fun t =>
      (ppsOf t p).msgs = (ppsOf s p).msgs ++ [{ fin := nowT16 s, bytes := m }] ∧ (ppsOf t p).rx = [] ∧
      t.regs = s.regs) ∧
  (∀ (s : State) (p : Fin 2) (m : Bytes), todUsed s p = true → (ppsOf s p).rx = [] → be16 m 0 = 0x4C54 →
    m.length = 6 + byteAt m 3 → lorternoOk m = false →
    Gives (.lorternoMessage p m) s fun t =>
      (ppsOf t p).rx = [] ∧ Counted s t (refMsgErrA (candOfInput s p)) 1) ∧
  (∀ (s : State) (p : Fin 2), todUsed s p = true → 2 ≤ (ppsOf s p).rx.length →
    Gives (.lorternoByteGap p) s fun t =>
      (ppsOf t p).rx = [] ∧ Counted s t (refMsgErrA (candOfInput s p)) 1) ∧
  (∀ (s : State) (p : Fin 2), todUsed s p = true → 2 ≤ (ppsOf s p).rx.length →
    Gives (.lorternoFramingError p) s fun t =>
      (ppsOf t p).rx = [] ∧ Counted s t (refMsgErrA (candOfInput s p)) 1) ∧
  (∀ (s : State) (p : Fin 2), (ppsOf s p).rx.length < 2 →
    Gives (.lorternoByteGap p) s (fun t => (ppsOf t p).rx = [] ∧ t.regs = s.regs) ∧
    Gives (.lorternoFramingError p) s fun t => (ppsOf t p).rx = [] ∧ t.regs = s.regs) ∧
  (∀ (s : State) (p : Fin 2) (m : LorMsg) (ms : List LorMsg), (ppsOf s p).msgs = m :: ms →
    Gives (.lorternoWindowTimeout p) s fun t =>
      (ppsOf t p).msgs = ms ∧ Counted s t (refMsgWindowA (candOfInput s p)) 1)

/-- PPS edges: without an expected instant an edge is remembered, and with any edge a second before it the input
acquires; an edge within its window is accepted and the next one expected a second later, a missing one counts as a
miss, and two accepted edges of a pair agree. -/
def Obligations.PpsEdgesAreAccepted : Prop :=
  (∀ (s : State) (p : Fin 2) (sub : Fin 32), (ppsOf s p).expected = none →
    (∀ f ∈ (ppsOf s p).recent, secondApart f (nowT16 s + sub.val) = false) →
    Gives (.ppsEdge p sub) s fun t =>
      (ppsOf t p).expected = none ∧ (ppsOf t p).recent.head? = some (nowT16 s + sub.val)) ∧
  (∀ (s : State) (p : Fin 2) (sub : Fin 32), (ppsOf s p).expected = none →
    (∃ f ∈ (ppsOf s p).recent, secondApart f (nowT16 s + sub.val) = true) →
    Gives (.ppsEdge p sub) s fun t =>
      (ppsOf t p).expected = some (nowT16 s + sub.val + 16000000000) ∧ (ppsOf t p).missRun = 0) ∧
  (∀ (s : State) (p : Fin 2) (sub : Fin 32) (e : Nat), (ppsOf s p).expected = some e →
    (((nowT16 s + sub.val : Nat) : Int) - e).natAbs ≤ winOf s p →
    Gives (.ppsEdge p sub) s fun t =>
      (ppsOf t p).accepted = some (nowT16 s + sub.val) ∧
      (ppsOf t p).expected = some (nowT16 s + sub.val + 16000000000) ∧ (ppsOf t p).missRun = 0) ∧
  (∀ (s : State) (i : Fin 3), i ≠ 2 → paired s = false →
    Gives (.missingSecond i) s fun t =>
      (ppsOf t i).missRun = (ppsOf s i).missRun + 1 ∧ (ppsOf t i).accepted = none ∧
      (ppsOf t i).expected = (ppsOf s i).expected.map (· + 16000000000) ∧ Counted s t (refMissA i) 1) ∧
  (∀ (s : State) (a b : Nat), paired s = true → (ppsOf s (primary s)).accepted = some a →
    (ppsOf s (1 - primary s)).accepted = some b →
    (((b : Int) - delayOf s (1 - primary s)) - ((a : Int) - delayOf s (primary s))).natAbs ≤ rf s 0x400028 16 14 * 16 →
    Gives .refPairCompare s fun t =>
      t.ref.pairAgree = min 16 (s.ref.pairAgree + 1) ∧ (ppsOf t (primary s)).accepted = none)

/-- Frequency presence, quality levels that time out, and the measured frequencies of an evaluation. -/
def Obligations.ReferenceInputsReachTheirCandidates : Prop :=
  (∀ (s : State) (i : Fin 2) (f : Int), f.natAbs ≤ 100000 →
    Gives (.refFreqGate i (some f)) s fun t => ∀ k ∈ freqUsers s i, (candOf t k).presFreq = true) ∧
  (∀ (s : State) (k : Fin 2), Gives (.refEsmcTimeout k) s fun t => (candOf t (4 + k.val)).rxql = 15) ∧
  (∀ s : State, s.rsp.fsel = none → Gives .rspPtpAnnTimeout s fun t => (candOf t 3).rxql = 15) ∧
  (∀ (s : State) (fs : List Int),
    Gives (.refEvaluate fs) s fun t => ∀ i, i < 6 → (candOf t i).freq = fs.getD i (candOf s i).freq)

/-! ## Kaolin -/

/-- The Kaolin DPLLs lock, narrow and lose lock; holdover follows its model; HIST takes its samples and is committed. -/
def Obligations.KaolinFollowsItsStates : Prop :=
  (∀ (s : State) (d : Fin 3), (dpllOf s d).st = .acquire →
    Gives (.dpllAcquireLock d) s fun t => (dpllOf t d).st = lockState s d) ∧
  (∀ (s : State) (d : Fin 3), (dpllOf s d).st = .narrow →
    Gives (.dpllNarrowDone d) s fun t => (dpllOf t d).st = .track) ∧
  (∀ (s : State) (d : Fin 3), (dpllOf s d).st = .narrow ∨ (dpllOf s d).st = .track →
    Gives (.dplLockloss d) s fun t => ((dpllOf s d).sel, 0) ∈ (dpllOf t d).excl) ∧
  (∀ (s : State) (temp : Int) (m : HistModel), (dpllOf s 0).st = .holdover → s.dpl.model = some m →
    Gives (.holdoverSteer temp) s fun t =>
      t.dpl.temp = temp ∧ (dpllOf t 0).freq = (dpllOf s 0).fEntry
        + modelPpt (modelNum m (nowSec s) temp - modelNum m s.dpl.d0Sec s.dpl.d0Temp)) ∧
  (∀ (s : State) (temp : Int), s.ref.everSel = false →
    Gives (.hoErrUpdate temp) s fun t => t.dpl.hoErr = 0xFFFFFFFF ∧ t.dpl.temp = temp) ∧
  (∀ (s : State) (temp : Int), s.ref.everSel = true → s.tb.holdover = true →
    Gives (.hoErrUpdate temp) s fun t =>
      t.dpl.hoT = s.dpl.hoT + 1 ∧
      t.dpl.hoErr = hoEstimate s.dpl.model s.dpl.e0 (s.dpl.hoT + 1) (temp - s.dpl.tEntry).natAbs) ∧
  (∀ (s : State) (f temp : Int), (dpllOf s 0).st = .track → s.ref.tsel < 6 → eql s s.ref.tsel ≤ 3 →
    Gives (.histSample f temp) s fun t =>
      t.dpl.samples = (nowSec s, f, temp) :: s.dpl.samples.filter (fun e => decide (nowSec s < e.1 + 2592000)) ∧
      t.dpl.model.isSome = true) ∧
  (∀ (s : State) (m : HistModel), s.dpl.model = some m → CommitFits s clsHist →
    Gives .histCommitDue s fun t => t.loam.queue = s.loam.queue ++ [ownCommit clsHist 0 none])

/-! ## GNSS -/

/-- The front end: band clocks are judged, lost and restored, and the SPI sends what FE_TX holds. -/
def Obligations.GnssFrontEndTakesEffect : Prop :=
  (∀ (s : State) (b : Fin 2) (hz : Nat), bandOn s b = true →
    Gives (.gnIfMeasure b hz) s fun t => (bandOf t b).meas = hz ∧
      (200 * (bandRate s b * 1000) < ((hz : Int) - (bandRate s b * 1000 : Nat)).natAbs * 1000000 →
        (bandOf t b).lost = true)) ∧
  (∀ (s : State) (b : Fin 2), bandOn s b = true →
    Gives (.gnIfClockStop b) s fun t => (bandOf t b).lost = true) ∧
  (∀ (s : State) (b : Fin 2), bandOn s b = true → (bandOf s b).lost = true →
    Gives (.gnIfRestored b) s fun t => (bandOf t b).lost = false) ∧
  (∀ s : State, s.fuse.gnssAbsent = false → s.gn.feBusy = false → s.gn.feHeld = false → s.gn.feScript = none →
    Gives .gnFeGo s fun t => t.gn.feBusy = true ∧ t.out = .feSpi (feTx s) :: s.out) ∧
  (∀ (s : State) (rx : Bytes), s.fuse.gnssAbsent = false →
    exec (.gnFeTransferDone rx) s =
      .next { s with gn := { s.gn with feBusy := false, feRx := rx.take (rf s 0x500030 3 4) } }) ∧
  (∀ s : State, s.fuse.gnssAbsent = false → Gives .gnFeScriptEnd s fun t => t.gn.feScript = none)

/-- Channels move from search over pull-in to tracking and back to idle, a signal found outside the span of the search
changes nothing, a navigation unit is recorded, an epoch without a solution clears GN_VALID and one with enough
satellites sets it, and PPS messages and the raw PPS reach REF. -/
def Obligations.GnssChannelsAndEpochsTakeEffect : Prop :=
  (∀ (s : State) (c : Fin 128) (hz : Int), (chanOf s c).st = .search → hz.natAbs ≤ searchSpan s →
    exec (.gnSearchDone c (some hz)) s = .next (setChan s c { chanOf s c with st := .pullIn, spacing := 320 })) ∧
  (∀ (s : State) (c : Fin 128) (hz : Int), searchSpan s < hz.natAbs →
    exec (.gnSearchDone c (some hz)) s = .next s) ∧
  (∀ (s : State) (c : Fin 128), exec (.gnSearchDone c none) s = .next s) ∧
  (∀ (s : State) (c : Fin 128), (chanOf s c).st = .pullIn →
    Gives (.gnPullInDone c) s fun t => (chanOf t c).st = .track ∧ (chanOf t c).spacing = chanSpacing s c ∧
      (chanOf t c).narrow = narrowWarn s c) ∧
  (∀ (s : State) (c : Fin 128), (chanOf s c).st = .lost →
    exec (.gnChannelIdle c) s = .next (setChan s c Chan.cold)) ∧
  (∀ (s : State) (c : Fin 128) (bits : List Bool) (starts : List Nat), gnRuns s = true → rb s 0x500000 4 = true →
    0 < bits.length → bits.length ≤ 96 → recordFits s 157 = true →
    Gives (.gnNavUnit c bits starts) s fun t => (ringOf t 157).q = (ringOf s 157).q + 1) ∧
  (∀ (s : State) (sol : Solution), gnRuns s = true → s.gn.sleeping = false → sol.solved = false →
    Gives (.gnEpoch sol) s fun t => t.gn.valid = false ∧ t.gn.startUnc = sol.startUnc) ∧
  (∀ (s : State) (sol : Solution), gnRuns s = true → s.gn.sleeping = false → sol.solved = true →
    sol.assigns = [] → sol.chans = [] → sol.isto = [] →
    satsNeeded (noteUsed (manualStarts (osnmaEpoch s sol)))
      ≤ (satsUsed (noteUsed (manualStarts (osnmaEpoch s sol)))).length →
    Gives (.gnEpoch sol) s fun t =>
      t.gn.valid = true ∧ t.gn.sats = (satsUsed (noteUsed (manualStarts (osnmaEpoch s sol)))).length) ∧
  (∀ s : State, gnRuns s = true → (ringOf s 158).st = .running → (ringOf s 158).q = (ringOf s 158).c →
    64 ≤ ringSize s 158 →
    Gives .gnIstoReport s fun t => (ringOf t 158).q = (ringOf s 158).q + 4) ∧
  (∀ (s : State) (m : PpsMeas), gnRuns s = true → s.gn.valid = true → s.gn.sleeping = false →
    Gives (.gnPpsMessage m) s fun t =>
      t.gn.ppsSeq = (s.gn.ppsSeq + 1) % 2 ^ 32 ∧ t.gn.msg = (if m.late then none else some (m.taiSec, ppsQuant s m))) ∧
  (∀ (s : State) (sub : Fin 32) (sec e : Nat) (q : Int), gnRuns s = true → s.gn.valid = true →
    s.gn.sleeping = false → s.gn.msg = some (sec, q) → (ppsOf s 2).expected = some e →
    (((((nowT16 s + sub.val : Nat) : Int) + q).toNat : Int) - e).natAbs ≤ winOf s 2 →
    Gives (.gnRawPps sub) s fun t => t.gn.msg = none ∧ (ppsOf t 2).missRun = 0 ∧ (candOf t 2).presTime = true ∧
      (ppsOf t 2).accepted = some (((nowT16 s + sub.val : Nat) : Int) + q).toNat)

/-- The receiver's own states: OSNMA, starts, sleep, refresh and its record. A DSM-KROOT under the Merkle root waits for
its signature, one that is not fails; a signature that verifies gives AUTH and one that does not gives FAIL. -/
def Obligations.GnssReceiverStatesTakeEffect : Prop :=
  (∀ (s : State) (k : Kroot), gnRuns s = true → s.gn.osnma = .auth → k.p521 = true →
    Gives (.gnKrootReceived k) s fun t => t.gn.osnma = .unsupported) ∧
  (∀ (s : State) (k : Kroot), gnRuns s = true → s.gn.osnma = .auth → k.p521 = false → krootQueued s = false →
    s.gn.kept.rootKey ≠ k.root → merkleOk s k = true →
    Gives (.gnKrootReceived k) s fun t => t.gn.osnma = .krootWait ∧ t.gn.kroot = some k) ∧
  (∀ (s : State) (k : Kroot), gnRuns s = true → s.gn.osnma = .auth → k.p521 = false → krootQueued s = false →
    s.gn.kept.rootKey ≠ k.root → merkleOk s k = false →
    Gives (.gnKrootReceived k) s fun t => t.gn.osnma = .fail ∧ t.gn.osnmaCause = 3) ∧
  (∀ (s : State) (k : Kroot), gnRuns s = true → s.gn.osnma = .krootWait ∨ s.gn.osnma = .fail →
    s.gn.kroot = some k → s.gn.krootResult = some 0 →
    Gives .gnKrootVerified s fun t => t.gn.osnma = .auth ∧ t.gn.kept.rootKey = k.root) ∧
  (∀ (s : State) (k : Kroot), gnRuns s = true → s.gn.osnma = .krootWait ∨ s.gn.osnma = .fail →
    s.gn.kroot = some k → s.gn.krootResult = some 3 →
    Gives .gnKrootVerified s fun t => t.gn.osnma = .fail ∧ t.gn.osnmaCause = 3) ∧
  (∀ s : State, gnRuns s = true → recordFits s 158 = true →
    Gives .gnOsnmaReport s fun t => (ringOf t 158).q = (ringOf s 158).q + 1) ∧
  (∀ s : State, gnRuns s = true →
    Gives .gnStartHot s fun t =>
      t.gn.startType = startTypeOf (ephUsable s) (posKnown { s with gn := { s.gn with noPos := false } }) (timeKnown s) ∧ t.gn.valid = false ∧
      t.gn.startWait = true ∧ ∀ c : Fin 128, rb s (chanA c) 0 = false → (chanOf t c).st = .idle) ∧
  (∀ s : State, gnRuns s = true →
    Gives .gnStartWarm s fun t => t.gn.startType ≠ .hot ∧ t.gn.valid = false ∧
      ∀ c : Fin 128, rb s (chanA c) 0 = false → (chanOf t c).st = .idle) ∧
  (∀ s : State, gnRuns s = true →
    Gives .gnStartCold s fun t => t.gn.startType = .cold ∧ t.gn.valid = false ∧
      ∀ c : Fin 128, rb s (chanA c) 0 = false → (chanOf t c).st = .idle) ∧
  (∀ s : State, gnRuns s = true → s.gn.sleeping = false → maySleep s = true →
    Gives .gnSleep s fun t => t.gn.sleeping = true ∧ t.gn.chans = []) ∧
  (∀ s : State, gnRuns s = true → s.gn.sleeping = true → maySleep s = false →
    Gives .gnWake s fun t => t.gn.sleeping = false) ∧
  (∀ s : State, gnRuns s = true → s.gn.sleeping = true →
    Gives .gnSleepRefresh s fun t => t.gn.sleeping = false ∧ t.gn.refreshing = true) ∧
  (∀ s : State, s.gn.refreshing = true → Gives .gnRefreshDone s fun t => t.gn.refreshing = false) ∧
  (∀ s : State, s.gn.ephChanged = true → gnCommitDue s = true → s.gn.almanac = [] → CommitFits s clsGnss →
    Gives .gnRecordCommit s fun t =>
      t.gn.ephChanged = false ∧ t.loam.queue = s.loam.queue ++
        [{ by_ := .firmware, cls := clsGnss, segs := List.range (segCount clsGnss), payload := none }])

/-! ## Line ports -/

/-- A line port comes up, goes down with its fault kept, ends a hold, tries and keeps a FEC, is written while disabled,
is enabled and disabled, and counts an uncorrectable codeword. -/
def Obligations.LinePortsFollowTheirLinks : Prop :=
  (∀ (s : State) (j : Fin 16) (sp : Fin 3), portEnabled s j = true → (portOf s j).up = false →
    Gives (.lpLinkUp j sp) s fun t =>
      (portOf t j).up = true ∧ (portOf t j).everUp = true ∧ (portOf t j).holding = false ∧
      (lpSplit s (j.val / 4) = true → rf s (lpA j) 1 3 = 3 → (portOf t j).sgmii = sp.val) ∧
      ∀ i ∈ (portOf t j).queue, isSched i = false) ∧
  (∀ (s : State) (j : Fin 16) (rf : Bool), portEnabled s j = true →
    Gives (.lpLinkDown j rf) s fun t =>
      ((portOf s j).up = true → (portOf t j).up = false) ∧ (portOf t j).remoteFault = rf ∧
      (portOf t j).localFault = !rf) ∧
  (∀ (s : State) (j : Fin 16), (portOf s j).holding = true →
    Gives (.lpHoldExpired j) s fun t => (portOf t j).holding = false ∧ (portOf t j).queue = []) ∧
  (∀ (s : State) (j : Fin 16), portEnabled s j = true → rf s (lpA j) 4 2 = 0 → (portOf s j).up = false →
    backplane s j = false → (portOf s j).fecKept = false →
    Gives (.lpFecTryTimeout j) s fun t =>
      (portOf t j).fecTry = ((portOf s j).fecTry + 1) % (fecTries s j).length ∧
      (portOf t j).fecActive = (fecTries s j).getD (((portOf s j).fecTry + 1) % (fecTries s j).length) 3) ∧
  (∀ (s : State) (j : Fin 16) (fec : BitVec 2), portEnabled s j = true → rf s (lpA j) 4 2 = 0 →
    Gives (.lpFecResolved j fec) s fun t =>
      (portOf t j).fecKept = true ∧
      (backplane s j = false → (portOf t j).fecActive = (portOf s j).fecActive) ∧
      (backplane s j = true → fec.toNat ∈ fecTries s j → (portOf t j).fecActive = fec.toNat)) ∧
  (∀ (s : State) (n : Fin 4) (v : Word), portFused s (4 * n.val) = false → (∀ k, k < 4 → rb s (lpA (4 * n.val + k)) 0 = false) →
    Gives (.lpModeWrite n v) s fun t => rd t (lpBase n) = (rd s (lpBase n) &&& ~~~(3 : Word)) ||| (v &&& 3)) ∧
  (∀ (s : State) (j : Fin 16) (v : Word), portExists s j = true → rb s (lpA j) 0 = false →
    exec (.lpSpeedFecWrite j v) s = .next (storeMask s (lpA j) 0x3FFFFE v)) ∧
  (∀ (s : State) (j : Fin 16), rb s (lpA j) 0 = true → portExists s j = true → (portOf s j).queue = [] →
    syncePort s 0 ≠ j → syncePort s 1 ≠ j →
    Gives (.lpPortDisable j) s fun t =>
      rb t (lpA j) 0 = false ∧ (portOf t j).up = false ∧ (portOf t j).localFault = false) ∧
  (∀ (s : State) (j : Fin 16), rb s (lpA j) 0 = false → portExists s j = true →
    Gives (.lpPortEnable j) s fun t =>
      rb t (lpA j) 0 = true ∧ (portOf t j).localFault = true ∧ (portOf t j).fecTry = 0 ∧ (portOf t j).everUp = false) ∧
  (∀ (s : State) (j : Fin 16), portFused s j = false →
    Gives (.lpFecUncorr j) s fun t => Counted s t (lpCnt j + 0x54) 1) ∧
  (∀ (s : State) (j : Fin 16), portFused s j = true → exec (.lpFecUncorr j) s = .next s)

/-- Frames in: a frame that is too short or whose FCS is wrong is counted, a PAUSE frame pauses its port at
once or, while a frame is being sent, waits for that frame's end, and an in-band
heartbeat is counted as received where its class has room and as dropped where it has none. -/
def Obligations.LinePortsReceiveFrames : Prop :=
  (∀ (s : State) (j : Fin 16) (f : Bytes) (ago : Nat) (ok : Bool), portEnabled s j = true → (portOf s j).up = true →
    f.length < 64 →
    Gives (.frameReceived j f ago ok) s fun t => Counted s t (lpCnt j + 0x20) 1) ∧
  (∀ (s : State) (j : Fin 16) (f : Bytes) (ago : Nat) (ok : Bool), portEnabled s j = true → (portOf s j).up = true →
    64 ≤ f.length →
    f.length < 16384 → fcsGood f = false →
    Gives (.frameReceived j f ago ok) s fun t => Counted s t (lpCnt j + 0x28) 1) ∧
  (∀ (s : State) (j : Fin 16) (f : Bytes) (ago : Nat) (ok : Bool), portEnabled s j = true → (portOf s j).up = true →
    64 ≤ f.length →
    f.length < 16384 → fcsGood f = true → pauseOpcode? (f.take (f.length - 4)) = some 1 →
    rb s (lpA j) 8 = false → rb s (lpA j) 9 = true → (portOf s j).stormPort = false →
    Gives (.frameReceived j f ago ok) s fun t =>
      ((portOf s j).sending = none →
        (portOf t j).pausePort = decide (be16 (f.take (f.length - 4)) 16 ≠ 0)) ∧
      ((portOf s j).sending ≠ none →
        (portOf t j).pausePort = (portOf s j).pausePort ∧
        (portOf t j).pauseDue = (portOf s j).pauseDue ++ [(8, be16 (f.take (f.length - 4)) 16)])) ∧
  (∀ (s : State) (j : Fin 16) (f : Bytes) (ago : Nat) (ok : Bool), portEnabled s j = true → (portOf s j).up = true →
    64 ≤ f.length →
    f.length < 16384 → f.length ≤ (rd s (lpA j + 4)).toNat → fcsGood f = true →
    pauseOpcode? (f.take (f.length - 4)) = none → isInband s j (f.take (f.length - 4)) = true →
    Gives (.frameReceived j f ago ok) s fun t =>
      (rxRoom s j (hostClass s j (f.take (f.length - 4))) f.length .consumed = true →
        statGet t (lpCnt j) = statGet s (lpCnt j) + 1 ∧
        statGet t (lpCnt j + 8) = statGet s (lpCnt j + 8) + BitVec.ofNat 64 f.length) ∧
      (rxRoom s j (hostClass s j (f.take (f.length - 4))) f.length .consumed = false →
        Counted s t (lpCnt j + 0x60 + 4 * hostClass s j (f.take (f.length - 4))) 1))

/-- Frames out: a port that is free sends the frame the transmit rules pick, with its egress stamp, and releases it at
its end; pauses start, end, become a storm and resume; XOFF frames repeat while a class stays above its XON level. -/
def Obligations.LinePortsSendFrames : Prop :=
  (∀ (s : State) (j : Fin 16) (i : TxItem), portEnabled (purgeHeads s j) j = true →
    (portOf (purgeHeads s j) j).up = true → (portOf (purgeHeads s j) j).sending = none →
    pickTx (purgeHeads s j) j 0 = some i →
    Gives (.lpTxStart j) s fun t =>
      ((portOf t j).sending.map fun x => (x.src, x.stamp)) = some (i.src, stampFor (purgeHeads s j) j i) ∧
      (portOf t j).queue = (portOf (purgeHeads s j) j).queue.erase i) ∧
  (∀ (s : State) (j : Fin 16) (i : TxItem), portEnabled (purgeHeads s j) j = true →
    (portOf (purgeHeads s j) j).up = true → (portOf (purgeHeads s j) j).sending = none →
    pickTx (purgeHeads s j) j 32 = some i →
    Gives (.launchInstant j) s fun t =>
      ((portOf t j).sending.map fun x => (x.src, x.stamp)) = some (i.src, stampFor (purgeHeads s j) j i) ∧
      (portOf t j).queue = (portOf (purgeHeads s j) j).queue.erase i) ∧
  (∀ (s : State) (j : Fin 16) (i : TxItem), (portOf s j).sending = some i →
    Gives (.lpTxEnd j) s fun t =>
      (portOf t j).sending = none ∧ statGet t (lpCnt j + 0x10) = statGet s (lpCnt j + 0x10) + 1 ∧
      (i.src = .device ∨ i.src = .pause →
        t.out = .frame j (padFrame i.frame ++ fcs (padFrame i.frame)) :: s.out) ∧
      (i.src = .pause → Counted s t (lpCnt j + 0x4C) 1)) ∧
  (∀ (s : State) (j : Fin 16) (sc : PauseScope),
    exec (.pauseExpired j sc) s = .next (setPort s j (unpause (portOf s j) sc))) ∧
  (∀ (s : State) (j : Fin 16) (sc : PauseScope), rd s (lpA j + 0x0C) ≠ 0 → scopePaused (portOf s j) sc = true →
    Gives (.lpPauseStorm j sc) s fun t => portOf t j = { setStorm (unpause (portOf s j) sc) true sc with
      pauseDue := (portOf s j).pauseDue.filter fun e => decide (e.1 ≠ scopeNum sc) }) ∧
  (∀ (s : State) (j : Fin 16) (sc : PauseScope), portFused s j = false →
    Gives (.lpPauseResume j sc) s fun t => portOf t j = setStorm (portOf s j) false sc) ∧
  (∀ (s : State) (j : Fin 16) (c : Fin 8), sendsPfc s j c = true → (portOf s j).xoff.getLsbD c = true →
    (rd s (lpA j + 0x2C)).toNat * 1024 < occOf s j c →
    Gives (.pfcRepeat j c) s fun t =>
      ((portOf t j).queue.map (·.frame)) = ((portOf s j).queue.map (·.frame)) ++ [pfcFrame s j c 0xFFFF])

/-- The management port: frames counted and PAUSE obeyed, wake status cleared, link changes followed, storms and their
end, and a lowered link raised again under load. -/
def Obligations.ManagementPortTakesEffect : Prop :=
  (∀ (s : State) (f : Bytes) (ok : Bool), mgUp s = true → 64 ≤ f.length → f.length < 16384 → fcsGood f = false →
    Gives (.mgFrameReceived f ok) s fun t => Counted s t 0x901028 1) ∧
  (∀ (s : State) (f : Bytes) (ok : Bool), mgUp s = true → 64 ≤ f.length → f.length < 16384 → fcsGood f = true →
    pauseOpcode? f = some 1 → s.mg.storm = false → be16 f 16 ≠ 0 →
    Gives (.mgFrameReceived f ok) s fun t => t.mg.paused = true ∧ t.mg.queue = s.mg.queue) ∧
  (∀ (s : State) (v : Word),
    exec (.mgWakeStatusWrite v) s = .next (wr s 0x900024 (rd s 0x900024 &&& ~~~(v &&& 0xFF)))) ∧
  (∀ (s : State) (up : Bool) (sp : BitVec 2), rb s 0x900000 0 = true → ¬(s.mg.up = up ∧ s.mg.speed = sp.toNat) →
    Gives (.mgLink up sp) s fun t => t.mg.up = up ∧ t.mg.speed = sp.toNat ∧ (up = false → t.mg.queue = [])) ∧
  (∀ s : State, rd s 0x900014 ≠ 0 → mgPaused s = true →
    Gives .mgPauseStorm s fun t => t.mg.storm = true ∧ t.mg.paused = false) ∧
  (∀ s : State, Gives .mgPauseHoldEnd s fun t => t.mg.storm = false) ∧
  (∀ (s : State) (bits : Nat), rb s 0x900000 1 = false → s.mg.lowered = true → 50000000 < bits →
    Gives (.mgTrafficInterval bits true) s fun t => t.mg.lowered = false)

/-! ## Timestamp units -/

/-- Region reports are kept, a degraded unit recovers, and the calibration sum is read, cleared and expires. -/
def Obligations.TimestampUnitsTakeEffect : Prop :=
  (∀ (s : State) (ts : List Int) (vs : List Nat),
    Gives (.tsRegionReport ts vs) s fun t => t.ts.temps = ts.take 5 ∧ t.ts.volts = vs.take 5) ∧
  (∀ (s : State) (j : Fin 16), (tsPort s j).degraded = true → outOfLimits s (j.val / 4) = false →
    Gives (.tsRestored j) s fun t => (tsPort t j).degraded = false) ∧
  (∀ s : State, Gives .tsCalClear s fun t =>
    t.ts.cal = [] ∧ t.ts.calSum = 0 ∧ t.ts.calCount = 0 ∧ rd t 0xA00914 = 0) ∧
  (∀ s : State, exec .tsCalSumRead s = .next { s with
    ts := { s.ts with sumHi := BitVec.ofNat 32 (twos 64 s.ts.calSum / 2 ^ 32) },
    out := .readData 0 (BitVec.ofNat 32 (twos 64 s.ts.calSum)) :: s.out }) ∧
  (∀ (s : State) (q : BitVec 16) (e : Nat × Nat), s.ts.cal.find? (fun e => decide (e.1 = q.toNat)) = some e →
    Gives (.tsCalEntryExpire q) s fun t => t.ts.cal = s.ts.cal.erase e ∧ Counted s t 0xA00914 1)

/-! ## Responder -/

/-- Rule and profile words are staged and applied together by the write of their control word. -/
def Obligations.RulesAndProfilesAreStagedThenApplied : Prop :=
  (∀ (s : State) (r : Fin 256) (m : Bool) (v : Word),
    Gives (.rspRuleStage r m v) s fun t =>
      tget (fun _ => 0) t.rsp.ruleStage (2 * r.val + if m then 1 else 0) = v ∧ t.regs = s.regs) ∧
  (∀ (s : State) (r : Fin 256) (v : Word), Gives (.rspRuleApply r v) s fun t => rd t (ruleA r) = v) ∧
  (∀ (s : State) (r : Fin 256) (v k : Word), s.rsp.ruleStage.lookup (2 * r.val) = some k →
    Gives (.rspRuleApply r v) s fun t =>
      rd t (ruleA r + 4) = (rd s (ruleA r + 4) &&& ~~~(0xFFFF3FFF : Word)) ||| (k &&& 0xFFFF3FFF)) ∧
  (∀ (s : State) (p : Fin 64) (w : ProfWord) (v : Word),
    Gives (.rspProfileStage p w v) s fun t =>
      tget (fun _ => (0, 0)) t.rsp.profStage (8 * p.val + profOffset w / 4) = (profOffset w, v) ∧ t.regs = s.regs) ∧
  (∀ (s : State) (p : Fin 64) (v : Word), (∀ e ∈ s.rsp.profStage, e.1 / 8 ≠ p) →
    profRefused (profOf (storeMask (profStaged s p) (profA p) 0x7FFF v) p) = false →
    Gives (.rspProfileApply p v) s fun t =>
      rd t (profA p) = (rd s (profA p) &&& ~~~(0x7FFF : Word)) ||| (v &&& 0x7FFF)) ∧
  (∀ (s : State) (p : Fin 64) (w : ProfWord) (x v : Word), w ≠ .ntp →
    s.rsp.profStage = [(8 * p.val + profOffset w / 4, (profOffset w, x))] →
    profRefused (profOf (storeMask (profStaged s p) (profA p) 0x7FFF v) p) = false →
    Gives (.rspProfileApply p v) s fun t =>
      rd t (profA p + profOffset w) =
        rd (storeMask s (profA p + profOffset w) (profMask (profOffset w)) x) (profA p + profOffset w) ∧
      t.rsp.profStage = []) ∧
  (∀ (s : State) (p : Fin 64) (v : Word),
    profRefused (profOf (storeMask (profStaged s p) (profA p) 0x7FFF v) p) = true →
    Gives (.rspProfileApply p v) s fun t =>
      t.rsp = s.rsp ∧ ∀ o < 8, rd t (profA p + 4 * o) = rd s (profA p + 4 * o))

/-- Lanes take a waiting request behind those they hold, drop one that the device serves no longer, answer their oldest,
fail, are tested again and return. -/
def Obligations.ResponderLanesTakeEffect : Prop :=
  (∀ (s : State) (k : Fin 16) (r : Req), laneHealthy s k = true → laneAwake s k = true →
    (laneOf s k).jobs.length < 8 → nextReq s k = some r → fellSilent s (profOf s r.prof) r = none →
    (profOf s r.prof).proto ≠ 1 →
    Gives (.laneAccept k) s fun t =>
      (laneOf t k).jobs.map (·.req) = (laneOf s k).jobs.map (·.req) ++ [r] ∧
      t.rsp.waiting = s.rsp.waiting.erase r) ∧
  (∀ (s : State) (k : Fin 16) (r : Req) (c : Option Nat), laneHealthy s k = true → laneAwake s k = true →
    (laneOf s k).jobs.length < 8 → nextReq s k = some r → fellSilent s (profOf s r.prof) r = some c →
    Gives (.laneAccept k) s fun t =>
      (laneOf t k).jobs = (laneOf s k).jobs ∧ t.rsp.waiting = s.rsp.waiting.erase r) ∧
  (∀ (s : State) (k : Fin 16) (r : Req) (u : State) (n : NtsJob), laneHealthy s k = true → laneAwake s k = true →
    (laneOf s k).jobs.length < 8 → nextReq s k = some r → fellSilent s (profOf s r.prof) r = none →
    (profOf s r.prof).proto = 1 →
    startNts (pmcSignal { s with rsp := { s.rsp with waiting := s.rsp.waiting.erase r } } 0x200 r.j 1) r = (u, some n) →
    Gives (.laneAccept k) s fun t =>
      (laneOf t k).jobs.map (fun x => (x.req, x.nts)) =
        (laneOf s k).jobs.map (fun x => (x.req, x.nts)) ++ [(r, n)] ∧
      t.rsp.waiting = s.rsp.waiting.erase r) ∧
  (∀ (s : State) (k : Fin 16) (jb : Job) (rest : List Job), (laneOf s k).jobs = jb :: rest →
    Gives (.laneReplyDone k) s fun t => (laneOf t k).jobs = rest) ∧
  (∀ (s : State) (k : Fin 16), (laneOf s k).faulty = false →
    Gives (.rspLaneFault k) s fun t => laneOf t k = { faulty := true, testing := false, jobs := [] }) ∧
  (∀ (s : State) (m : BitVec 16) (k : Nat), k < 16 →
    Gives (.rspLaneRetest m) s fun t =>
      laneOf t k = if m.getLsbD k = true ∧ (laneOf s k).faulty = true ∧ rb s 0xB00008 k = true
        then { laneOf s k with testing := true } else laneOf s k) ∧
  (∀ (s : State) (k : Fin 16), (laneOf s k).testing = true →
    Gives (.rspLaneTestDone k true) s fun t => laneOf t k = Lane.cold) ∧
  (∀ (s : State) (k : Fin 16), (laneOf s k).testing = true →
    exec (.rspLaneTestDone k false) s = .next (setLane s k { laneOf s k with testing := false }))

/-! ## Scheduled frames -/

/-- The scheduler's slots: each sends one more frame on its port, with the next sequence number of its stream, and a
grant whose time has passed ends. -/
def Obligations.ScheduledSlotsSendFrames : Prop :=
  (∀ (s : State) (p : Fin 64) (r : Nat) (j : Fin 16),
    (profOf s p).bcast = true → s.tb.timeValid = true →
    ((List.range 256).find? fun r => flag (rd s (ruleA r)) 0 && decide (fld (rd s (ruleA r)) 1 2 = 1) &&
      decide (fld (rd s (ruleA r)) 10 6 = p)) = some r →
    flag (rd s (ruleA r)) (16 + j.val) = true → flag (ruleAddr s (j.val / 4) (fld (rd s (ruleA r)) 3 7)).2 4 = true →
    flag (ruleAddr s (j.val / 4) (fld (rd s (ruleA r)) 3 7)).2 (j.val % 4) = true → slotOpen s j = true →
    isTimeRx s j p = false →
    Gives (.ntpBroadcastSlot p) s fun t => (portOf t j).queue.length = (portOf s j).queue.length + 1) ∧
  (∀ (s : State) (p : Fin 64) (j : Fin 16), schedules s p j = true → (profOf s p).unicast = false →
    s.tb.timeValid = true →
    Gives (.ptpSyncSlot p j) s fun t =>
      seqOf t (syncStream p j) = (seqOf s (syncStream p j) + 1) % 65536 ∧
      (portOf t j).queue.length = (portOf s j).queue.length + 1) ∧
  (∀ (s : State) (p : Fin 64) (j : Fin 16), schedules s p j = true → (profOf s p).unicast = false →
    announces s p = true →
    Gives (.ptpAnnounceSlot p j) s fun t =>
      seqOf t (annStream p j) = (seqOf s (annStream p j) + 1) % 65536 ∧
      (portOf t j).queue.length = (portOf s j).queue.length + 1) ∧
  (∀ (s : State) (j : Fin 16) (p k q x : Nat), s.rsp.syncSent.find? (fun e => decide (e.1 = j.val)) = some (j.val, p, k, q, x) →
    4096 ≤ k → slotOpen s j = true → s.tb.timeValid = true →
    Gives (.ptpFollowUp j) s fun t =>
      t.rsp.syncSent = s.rsp.syncSent.erase (j.val, p, k, q, x) ∧
      (portOf t j).queue.length = (portOf s j).queue.length + 1) ∧
  (∀ (s : State) (j : Fin 16) (f : Bytes) (a b p : Nat),
    s.rsp.pdelaySent.find? (fun e => decide (e.1 = j.val)) = some (j.val, f, a, b, p) →
    portEnabled s j = true → (portOf s j).up = true →
    Gives (.pdelayRespFollowUp j) s fun t =>
      t.rsp.pdelaySent = s.rsp.pdelaySent.erase (j.val, f, a, b, p) ∧
      (portOf t j).queue.length = (portOf s j).queue.length + 1) ∧
  (∀ (s : State) (g : Fin 4096), (grantOf s g).live = true → (grantOf s g).typ = 0 → s.tb.timeValid = true →
    slotOpen s (grantOf s g).j = true → (profOf s (grantOf s g).prof).en = true →
    (profOf s (grantOf s g).prof).proto = 2 → isTimeRx s (grantOf s g).j (grantOf s g).prof = false →
    Gives (.grantSlot g) s fun t =>
      seqOf t g = (seqOf s g + 1) % 65536 ∧
      (portOf t (grantOf s g).j).queue.length = (portOf s (grantOf s g).j).queue.length + 1) ∧
  (∀ (s : State) (g : Fin 4096), (grantOf s g).expiry ≤ nowSec s →
    exec (.grantExpired g) s = .next (setGrant s g Grant.cold)) ∧
  (∀ s : State, rb s 0x400210 0 = true → portEnabled s (timeRxPort s) = true → (portOf s (timeRxPort s)).up = true →
    Gives .ptpDelayReqSlot s fun t =>
      t.rsp.rx.reqSeq = (s.rsp.rx.reqSeq + 1) % 65536 ∧ t.rsp.rx.reqT3 = none ∧
      (portOf t (timeRxPort s)).queue.length = (portOf s (timeRxPort s)).queue.length + 1) ∧
  (∀ (s : State) (j : Fin 16), portEnabled s j = true → (portOf s j).up = true →
    Gives .esmcPduSend s fun t => (portOf t j).queue.map (·.frame) = (portOf s j).queue.map (·.frame) ++ [esmcFrame s j])

/-! ## NTS -/

/-- Rotations: a due one begins, its key is drawn, and its commit, or in a pair the end of the mirror wait, makes the committed slots
the running ones; a failed commit leaves them and asks for a retry. -/
def Obligations.NtsRotationsRunTheirSteps : Prop :=
  (∀ (s : State) (k : Nat), curSlot? s = some k → s.nts.conflict = false →
    (slotOf s k).born + (rd s 0xC00010).toNat ≤ nowSec s → s.tb.timeValid = true → s.nts.phase = .idle →
    mitStandby s = false →
    Gives .ntsRotationDue s fun t => t.nts.phase = .draw ∧ t.nts.cmd = none ∧ t.nts.first = false ∧
      t.nts.slots = s.nts.slots) ∧
  (∀ s : State, s.nts.phase = .draw → entDelivering s = true → CommitFits s clsKeys →
    Gives .ntsKeyDrawn s fun t =>
      t.nts.phase = .commit ∧ t.loam.queue.length = s.loam.queue.length + 1 ∧ s.ent.drawn + 64 ≤ t.ent.drawn) ∧
  (∀ s : State, s.nts.phase = .commit → keysQueued s = false → inPair s = false ∨ fromPeer s = true → s.nts.held = [] →
    Gives (.ntsKeysCommitted true) s fun t =>
      t.nts.phase = .idle ∧ t.nts.slots = s.nts.committed ∧ t.nts.retry = false) ∧
  (∀ s : State, s.nts.phase = .commit → keysQueued s = false → inPair s = true → fromPeer s = false →
    Gives (.ntsKeysCommitted true) s fun t =>
      t.nts.phase = .mirror ∧ t.nts.slots = s.nts.slots ∧ t.nts.waitSerial = s.mit.serial ∧
      t.mit.toMirror = s.mit.toMirror ++ [{ cls := clsKeys, seg := 0, serial := s.mit.serial, late := false }] ∧
      (∀ k, s.mit.linkUp = true → s.mit.pairKey = some k →
        t.out = .mirror s.mit.serial (mirrorRecOf clsKeys 0 (.keys s.nts.committed s.loam.csig))
          (sealMirror k s.mit.serial (mirrorRecOf clsKeys 0 (.keys s.nts.committed s.loam.csig))) :: s.out) ∧
      (s.mit.linkUp = false ∨ s.mit.pairKey = none → t.out = s.out)) ∧
  (∀ s : State, s.nts.phase = .commit → keysQueued s = false → s.nts.held = [] → s.nts.cmd = none →
    Gives (.ntsKeysCommitted false) s fun t => t.nts.phase = .idle ∧ t.nts.retry = true) ∧
  (∀ (s : State) (e : MirrorOut), s.nts.phase = .mirror → s.nts.held = [] →
    s.mit.toMirror.find? (fun x => !x.late) = some e → e.serial = s.nts.waitSerial → e.cls = clsKeys →
    Gives .ntsMirrorWaitExpired s fun t =>
      t.nts.phase = .idle ∧ t.nts.stale = true ∧ t.nts.slots = s.nts.committed ∧ Counted s t 0x130004C 1) ∧
  (∀ s : State, s.nts.phase = .mirror → s.nts.held = [] → s.mit.toMirror.find? (fun x => !x.late) = none →
    Gives .ntsMirrorWaitExpired s fun t =>
      t.nts.phase = .idle ∧ t.nts.stale = true ∧ t.nts.slots = s.nts.committed) ∧
  (∀ (s : State) (e : MirrorOut), s.mit.toMirror.find? (fun x => !x.late) = some e →
    s.nts.phase ≠ .mirror ∨ e.serial ≠ s.nts.waitSerial →
    Gives .ntsMirrorWaitExpired s fun t => Counted s t 0x130004C 1 ∧ t.nts.phase = s.nts.phase) ∧
  (∀ s : State, s.nts.retry = true → s.nts.phase = .idle → mitStandby s = false →
    Gives .ntsRotationRetry s fun t => t.nts.phase = .draw ∧ t.nts.retry = false ∧ t.nts.first = s.nts.first)

/-- The key commands: ROTATE_NOW and AUTH_NEW begin a rotation, ACCEPT_PREV and RESTORE_PEER commit the slots they
accept, an unknown code is refused, and any of
them during a rotation waits for its end. -/
def Obligations.NtsKeyCommandsTakeEffect : Prop :=
  (∀ s : State, s.nts.phase = .idle → (curSlot? s).isSome = true → s.nts.conflict = false →
    Gives .rotateNow s fun t =>
      t.nts.phase = .draw ∧ t.nts.cmd = some .rotateNow ∧ t.nts.first = false ∧ t.nts.busy = true) ∧
  (∀ s : State, s.nts.phase = .idle →
    Gives .authNew s fun t => t.nts.phase = .draw ∧ t.nts.cmd = some .authNew ∧ t.nts.first = true) ∧
  (∀ (s : State) (sl : Tab KeySlot) (c : Option Bytes), s.nts.phase = .idle → s.nts.conflict = true →
    s.loam.prevKeys = some (.keys sl c) → CommitFits s clsKeys →
    Gives .acceptPrev s fun t => t.nts.phase = .commit ∧ t.loam.queue.length = s.loam.queue.length + 1) ∧
  (∀ (s : State) (rec : MirrorRec), s.nts.phase = .idle → paired2 s = true → CommitFits s clsKeys →
    Gives (.restorePeer rec) s fun t => t.nts.phase = .commit ∧ t.loam.queue.length = s.loam.queue.length + 1) ∧
  (∀ (s : State) (rec : MirrorRec), s.nts.phase ≠ .idle →
    (Gives .rotateNow s fun t => t.nts.held = s.nts.held ++ [some .rotateNow]) ∧
    (Gives .authNew s fun t => t.nts.held = s.nts.held ++ [some .authNew]) ∧
    (Gives .acceptPrev s fun t => t.nts.held = s.nts.held ++ [some .acceptPrev]) ∧
    (Gives (.restorePeer rec) s fun t => t.nts.held = s.nts.held ++ [some (.restorePeer rec)]) ∧
    (∀ k : BitVec 3, Gives (.ntsKeyCmdInvalid k) s fun t => t.nts.held = s.nts.held ++ [some .invalid])) ∧
  (∀ (s : State) (k : BitVec 3), s.nts.phase = .idle → s.nts.held = [] →
    Gives (.ntsKeyCmdInvalid k) s fun t => t.nts.result = 1 ∧ t.nts.busy = false ∧ t.nts.phase = .idle)

/-- A mint descriptor that fulfils every check gets its cookies: they are counted, and its nonces are drawn. -/
def Obligations.MintDeliversCookies : Prop :=
  ∀ (s : State) (r : Fin 256) (x : Fetched) (rest : List Fetched) (b : Bytes) (k : Nat),
    144 ≤ r.val → r.val ≤ 151 → (ringOf s r).fetched = x :: rest →
    le16 x.desc 14 = 0 → leNat (sub x.desc 20 12) = 0 → byteAt x.desc 10 = 1 → 1 ≤ byteAt x.desc 11 →
    byteAt x.desc 11 ≤ 8 → le16 x.desc 12 = 15 → 64 + 104 * byteAt x.desc 11 ≤ le16 x.desc 8 →
    s.ent.ready = true → byteAt x.desc 11 ≤ poolLevel s → curSlot? s = some k → s.nts.conflict = false →
    Gives (.mint r (some b) true) s fun t =>
      statGet t 0xC00118 = statGet s 0xC00118 + BitVec.ofNat 64 (byteAt x.desc 11) ∧
      t.ent.drawn = s.ent.drawn + 16 * byteAt x.desc 11 ∧
      ((ringOf s r).st = .running → Completed s t r x.idx)

/-! ## Gauntlet -/

/-- Gauntlet: a new key is asked for and drawn, the sweep refills every enabled policy, policies and amplification
budgets are written, and the occupancy of the last second is sampled. -/
def Obligations.GauntletTakesEffect : Prop :=
  (∀ s : State, exec .gntRekey s = .next { s with gnt := { s.gnt with rekey := true } }) ∧
  (∀ s : State, entDelivering s = true → s.gnt.rekey = true →
    Gives .gntKeyDrawn s fun t =>
      t.gnt.drbgKey = true ∧ t.gnt.rekey = false ∧ t.ent.drawn = s.ent.drawn + 16) ∧
  (∀ (s : State) (k idx : Nat), k < 64 → polEn s k = true →
    polBase s k ≤ idx → idx < polBase s k + 2 ^ polSize s k → (∃ e ∈ s.gnt.fill, e.1 ≤ idx ∧ idx < e.2.1) →
    (∀ q < 64, q ≠ k → polEn s q = true → idx < polBase s q ∨ polBase s q + 2 ^ polSize s q ≤ idx) →
    Gives .gntSweep s fun t => bucketOf t idx = refill s k (stampUnit (nowT16 s)) (bucketOf s idx)) ∧
  (∀ (s : State) (k : Fin 64) (v : Word), flag v 0 = false → fld v 1 2 ≠ 3 →
    Gives (.gntPolicyWrite k v) s fun t =>
      rd t (polA k) = (rd s (polA k) &&& ~~~(0xFFFFFCFF : Word)) ||| (v &&& 0xFFFFFCFF)) ∧
  (∀ (s : State) (k : Fin 64) (v : Word), fld v 1 2 ≠ 3 →
    flag v 0 = false ∨ regionBad (storeMask s (polA k) 0xFFFFFCFF v) k = false →
    ¬(polSize (storeMask s (polA k) 0xFFFFFCFF v) k = polSize s k ∧
      polBase (storeMask s (polA k) 0xFFFFFCFF v) k = polBase s k) →
    Gives (.gntPolicyWrite k v) s fun t =>
      polEn t k = flag v 0 ∧
      ∀ idx, polBase t k ≤ idx → idx < polBase t k + 2 ^ polSize t k →
        bucketOf t idx = (polBurst s k * 1024, stampUnit (nowT16 s))) ∧
  (∀ (s : State) (k : Fin 64) (v : Word), flag v 0 = true → fld v 1 2 ≠ 3 →
    regionBad (storeMask s (polA k) 0xFFFFFCFF v) k = true →
    Gives (.gntPolicyWrite k v) s fun t => t.gnt = s.gnt ∧ rd t (polA k) = rd s (polA k)) ∧
  (∀ (s : State) (k : Fin 64) (v : Word), flag v 0 = true → fld v 1 2 ≠ 3 →
    regionBad (storeMask s (polA k) 0xFFFFFCFF v) k = false →
    polSize (storeMask s (polA k) 0xFFFFFCFF v) k = polSize s k →
    polBase (storeMask s (polA k) 0xFFFFFCFF v) k = polBase s k →
    Gives (.gntPolicyWrite k v) s fun t => polEn t k = true ∧ t.gnt = s.gnt) ∧
  (∀ (s : State) (j : Fin 16) (v : Word),
    Gives (.gntAmpCfgWrite j v) s fun t => creditOf t j = min (creditOf s j) (ampBurst t j)) ∧
  (∀ s : State,
    Gives .gntSampleSecond s fun t => t.gnt.occ = (s.gnt.samples.filter fun e => decide (e.2.2 + 1 = nowSec s)).length)

/-! ## Host rings and MSI-X -/

/-- The ring indices and states that the host's writes and the engine's fetches move. -/
def Obligations.RingsTakeEffect : Prop :=
  (∀ (s : State) (r : Fin 256) (v : Word), fld v 16 16 = 0 → isRecordRing r = false → (ringOf s r).st = .running →
    (BitVec.ofNat 16 v.toNat - (ringOf s r).q).toNat ≤ ringSize s r - 1 →
    Gives (.hifProdWrite r v) s fun t => (ringOf t r).p = BitVec.ofNat 16 v.toNat ∧ (ringOf t r).st = .running) ∧
  (∀ (s : State) (r : Fin 256) (v : Word), fld v 16 16 = 0 → isRecordRing r = false → (ringOf s r).st = .running →
    ringSize s r - 1 < (BitVec.ofNat 16 v.toNat - (ringOf s r).q).toNat →
    Gives (.hifProdWrite r v) s fun t => (ringOf t r).st = .error ∧ (ringOf t r).cause = 2) ∧
  (∀ (s : State) (r : Fin 256) (v : Word), fld v 16 15 = 0 → (ringOf s r).st = .running →
    (BitVec.ofNat 16 v.toNat - (ringOf s r).c).toNat ≤ ((ringOf s r).q - (ringOf s r).c).toNat →
    Gives (.hifConsWrite r v) s fun t => (ringOf t r).c = BitVec.ofNat 16 v.toNat ∧ (ringOf t r).st = .running) ∧
  (∀ (s : State) (r : Fin 256) (d : Bytes) (x : Option Bytes), mayFetch s r = true →
    Gives (.hifDescFetch r d x) s fun t => (ringOf t r).f = (ringOf s r).f + 1) ∧
  (∀ (s : State) (r : Fin 256) (cfg : Word), (ringOf s r).st = .disabled →
    enableBad (storeMask s (ringA r + 0x10) 0xFFE cfg) r = false →
    Gives (.hifRingEnable r cfg) s fun t => ringOf t r = { Ring.cold with st := .running, armed := true }) ∧
  (∀ (s : State) (r : Fin 256), (ringOf s r).st = .running →
    Gives (.hifRingDisable r) s fun t => (ringOf t r).st = .stopping) ∧
  (∀ (s : State) (r : Fin 256), (ringOf s r).st = .error →
    Gives (.hifRingDisable r) s fun t => (ringOf t r).st = .disabled) ∧
  (∀ (s : State) (r : Fin 256), (ringOf s r).st = .stopping →
    isRecordRing r = true ∨ (ringOf s r).q = (ringOf s r).p →
    Gives (.hifRingStopped r) s fun t => (ringOf t r).st = .disabled) ∧
  (∀ (s : State) (r : Fin 256) (b : Bool), (ringOf s r).st = .running →
    Gives (.hifDmaFail r b) s fun t => (ringOf t r).st = .error ∧ (ringOf t r).cause = if b then 4 else 5)

/-- MSI-X vectors fire when they are due and when they are unmasked; a function reset, a lost link and a new link reach
the host interface, with request sizes inside the limits of R300; the configuration space holds the IDs of R299. -/
def Obligations.VectorsAndLinkTakeEffect : Prop :=
  (∀ (s : State) (v : Fin 64), (vecOf s v).pending = true → vecDue s v = true → vecMasked s v = false →
    Gives (.msixTimer v) s fun t => t.out = .msix v (msixTlp s v) (msixData s v) :: s.out ∧ vecOf t v = Vec.cold) ∧
  (∀ (s : State) (v : Fin 64), (vecOf s v).pending = true → vecDue s v = true → vecMasked s v = true →
    Gives (.msixTimer v) s fun t => t.out = s.out ∧ (vecOf t v).pba = true) ∧
  (∀ (s : State) (v : Fin 64), (vecOf s v).pba = true → s.hif.funcMask = false →
    Gives (.msixUnmask v) s fun t =>
      t.out = .msix v (msixTlp s v) (msixData s v) :: s.out ∧ vecOf t v = Vec.cold ∧ vecMasked t v = false) ∧
  (∀ (s : State) (v : Fin 64), (vecOf s v).pba = true → s.hif.funcMask = true →
    Gives (.msixUnmask v) s fun t =>
      t.out = s.out ∧ (vecOf t v).pba = true ∧ rb t (0xE0800C + 0x10 * v.val) 0 = false) ∧
  (∀ (s : State) (v : Fin 64), (vecOf s v).pba = false →
    Gives (.msixUnmask v) s fun t => t.out = s.out ∧ rb t (0xE0800C + 0x10 * v.val) 0 = false) ∧
  (∀ s : State, Gives .hifFlr s fun t => (∀ r, (ringOf t r).st = .disabled) ∧ flag (rd t 0x10) 9 = true) ∧
  (∀ s : State, Gives .hifPcieLinkDown s fun t => t.hif.linkUp = false ∧ t.hif.speed = 0 ∧ t.hif.width = 0) ∧
  (∀ (s : State) (sp : Fin 5) (w : PcieWidth) (c : PcieCtl),
    Gives (.hifPcieLink sp w c) s fun t =>
      t.hif.linkUp = true ∧ t.hif.speed = sp.val + 1 ∧ t.hif.width = widthNum w ∧ t.hif.mps ≤ 512 ∧ t.hif.mrrs ≤ 4096 ∧
      t.hif.tag10 = c.tag10) ∧
  (configWord 0 >>> 16 = 0x4880 ∧ configWord 2 = 0x088000B0)

/-! ## PKE -/

/-- The modular operations leave the result of their formula as the job's output. -/
def Obligations.ModularOperationsCompute : Prop :=
  (∀ (s : State) (c : Fin 12) (j : PkeJob), Runs s c j 0x01 →
    exec (.modAdd c) s = .next (jobWith s j 0 (beBytes (pkeBytes (pkeSize j.desc))
      ((jobField j 0 + jobField j 1) % jobField j 2)))) ∧
  (∀ (s : State) (c : Fin 12) (j : PkeJob), Runs s c j 0x02 →
    exec (.modSub c) s = .next (jobWith s j 0 (beBytes (pkeBytes (pkeSize j.desc))
      (subMod (jobField j 0) (jobField j 1) (jobField j 2))))) ∧
  (∀ (s : State) (c : Fin 12) (j : PkeJob), Runs s c j 0x03 →
    exec (.modMul c) s = .next (jobWith s j 0 (beBytes (pkeBytes (pkeSize j.desc))
      (jobField j 0 * jobField j 1 % jobField j 2)))) ∧
  (∀ (s : State) (c : Fin 12) (j : PkeJob) (v : Nat), Runs s c j 0x04 → modInv (jobField j 0) (jobField j 1) = some v →
    exec (.modInv c) s = .next (jobWith s j 0 (beBytes (pkeBytes (pkeSize j.desc)) v))) ∧
  (∀ (s : State) (c : Fin 12) (j : PkeJob), Runs s c j 0x04 → modInv (jobField j 0) (jobField j 1) = none →
    exec (.modInv c) s = .next (jobWith s j 4 [])) ∧
  (∀ (s : State) (c : Fin 12) (j : PkeJob), Runs s c j 0x05 →
    exec (.modExp c) s = .next (jobWith s j 0 (beBytes (pkeBytes (pkeSize j.desc))
      (powMod (jobField j 0) (jobField j 1) (jobField j 2)))))

/-- Signatures, key agreement and RSA: a signing job leaves a signature, a verification the verdict. -/
def Obligations.SignaturesAndKeyAgreementCompute : Prop :=
  (∀ (s : State) (c : Fin 12) (j : PkeJob), Runs s c j 0x10 →
    exec (.ecdsaSign c) s =
      let sig := ecdsaSig (pkeCurve (pkeSize j.desc)) (curveZ j) (beNat (operand j.desc (jobInput j)))
        (beNat (keyMaterial j.desc (jobInput j) j.slotKey))
        (scalarFrom (pkeCurve (pkeSize j.desc)) (jobRandom j 0 (pkeBytes (pkeSize j.desc) + 8)))
      .next (jobWith s j 0 (beBytes (pkeBytes (pkeSize j.desc)) sig.1 ++ beBytes (pkeBytes (pkeSize j.desc)) sig.2))) ∧
  (∀ (s : State) (c : Fin 12) (j : PkeJob), Runs s c j 0x11 →
    exec (.ecdsaVerify c) s = .next (jobWith s j
      (if ecdsaOk (pkeCurve (pkeSize j.desc)) (curveZ j) (jobField j 0) (jobField j 1) (jobField j 2) (jobField j 3)
        (jobField j 4) then 0 else 5) [])) ∧
  (∀ (s : State) (c : Fin 12) (j : PkeJob), Runs s c j 0x12 →
    exec (.ed25519Sign c) s = .next (jobWith s j 0
      (edSign (fieldZ j) (keyMaterial j.desc (jobInput j) j.slotKey) (operand j.desc (jobInput j))))) ∧
  (∀ (s : State) (c : Fin 12) (j : PkeJob), Runs s c j 0x13 →
    exec (.ed25519Verify c) s = .next (jobWith s j
      (if edVerify (fieldZ j) (sub (jobInput j) 0 32) (sub (jobInput j) 32 64) ((jobInput j).drop 96) then 0 else 5) [])) ∧
  (∀ (s : State) (c : Fin 12) (j : PkeJob), Runs s c j 0x14 →
    exec (.x25519 c) s =
      let u := x25519Fn (fieldZ j) (keyMaterial j.desc (jobInput j) j.slotKey) (operand j.desc (jobInput j))
      .next (jobWith s j (if leNat u = 0 then 0x0C else 0) u)) ∧
  (∀ (s : State) (c : Fin 12) (j : PkeJob) (m : Nat), Runs s c j 0x15 → rsaOfJob j = some m →
    exec (.rsaPriv c) s = .next (jobWith s j 0 (beBytes (pkeBytes (pkeSize j.desc)) m))) ∧
  (∀ (s : State) (c : Fin 12) (j : PkeJob), Runs s c j 0x15 → rsaOfJob j = none →
    exec (.rsaPriv c) s = .next (setJob s { j with
      result := 0x0A, output := List.replicate (pkeBytes (pkeSize j.desc)) 0, faulty := true })) ∧
  (∀ (s : State) (c : Fin 12) (j : PkeJob), Runs s c j 0x16 →
    exec (.rsaPub c) s = .next (jobWith s j 0 (beBytes (pkeBytes (pkeSize j.desc))
      (powMod (jobField j 0) (beNat ((jobInput j).drop (2 * pkeBytes (pkeSize j.desc)))) (jobField j 1)))))

/-- The key operations place, wrap, make and erase key material; an import that fails its check empties the slot. -/
def Obligations.KeyOperationsMoveKeys : Prop :=
  (∀ (s : State) (c : Fin 12) (j : PkeJob) (p : Bytes), Runs s c j 0x18 → keyUnwrap (deviceKey s) (jobInput j) = some p →
    headerOk (p.take 8) = true → plainLen (keyType p) = p.length →
    exec (.keyImport c) s = .next (jobWith (setSlotKey s (pkeSlot j.desc) p) j 0 [])) ∧
  (∀ (s : State) (c : Fin 12) (j : PkeJob), Runs s c j 0x18 → keyUnwrap (deviceKey s) (jobInput j) = none →
    Gives (.keyImport c) s fun t => slotKeyOf t (pkeSlot j.desc) = [] ∧ Counted s t 0xF0014C 1) ∧
  (∀ (s : State) (c : Fin 12) (j : PkeJob), Runs s c j 0x19 →
    exec (.keyWrap c) s = .next (jobWith s j 0 (keyWrap (deviceKey s) (jobInput j)))) ∧
  (∀ (s : State) (c : Fin 12) (j : PkeJob), Runs s c j 0x1A →
    exec (.keygen c) s =
      let g := generate j (keyType (jobInput j))
      .next (jobWith (setSlotKey s (pkeSlot j.desc) (jobInput j ++ g.1)) j 0
        (g.2 ++ keyWrap (deviceKey s) (jobInput j ++ g.1)))) ∧
  (∀ (s : State) (c : Fin 12) (j : PkeJob), Runs s c j 0x1B →
    exec (.keyErase c) s = .next (jobWith (setSlotKey s (pkeSlot j.desc) []) j 0 [])) ∧
  (∀ s : State, exec .wrapLock s = .next { s with pke := { s.pke with wrapLock := true } })

/-- Dispatch, draws, yields, the end of a job, random bytes and the refusal of an unknown operation. -/
def Obligations.PkeJobsAreRun : Prop :=
  (∀ (s : State) (c : Nat) (j : PkeJob), s.pke.held = false → s.clk.noPke = false → clkRuns s.clk.pke = true → idleCore? s = some c → nextInteractive s = some j →
    Gives .pkeDispatch s fun t =>
      t.pke.turnInt = intRings.idxOf j.ring ∧ t.pke.jobs.length = s.pke.jobs.length ∧
      ∀ x ∈ t.pke.jobs, x.ring = j.ring → x.idx = j.idx → x.stage = .running c) ∧
  (∀ (s : State) (c : Nat) (j : PkeJob), s.pke.held = false → s.clk.noPke = false → clkRuns s.clk.pke = true → idleCore? s = some c → nextInteractive s = none →
    bulkRunning s < 12 - rf s 0xF00000 4 4 → nextBulk s = some j →
    Gives .pkeDispatch s fun t => ∀ x ∈ t.pke.jobs, x.ring = j.ring → x.idx = j.idx → x.stage = .running c) ∧
  (∀ (s : State) (r : Fin 256) (j : PkeJob),
    s.pke.jobs.find? (fun j => decide (j.ring = r.val) && decide (j.stage = .draw)) = some j →
    (earlier s j).any (fun x => isKeyOp (pkeOp x.desc)) = false →
    validate s.pke.wrapLock j.desc j.input (if pkeUseSlot j.desc then slotKeyOf s (pkeSlot j.desc) else []) = 0 →
    entDelivering s = true →
    Gives (.pkeDrawDone r) s fun t =>
      t.ent.drawn = s.ent.drawn + drawLen j.desc ∧
      ∀ x ∈ t.pke.jobs, x.ring = j.ring → x.idx = j.idx → x.stage = .ready ∧ x.rand = s.ent.drawn) ∧
  (∀ (s : State) (c : Fin 12) (j : PkeJob) (n : Nat), jobOn s c = some j → isInteractive j = false →
    j.abort = false → (nextInteractive s).isSome = true → idleCore? s = none →
    exec (.pkeYield c n) s = .next (setJob s { j with stage := .ready, yielded := true, time := n })) ∧
  (∀ (s : State) (c : Fin 12) (j : PkeJob) (pe wo : Bool) (n : Nat), clkRuns s.clk.pke = true → jobOn s c = some j → j.abort = false →
    j.result ≠ notRun →
    Gives (.pkeJobDone c pe wo n) s fun t =>
      (∀ x ∈ t.pke.jobs, ¬(x.ring = j.ring ∧ x.idx = j.idx)) ∧
      statGet t (if isInteractive j then 0xF00100 else 0xF00108)
        = statGet s (if isInteractive j then 0xF00100 else 0xF00108) + 1) ∧
  (∀ (s : State) (c : Fin 12) (j : PkeJob) (wo : Bool) (n : Nat), clkRuns s.clk.pke = true → jobOn s c = some j →
    Gives (.pkeJobDone c true wo n) s fun t => (coreOf t c).faulty = true ∧ Counted s t 0xF00144 1) ∧
  (∀ (s : State) (r : Fin 256) (j : PkeJob), waitingRandom s r = some j →
    validate s.pke.wrapLock j.desc j.input [] = 0 → entDelivering s = true →
    Gives (.random r true) s fun t =>
      t.ent.drawn = s.ent.drawn + pkeOutLen j.desc ∧ ∀ x ∈ t.pke.jobs, ¬(x.ring = j.ring ∧ x.idx = j.idx)) ∧
  (∀ (s : State) (r : Fin 256) (j : PkeJob), oldestRandom s r = some j → entDelivering s = false →
    Gives (.randomWaitExpired r) s fun t =>
      Counted s t 0x100014C 1 ∧ ∀ x ∈ t.pke.jobs, ¬(x.ring = j.ring ∧ x.idx = j.idx)) ∧
  (∀ (s : State) (c : Fin 12) (j : PkeJob), jobOn s c = some j → j.result = notRun →
    sizeOk (pkeOp j.desc) (pkeSize j.desc) = false →
    exec (.pkeUnknownOpcode c) s = .next (setJob s { j with result := 1 }))

/-- Core tests touch exactly the cores named that run no job, and an abort leaves on its ring
only running jobs and key commands that have started. -/
def Obligations.CoreTestsAndAbortsAreExact : Prop :=
  (∀ (s : State) (m : BitVec 12) (k : Nat), k < 12 →
    Gives (.pkeCoreRetest m) s fun t =>
      coreOf t k = if m.getLsbD k = true ∧ (jobOn s k).isNone = true then { coreOf s k with testing := true }
        else coreOf s k) ∧
  (∀ (s : State) (c : Fin 12) (pass : Bool), (coreOf s c).testing = true →
    Gives (.pkeCoreTestDone c pass) s fun t => coreOf t c = { faulty := !pass, testing := false }) ∧
  (∀ (s : State) (r : Fin 16),
    Gives (.pkeAbort r) s fun t => ∀ x ∈ t.pke.jobs, x.ring = 128 + r.val →
      isRunning x = true ∨ (isKeyOp (pkeOp x.desc) = true ∧ hasStarted x = true))

/-! ## Entropy -/

/-- The DRBG becomes ready, its sources fail and recover, and it reseeds, serves on or blocks. -/
def Obligations.EntropyTakesEffect : Prop :=
  (∀ s : State, s.ent.started = true → s.ent.ready = false → s.ent.katFail = false → cannotReseed s = false →
    Gives .entReady s fun t => 
      t.ent.ready = true ∧ t.ent.reqs = ceilDiv (16 * (65536 - s.nts.pool)) 8192 ∧ t.nts.pool = 65536) ∧
  (∀ (s : State) (x : Fin 4) (rct apt : Bool), rct = true ∨ apt = true →
    Gives (.entSourceFail x rct apt) s fun t =>
      t.ent.failing.getLsbD x = true ∧ (rct = true → Counted s t (0x1000100 + 8 * x.val) 1) ∧
      (apt = true → Counted s t (0x1000104 + 8 * x.val) 1)) ∧
  (∀ (s : State) (x : Fin 4), Gives (.entSourceRecover x) s fun t => t.ent.failing.getLsbD x = false) ∧
  (∀ s : State, s.ent.ready = true → s.ent.reseeding = false → reseedIsDue s = true → cannotReseed s = false →
    Gives .entReseedDue s fun t => t.ent.reseeding = true) ∧
  (∀ s : State, s.ent.ready = true → s.ent.reseeding = false → reseedIsDue s = true → cannotReseed s = true →
    Gives .entReseedDue s fun t => t.ent.servingOld = true ∧ Counted s t 0x1000148 1) ∧
  (∀ s : State, reseedIsDue s = false → exec .entReseedDue s = .next s) ∧
  (∀ s : State, s.ent.ready = true → cannotReseed s = false →
    Gives .reseedNow s fun t => t.ent.reseeding = true ∧ t.ent.reseedNow = true) ∧
  (∀ s : State, s.ent.reseeding = true →
    Gives .entReseedDone s fun t =>
      t.ent.reseeding = false ∧ t.ent.blocked = false ∧ t.ent.servingOld = false ∧
      t.ent.reqs = ceilDiv (16 * (65536 - s.nts.pool)) 8192 ∧
      t.nts.pool = 65536 ∧ statGet t 0x1000140 = statGet s 0x1000140 + 1) ∧
  (∀ s : State, s.ent.servingOld = true → s.ent.blocked = false → seedTooOld s = true →
    Gives .entBlocked s fun t => t.ent.blocked = true ∧ t.ent.ready = s.ent.ready)

/-! ## Loam -/

/-- The Loam commands of the host: each takes the descriptor in front of its ring. -/
def Obligations.LoamCommandsTakeEffect : Prop :=
  (∀ (s : State) (r : Fin 256) (x : Fetched), LoamCmd s r x 0x01 →
    (loamCls x.desc = clsCfg ∨ loamCls x.desc = clsTime) → CommitFits s (loamCls x.desc) →
    Gives (.loamCommit r) s fun t => t.loam.queue = s.loam.queue ++
      [{ by_ := .host r x.idx (loamTag x.desc) 0x01, cls := loamCls x.desc,
         segs := List.range (segCount (loamCls x.desc)), payload := none }]) ∧
  (∀ (s : State) (r : Fin 256) (x : Fetched) (p : Payload) (c : Copy), LoamCmd s r x 0x02 →
    s.nts.conflict = false → recOf s (loamCls x.desc) (loamSeg x.desc) = some p →
    copyInUse s (loamCls x.desc) (loamSeg x.desc) = some c →
    (copyHeader c ++ payloadBytes c.payload).length ≤ loamLen x.desc → (ringOf s r).st = .running →
    Gives (.loamRead r true) s fun t =>
      (∃ tl, .hostWrite r x.idx tl (copyHeader c ++ payloadBytes c.payload) ∈ t.out) ∧ Completed s t r x.idx) ∧
  (∀ (s : State) (r : Fin 256) (x : Fetched) (k : Bytes), LoamCmd s r x 0x20 → s.loam.csig = none →
    loamLen x.desc = 32 → CommitFits s clsKeys →
    Gives (.csigSet r (some k)) s fun t =>
      t.loam.queue.length = s.loam.queue.length + 1 ∧
      ∃ c ∈ t.loam.queue, ∃ sl, c.cls = clsKeys ∧ c.payload = some (.keys sl (some (subPad k 0 32)))) ∧
  (∀ (s : State) (r : Fin 256) (x : Fetched), LoamCmd s r x 0x30 → CommitFits s clsKeys →
    Gives (.wipe r) s fun t => t.loam.queue = s.loam.queue ++
      [{ by_ := .host r x.idx (loamTag x.desc) 0x30, cls := clsKeys, segs := [0],
         payload := some (.keys [] s.loam.csig) }]) ∧
  (∀ (s : State) (r : Fin 256) (x : Fetched) (op : Nat), LoamCmd s r x op → loamOpcodes.contains op = false →
    (ringOf s r).st = .running →
    Gives (.loamUnknownOpcode r) s fun t => Completed s t r x.idx ∧ t.loam = s.loam)

/-- Firmware slots: images are written, activated, refused and committed, and a trial counts its minutes. -/
def Obligations.FirmwareSlotsTakeEffect : Prop :=
  (∀ (s : State) (r : Fin 256) (x : Fetched) (b : Bytes), LoamCmd s r x 0x10 → fwSlot x ≠ s.loam.runSlot →
    slotState s (fwSlot x) = .empty → loamOffset x.desc + loamLen x.desc ≤ 0x800000 →
    Gives (.fwWrite r (some b)) s fun t =>
      t.loam.flash = (writeFlash s (fwSlot x * 0x800000 + loamOffset x.desc) (subPad b 0 (loamLen x.desc))).loam.flash) ∧
  (∀ (s : State) (r : Fin 256) (x : Fetched) (im : ImageCheck), LoamCmd s r x 0x11 → s.nts.conflict = false →
    fwSlot x ≠ s.loam.runSlot → trialRunning s = false → powerFailing s = false → noSpace s clsFwmeta = false →
    (slotState s (fwSlot x) = .valid → imageAccepted s.loam.csig im = true →
      Gives (.fwActivate r im) s fun t => slotState t (fwSlot x) = .pending) ∧
    (slotState s (fwSlot x) = .empty → imageAccepted s.loam.csig im = true →
      Gives (.fwActivate r im) s fun t =>
        slotState t (fwSlot x) = if flag (descWord x.desc 3) 17 then .valid else .pending) ∧
    (slotState s (fwSlot x) = .empty ∨ slotState s (fwSlot x) = .valid → imageAccepted s.loam.csig im = false →
      Gives (.fwActivate r im) s fun t => slotState t (fwSlot x) = .rejected)) ∧
  (∀ (key : Option Bytes) (im : ImageCheck),
    imageAccepted key im = true ↔ im.vendor = true ∧ ∀ k, key = some k → im.counter = some k) ∧
  (∀ (s : State) (r : Fin 256) (x : Fetched), LoamCmd s r x 0x12 → trialRunning s = true → CommitFits s clsFwmeta →
    Gives (.fwCommit r) s fun t =>
      t.loam.queue.length = s.loam.queue.length + 1 ∧ ∃ c ∈ t.loam.queue, c.cls = clsFwmeta ∧ c.segs = [0]) ∧
  (∀ s : State, trialRunning s = true →
    Gives .fwTrialMinute s fun t => t.loam.elapsed = min 255 (s.loam.elapsed + 1)) ∧
  (∀ (s : State) (r : Fin 256) (env : StartEnv) (x : Fetched), LoamCmd s r x 0x13 → trialRunning s = true →
    s.loam.cur = none → Gives (.fwRollback r env) s fun t => t.bcp = Bcp.cold) ∧
  (∀ (s : State) (r : Fin 256) (env : StartEnv) (x : Fetched), LoamCmd s r x 0x13 → trialRunning s = true →
    s.loam.cur.isSome = true → s.glb.deferred = none →
    Gives (.fwRollback r env) s fun t =>
      t.glb.deferred = some (.warm false true) ∧ slotState t s.loam.runSlot = .rejected)

/-- Commits run segment by segment; a power failure refuses what waits and lets the HIST snapshot run; supplies end. -/
def Obligations.CommitsAndPowerFailuresTakeEffect : Prop :=
  (∀ (s : State) (c : Commit) (rest : List Commit) (k : Nat) (p : Payload) (more : List (Nat × Payload)),
    s.loam.cur = none → s.loam.queue = c :: rest → powerFailing s = false → noSpace s c.cls = false →
    csigTooLate s c = false → commitSegs { s with loam := { s.loam with queue := rest } } c = (k, p) :: more →
    Gives .loamCommitStart s fun t =>
      t.loam.queue = rest ∧ (t.loam.cur.map fun x => (x.seg, x.payload, x.rest)) = some (k, p, more)) ∧
  (∀ (s : State) (c : Commit) (k : Nat), c.payload = none → c.by_ = .firmware ∨ c.by_ = .pfail →
    commitPayload s c k = snapshot s c.cls k) ∧
  (∀ (s : State) (c : CurCommit), s.loam.cur = some c → c.rest = [] → s.loam.evicted.contains c.req.cls = false →
    Gives (.loamSegmentDone { copy1 := cleanProg, copy2 := cleanProg, copy3 := cleanProg, sysFail := none }) s fun t =>
      t.loam.cur = none ∧ statGet t 0x1100030 = statGet s 0x1100030 + 1 ∧
      ((∀ r i g, c.req.by_ ≠ .host r i g 0x30) → genUseOf t c.req.cls c.seg = c.gen) ∧
      (∀ r i g, c.req.by_ = .host r i g 0x30 → ∀ x ∈ t.loam.copies, x.cls = clsKeys ∨ x.cls = clsFwmeta ∨ 10 < x.cls ∨ x.cls = 0)) ∧
  (∀ s : State, s.loam.queue = [] → s.loam.cur = none → s.loam.restored = true → powerFailing s = false →
    s.loam.st ≠ 3 →
    Gives .loamRewrite s fun t => (t.loam.queue.map fun c => (c.cls, c.segs)) =
      (s.loam.repair.filter fun e => !(decide (e.1 = clsKeys) && s.nts.conflict)).map fun e => (e.1, [e.2])) ∧
  (∀ s : State, s.loam.pfail = false →
    Gives .loamPfail s fun t => t.loam.pfail = true ∧ ∀ c ∈ t.loam.queue, c.by_ = .pfail) ∧
  (∀ s : State, s.loam.pfail = true → Gives .pfailRelease s fun t => t.loam.pfail = false ∧ t.loam.holdoff = true) ∧
  (∀ s : State, Gives .pfailHoldoffEnd s fun t => t.loam.holdoff = false) ∧
  (∀ s : State, Gives .loamWearMove s fun t =>
    (t.loam.copies.map fun c => (c.cls, c.seg, c.copy, c.gen, c.payload)) =
      s.loam.copies.map fun c => (c.cls, c.seg, c.copy, c.gen, c.payload)) ∧
  (∀ (s : State) (sid : SegId) (b : Bytes), sid.seg.val < segCount sid.cls.val → sid.cls.val ≠ clsCfg →
    sid.cls.val ≠ clsTime → sid.cls.val ≠ clsKeys → b ≠ [] → CommitFits s sid.cls.val →
    Gives (.loamFirmwareCommit sid b) s fun t =>
      t.loam.queue = s.loam.queue ++ [ownCommit sid.cls.val sid.seg.val (some (.bytes (b.take pageRoom)))]) ∧
  (∀ s : State, s.glb.powered = false →
    Gives .vbatLoss s fun t =>
      t.loam.rtcValid = false ∧ t.loam.rtcBase = 0 ∧ t.loam.rtcLost = true ∧
      ∀ a, 0x1100200 ≤ a → a < 0x1100300 → rd t a = coldWord a) ∧
  (∀ s : State, s.glb.powered = true →
    exec .vbatLoss s = .next { s with loam := { s.loam with vbatGone := true } }) ∧
  (∀ (s : State) (low : Bool), exec (.vbatLow low) s =
    .next { s with loam := { s.loam with vbatLow := low, vbatGone := s.loam.vbatGone && low } })

/-! ## Brim -/

/-- Presence, search and enumeration of the ring on DISC. -/
def Obligations.BrimSearchTakesEffect : Prop :=
  (∀ s : State, s.brim.en = false →
    Gives .brimEnable s fun t =>
      t.brim.en = true ∧ t.brim.st = .search ∧ t.brim.discPulse = true ∧ rb t 0x1200000 0 = true ∧
      unitState t 61 = 0 ∧ unitState t 62 = 0 ∧
      t.out = .discPulse :: s.out) ∧
  (∀ s : State, Gives .brimDisable s fun t =>
    t.brim = { Brim.cold with tokenSeq := s.brim.tokenSeq } ∧ rb t 0x1200000 0 = false) ∧
  (∀ s : State, s.brim.en = true →
    exec .brimResearch s = .next { s with
      brim := { s.brim with discPulse := true, searching := false, found := [] }, out := .discPulse :: s.out }) ∧
  (∀ s : State, s.brim.en = true →
    Gives .brimPresence s fun t =>
      Counted s t 0x12000A4 1 ∧ t.brim = { s.brim with searching := false, found := [] }) ∧
  (∀ s : State, exec .brimPresencePulseEnd s = .next { s with brim := { s.brim with discPulse := false } }) ∧
  (∀ s : State, s.brim.en = true → s.brim.discPulse = false →
    Gives .brimSearchStart s fun t =>
      t.brim = { s.brim with searching := true, found := [], discStuck := false }) ∧
  (∀ (s : State) (o : DiscPulls) (e w : List (BitVec 64)) (ms : Nat), s.brim.searching = true →
    s.brim.found.contains s.fuse.brimId = false ∨ o.start = true →
    let contends := !s.brim.found.contains s.fuse.brimId
    let id := scanId s.fuse.brimId o.bits 64 contends 0
    ((contends = true ∧ id = s.fuse.brimId) ∨ o.verify = true → s.brim.found.length < 8 →
      exec (.brimSearchPass o e w ms) s = .next { s with brim := { s.brim with found := s.brim.found ++ [id] } }) ∧
    (¬(contends = true ∧ id = s.fuse.brimId) → o.verify = false →
      Gives (.brimSearchPass o e w ms) s fun t => Counted s t 0x12000A8 1 ∧ t.brim = s.brim)) ∧
  (∀ (own pulled : BitVec 64) (k : Nat), k < 64 →
    (scanId own pulled 64 false 0).getLsbD k = !pulled.getLsbD k) ∧
  (∀ own : BitVec 64, scanId own 0 64 true 0 = own) ∧
  (∀ (s : State) (o : DiscPulls) (e w : List (BitVec 64)) (ms : Nat), s.brim.searching = true →
    s.brim.found.contains s.fuse.brimId = true → o.start = false →
    let all := s.brim.found.foldl (fun l i => insertId i l) []
    let es := foundPath s.brim.upE s.fuse.brimId all e
    let ws := foundPath s.brim.upW s.fuse.brimId all w
    Gives (.brimSearchPass o e w ms) s fun t =>
      t.brim.members = all ∧ t.brim.searching = false ∧ t.brim.enumMs = ms ∧ t.brim.east = es ∧ t.brim.west = ws ∧
      (es = [] → ws = [] → t.brim.st = .alone) ∧
      (all.contains s.fuse.brimId = true → es ≠ [] → es.length + 1 = all.length → ws = es.reverse →
        t.brim.st = .ring) ∧
      (all.contains s.fuse.brimId = true → es ≠ [] ∨ ws ≠ [] →
        ¬(es ≠ [] ∧ es.length + 1 = all.length ∧ ws = es.reverse) → t.brim.st = .line))

/-- Lanes come up and go down, and each exchange gives the lane's delay and offset. -/
def Obligations.BrimLanesExchange : Prop :=
  (∀ s : State, s.brim.en = true →
    (Gives (.brimLaneUp .east) s fun t => t.brim.upE = true ∧ t.brim.discPulse = true) ∧
    (Gives (.brimLaneUp .west) s fun t => t.brim.upW = true ∧ t.brim.discPulse = true)) ∧
  (∀ s : State,
    (Gives (.brimLaneDown .east) s fun t => t.brim.upE = false ∧ t.brim.hopE = 0) ∧
    (Gives (.brimLaneDown .west) s fun t => t.brim.upW = false ∧ t.brim.hopW = 0)) ∧
  (∀ (s : State) (i : BitVec 64) (rest : List (BitVec 64)), inRing s.brim = true → s.brim.east = i :: rest →
    i ≠ s.fuse.brimId →
    Gives (.brimLaneDown .east) s fun t =>
      t.brim.east = [] ∧ t.brim.restoreDue = true ∧
      Out.brim 2 (leBytes 8 s.fuse.brimId.toNat ++ leBytes 8 i.toNat) ∈ t.out ∧
      (s.brim.west = [] → t.brim.st = .alone ∧ t.brim.leader = none) ∧
      (s.brim.west ≠ [] → t.brim.st = .line) ∧
      (∀ l, s.brim.leader = some l → myNum s ≠ some l → s.brim.members.getD l 0 ∉ s.brim.west → t.brim.fresh = false)) ∧
  (∀ (s : State) (i : BitVec 64) (rest : List (BitVec 64)), inRing s.brim = true → s.brim.west = i :: rest →
    i ≠ s.fuse.brimId →
    Gives (.brimLaneDown .west) s fun t =>
      t.brim.west = [] ∧ t.brim.restoreDue = true ∧
      Out.brim 2 (leBytes 8 i.toNat ++ leBytes 8 s.fuse.brimId.toNat) ∈ t.out ∧
      (s.brim.east = [] → t.brim.st = .alone ∧ t.brim.leader = none) ∧
      (s.brim.east ≠ [] → t.brim.st = .line) ∧
      (∀ l, s.brim.leader = some l → myNum s ≠ some l → s.brim.members.getD l 0 ∉ s.brim.east → t.brim.fresh = false)) ∧
  (∀ (s : State) (e : Exchange) (o : Option Int), s.mit.linkUp = true →
    Gives (.brimExchange .mit e o) s fun t =>
      t.mit.delay = ((e.t2 - e.t1) + (e.t4 - e.t3)) / 2 ∧
      t.mit.offset = ((e.t2 - e.t1) - (e.t4 - e.t3)) / 2 - rsf s 0x1300020 0 32) ∧
  (∀ (s : State) (e : Exchange) (o : Option Int), s.brim.upE = true →
    Gives (.brimExchange .east e o) s fun t =>
      t.brim.delayE = ((e.t2 - e.t1) + (e.t4 - e.t3)) / 2 ∧
      t.brim.hopE = ((e.t2 - e.t1) - (e.t4 - e.t3)) / 2 - rsf s 0x1200088 0 32) ∧
  (∀ (s : State) (e : Exchange) (o : Option Int), s.brim.upW = true →
    Gives (.brimExchange .west e o) s fun t =>
      t.brim.delayW = ((e.t2 - e.t1) + (e.t4 - e.t3)) / 2 ∧
      t.brim.hopW = ((e.t2 - e.t1) - (e.t4 - e.t3)) / 2 - rsf s 0x120008C 0 32) ∧
  (∀ (s : State) (e : Exchange) (o : Option Int) (l n : Nat), s.brim.upE = true → brimMember s = true →
    s.brim.leader = some l → s.brim.leadNew = false → pathTo s.brim (s.brim.members.getD l 0) = some (n, false) →
    let hop := ((e.t2 - e.t1) - (e.t4 - e.t3)) / 2 - rsf s 0x1200088 0 32
    Gives (.brimExchange .east e o) s fun t =>
      (n = 1 → t.brim.offset = -hop ∧ t.brim.fresh = true) ∧
      (n ≠ 1 → ∀ r, o = some r → t.brim.offset = r - hop ∧ t.brim.fresh = true)) ∧
  (∀ s : State, brimMember s = true → Gives .brimAlignLoss s fun t => t.brim = { s.brim with fresh := false })

/-- Election of the leader, the management token and the control messages. -/
def Obligations.BrimLeaderAndToken : Prop :=
  (∀ (s : State) (q : List (Fin 16)) (el : List Bool), inRing s.brim = true → leaderGone s = true →
    Gives (.brimElection q el) s fun t => t.brim.leader = bestMember s (electionQls s q) el) ∧
  (∀ (s : State) (q : List (Fin 16)) (el : List Bool) (w : Nat), inRing s.brim = true → leaderGone s = false →
    bestMember s (electionQls s q) el = some w → s.brim.leader ≠ some w →
    (s.brim.winner = some w → 2 ≤ s.brim.streak →
      Gives (.brimElection q el) s fun t => t.brim.leader = some w ∧ Out.brim 1 (leBytes 1 w) ∈ t.out) ∧
    (s.brim.winner = some w → s.brim.streak < 2 →
      Gives (.brimElection q el) s fun t => t.brim.leader = s.brim.leader ∧ t.brim.streak = s.brim.streak + 1) ∧
    (s.brim.winner ≠ some w →
      Gives (.brimElection q el) s fun t =>
        t.brim.leader = s.brim.leader ∧ t.brim.winner = some w ∧ t.brim.streak = 1)) ∧
  (∀ (s : State) (q : List (Fin 16)) (el : List Bool), inRing s.brim = true →
    Gives (.brimElection q el) s fun t => t.brim.eqls = electionQls s q) ∧
  (∀ (s : State) (side : BrimSide) (seq : BitVec 16) (ns : Nat), inRing s.brim = true →
    ¬(leads s = true ∧ 0 < (s.brim.tokenSeq - seq).toNat ∧ (s.brim.tokenSeq - seq).toNat < 0x8000) →
    let next := if leads s then seq + 1 else seq
    Gives (.brimTokenArrive side seq ns) s fun t =>
      t.brim.tokenSeq = next ∧ t.brim.token = true ∧ t.brim.rotNs = ns ∧
      t.out.head? = some (.brimToken (if side = .west then decide (s.brim.east ≠ []) else decide (s.brim.west = [])) next)) ∧
  (∀ (s : State) (side : BrimSide) (seq : BitVec 16) (ns : Nat) (m : BrimTx) (ms : List BrimTx), inRing s.brim = true →
    leads s = false → s.brim.txq = m :: ms →
    (∀ n ∈ s.brim.txq, ∃ x ∈ (ringOf s n.ring).fetched, x.idx = n.idx) →
    Gives (.brimTokenArrive side seq ns) s fun t =>
      Out.brimMsg m.dest m.data ∈ t.out ∧ t.brim.txq = ms ∧
      ((ringOf s m.ring).st = .running → Completed s t m.ring m.idx)) ∧
  (∀ (s : State) (side : BrimSide) (seq : BitVec 16) (ns : Nat), leads s = true →
    0 < (s.brim.tokenSeq - seq).toNat → (s.brim.tokenSeq - seq).toNat < 0x8000 →
    exec (.brimTokenArrive side seq ns) s = .next s) ∧
  (∀ s : State, leads s = true →
    Gives .brimTokenRegen s fun t =>
      t.brim.tokenSeq = s.brim.tokenSeq + 1 ∧ t.brim.token = true ∧ Counted s t 0x12000A0 1 ∧
      t.out.head? = some (.brimToken (decide (s.brim.east ≠ [])) (s.brim.tokenSeq + 1))) ∧
  (∀ (s : State) (l : Fin 8), inRing s.brim = true →
    Gives (.brimControlMessage (.leaderChange l)) s fun t => t.brim.leader = some l.val) ∧
  (∀ (s : State) (a b : BitVec 64), inRing s.brim = true →
    let e := cutPath (fun p x => decide (p = a ∧ x = b)) s.fuse.brimId s.brim.east
    let w := cutPath (fun p x => decide (x = a ∧ p = b)) s.fuse.brimId s.brim.west
    (e ≠ s.brim.east ∨ w ≠ s.brim.west →
      Gives (.brimControlMessage (.ringBreak a b)) s fun t =>
        t.brim.east = e ∧ t.brim.west = w ∧ t.brim.restoreDue = true ∧
        t.brim.st = if e = [] ∧ w = [] then .alone else .line) ∧
    (e = s.brim.east → w = s.brim.west → exec (.brimControlMessage (.ringBreak a b)) s = .next s)) ∧
  (∀ s : State, exec (.brimControlMessage .takeover) s = .next s)

/-- Host messages over the ring and the MIT lane: a message of 1 to 240 bytes waits for the token or goes out over the lane
at once; one that nobody can take completes; a message that arrives fills the next buffer of its ring, and completes it where that write fails as well. -/
def Obligations.MessagesAreSentAndTaken : Prop :=
  (∀ (s : State) (r : Fin 256) (x : Fetched) (b : Bytes),
    176 ≤ r.val → r.val ≤ 183 → r.val % 2 = 0 → nextSend s r = some x →
    (1 ≤ fld (descWord x.desc 2) 0 16 → fld (descWord x.desc 2) 0 16 ≤ 240 →
      destOk s.brim (fld (descWord x.desc 2) 16 4) = true →
      Gives (.brimMsgSend r (some b)) s fun t =>
        t.brim = { s.brim with txq := s.brim.txq ++
          [{ ring := r, idx := x.idx, dest := fld (descWord x.desc 2) 16 4,
             body := msgBody 0x61 0 (fld (descWord x.desc 2) 0 16) (descWord x.desc 5),
             data := subPad b 0 (fld (descWord x.desc 2) 0 16) }] } ∧ (ringOf t r).fetched = (ringOf s r).fetched) ∧
    (1 ≤ fld (descWord x.desc 2) 0 16 → fld (descWord x.desc 2) 0 16 ≤ 240 →
      destOk s.brim (fld (descWord x.desc 2) 16 4) = false → (ringOf s r).st = .running →
      Gives (.brimMsgSend r (some b)) s fun t => Completed s t r x.idx ∧ t.brim = s.brim) ∧
    (fld (descWord x.desc 2) 0 16 = 0 ∨ 240 < fld (descWord x.desc 2) 0 16 → (ringOf s r).st = .running →
      Gives (.brimMsgSend r (some b)) s fun t => Completed s t r x.idx ∧ t.brim = s.brim)) ∧
  (∀ (s : State) (r : Fin 256) (x : Fetched) (rest : List Fetched) (b : Bytes),
    184 ≤ r.val → r.val ≤ 191 → r.val % 2 = 0 → (ringOf s r).st = .running → (ringOf s r).fetched = x :: rest →
    1 ≤ fld (descWord x.desc 2) 0 16 → fld (descWord x.desc 2) 0 16 ≤ 240 → s.mit.en = true → s.mit.linkUp = true →
    Gives (.mitMsgSend r (some b)) s fun t =>
      Out.brim 4 (subPad b 0 (fld (descWord x.desc 2) 0 16)) ∈ t.out ∧ Completed s t r x.idx) ∧
  (∀ (s : State) (r : Fin 256) (x : Fetched) (rest : List Fetched) (src : Fin 8) (b : Bytes),
    176 ≤ r.val → r.val ≤ 183 → r.val % 2 = 1 → (ringOf s r).st = .running → (ringOf s r).fetched = x :: rest →
    (Gives (.brimMsgReceive r src b true) s fun t =>
      (∃ tl, Out.hostWrite r x.idx tl (b.take 256) ∈ t.out) ∧ Completed s t r x.idx) ∧
    (Gives (.brimMsgReceive r src b false) s fun t => Completed s t r x.idx)) ∧
  (∀ (s : State) (r : Fin 256) (x : Fetched) (rest : List Fetched) (b : Bytes),
    184 ≤ r.val → r.val ≤ 191 → r.val % 2 = 1 → (ringOf s r).st = .running → (ringOf s r).fetched = x :: rest →
    (Gives (.mitMsgReceive r b true) s fun t =>
      (∃ tl, Out.hostWrite r x.idx tl (b.take 256) ∈ t.out) ∧ Completed s t r x.idx) ∧
    (Gives (.mitMsgReceive r b false) s fun t => Completed s t r x.idx)) ∧
  (∀ (s : State) (r : Fin 256) (b : Bytes) (ok : Bool), 184 ≤ r.val → r.val ≤ 191 → r.val % 2 = 1 → (ringOf s r).fetched = [] →
    Gives (.mitMsgReceive r b ok) s fun t => Counted s t 0x12000AC 1 ∧ t.hif = s.hif)

/-! ## Mitten -/

/-- Enabling, lanes and pairing of the Mitten pair. -/
def Obligations.MittenPairs : Prop :=
  (∀ s : State, s.mit.en = false →
    Gives .mitEnable s fun t => t.mit = { s.mit with en := true } ∧ rb t 0x1300000 0 = true ∧ unitState t 63 = 0) ∧
  (∀ s : State, Gives .mitDisable s fun t =>
    t.mit.st = .solo ∧ t.mit.en = false ∧ t.mit.linkUp = false ∧ t.mit.pairKey = none) ∧
  (∀ s : State, s.mit.en = true → s.mit.linkUp = false → Gives .mitLaneUp s fun t => t.mit.linkUp = true) ∧
  (∀ s : State, mitWanted s = true → s.mit.linkUp = false →
    let k := (List.range 32).map fun i => Config.drbgByte (s.ent.drawn + i)
    let pub := x25519Fn 1 k (leBytes 32 9)
    Gives .mitLaneUp s fun t =>
      t.mit.eph = k ∧ t.ent.drawn = s.ent.drawn + 32 ∧
      Out.pairing (rd s 0x1300008) (decide (s.mit.st = .active ∨ s.mit.st = .activeAlone)) (mitServes s) s.mit.since
        (rb s 0x1300000 1) s.fuse.brimId pub (edSign 1 (beBytes 32 s.fuse.identityKey.toNat) pub) ∈ t.out) ∧
  (∀ s : State, Gives .mitLaneDown s fun t => t.mit.linkUp = false) ∧
  (∀ s : State, s.mit.linkUp = true → s.mit.inbandUp = false →
    (s.mit.st = .active → Gives .mitLaneDown s fun t => t.mit.st = .activeAlone) ∧
    (s.mit.st = .ready ∨ s.mit.st = .standby → witnessed s = true →
      Gives .mitLaneDown s fun t => t.mit.st = .isolated) ∧
    (s.mit.st = .standby → witnessed s = false →
      Gives .mitLaneDown s fun t => t.mit.st = .standby) ∧
    (s.mit.st = .ready → witnessed s = false →
      Gives .mitLaneDown s fun t => t.mit.st = .activeAlone ∧ t.mit.lastTakeover = nowSec s)) ∧
  (∀ (s : State) (m : PairMsg), mitWanted s = true → s.mit.linkUp = true →
    m.pairId ≠ rd s 0x1300008 ∨ m.signed = false →
    Gives (.mitPairingMessage m) s fun t => t.mit = s.mit) ∧
  (∀ (s : State) (m : PairMsg), mitWanted s = true → s.mit.linkUp = true → m.pairId = rd s 0x1300008 →
    m.signed = true →
    (Gives (.mitPairingMessage m) s fun t =>
      t.mit.peerId = m.brimId ∧ t.mit.paired = true ∧
      t.mit.pairKey = some (x25519Fn 1 s.mit.eph (subPad m.pub 0 32))) ∧
    (mitActive s = false → mitServes s = true → m.active = false → m.serving = false →
      Gives (.mitPairingMessage m) s fun t => t.mit.st = .active) ∧
    (s.mit.st = .pairing → mitServes s = false → m.serving = true →
      Gives (.mitPairingMessage m) s fun t => t.mit.st = .standby) ∧
    (mitActive s = true → m.active = false →
      Gives (.mitPairingMessage m) s fun t => t.mit.st = .active) ∧
    (mitActive s = false → mitStandby s = false → m.active = true →
      Gives (.mitPairingMessage m) s fun t => t.mit.st = .standby) ∧
    (mitActive s = true → m.active = true → s.mit.since < m.since →
      Gives (.mitPairingMessage m) s fun t => t.mit.st = .active) ∧
    (mitActive s = true → m.active = true → m.since < s.mit.since →
      Gives (.mitPairingMessage m) s fun t => t.mit.st = .standby) ∧
    (s.mit.st = .pairing → mitServes s = m.serving → m.active = false → rb s 0x1300000 1 ≠ m.preferActive →
      Gives (.mitPairingMessage m) s fun t =>
        t.mit.st = if rb s 0x1300000 1 then .active else .standby)) ∧
  (∀ s : State, s.mit.st = .pairing ∨ (s.mit.st = .solo ∧ mitWanted s = true) →
    Gives .mitPairingTimeout s fun t => t.mit.st = .activeAlone)

/-- Heartbeats sent, received and missed, the last gasp, the takeover and the witness. -/
def Obligations.MittenWatchesItsPeer : Prop :=
  (∀ s : State, s.mit.en = true → s.mit.linkUp = true →
    exec .mitHeartbeatSend s = .next { s with out := .mitten 1 :: s.out }) ∧
  (∀ s : State, s.mit.en = true → rb s 0x1300014 0 = true → portEnabled s (rf s 0x1300014 1 4) = true →
    (portOf s (rf s 0x1300014 1 4)).up = true →
    Gives .mitInbandSend s fun t =>
      ((portOf t (rf s 0x1300014 1 4)).queue.map fun i => (i.cls, i.frame)) =
        ((portOf s (rf s 0x1300014 1 4)).queue.map fun i => (i.cls, i.frame)) ++ [(0, inbandFrame s 1)]) ∧
  (∀ (s : State) (sv : Bool) (n : Nat), s.mit.en = true →
    Gives (.mitHeartbeatRx true sv n) s fun t => t.mit.inbandUp = true) ∧
  (∀ (s : State) (ib : Bool) (n : Nat), mitWanted s = true → mitServes s = true → n < s.mit.since →
    Gives (.mitHeartbeatRx ib true n) s fun t => t.mit.st = .standby) ∧
  (∀ (s : State) (ib : Bool) (n : Nat), mitWanted s = true → mitServes s = true → s.mit.since < n →
    Gives (.mitHeartbeatRx ib true n) s fun t => t.mit.st = s.mit.st) ∧
  (∀ (s : State) (sv : Bool) (n : Nat), s.mit.en = true → s.mit.st = .ready ∨ s.mit.st = .standby →
    s.mit.linkUp = false → Gives (.mitHeartbeatRx true sv n) s fun t => t.mit.st = .isolated) ∧
  (∀ s : State, s.mit.en = true → s.mit.linkUp = true →
    Gives .mitHeartbeatMissed s fun t =>
      Counted s t 0x1300040 3 ∧ (s.mit.st = .active ∨ s.mit.st = .ready → t.mit.st = .activeAlone)) ∧
  (∀ s : State, s.mit.en = true →
    Gives .mitInbandSilent s fun t => Counted s t 0x1300044 4 ∧ t.mit.inbandUp = false) ∧
  (∀ s : State, s.mit.en = true → s.mit.st = .ready →
    Gives .mitLastGaspRx s fun t =>
      t.mit.st = (if s.mit.linkUp then .active else .activeAlone) ∧ t.mit.lastTakeover = nowSec s) ∧
  (∀ s : State, exec .mitWitnessAlive s = .next { s with mit := { s.mit with witness := true } }) ∧
  (∀ s : State, s.mit.witness = true →
    Gives .mitWitnessExpired s fun t =>
      t.mit.witness = false ∧
      (s.mit.st = .isolated → s.mit.linkUp = false → s.mit.inbandUp = false → t.mit.st = .activeAlone)) ∧
  (∀ s : State, s.mit.st = .active →
    Gives .relinquish s fun t =>
      t.mit.relinquish = true ∧ t.mit.st = .active ∧ (s.mit.en = true → s.mit.linkUp = true → Out.mitten 2 ∈ t.out)) ∧
  (∀ s : State, s.mit.relinquish = true → Gives .mitTakeoverNotice s fun t => t.mit.st = .standby)

/-- A standby commits sealed mirrored records under its own generations, runs their keys from that commit on and
acknowledges them; it never takes the fields of its own; an acknowledgement takes its record off the list, ends a stale
mirror where it is that of the current KEYS, and lets the rotation that waits for it switch. -/
def Obligations.MittenMirrors : Prop :=
  (∀ (s : State) (rec : MirrorRec) (n : Nat) (tag : Bytes), s.mit.linkUp = true → mitServes s = false →
    mirrorSealed s rec n tag = true → rec.cls.val = clsKeys → rec.seg.val = 0 →
    powerFailing s = false → noSpace s clsKeys = false →
    Gives (.mitMirrorReceive rec n tag) s fun t =>
      t.loam.queue = s.loam.queue ++ [{ by_ := .mirror n, cls := clsKeys, segs := [0],
                                        payload := some (.keys (mirrorSlots rec) rec.csig) }] ∧
      t.nts.slots = s.nts.slots ∧ t.nts.conflict = s.nts.conflict) ∧
  (∀ (s : State) (rec : MirrorRec) (n : Nat) (tag : Bytes), s.mit.linkUp = true → mitServes s = false →
    mirrorSealed s rec n tag = true → rec.cls.val = clsKeys → rec.seg.val = 0 →
    powerFailing s = true ∨ noSpace s clsKeys = true →
    Gives (.mitMirrorReceive rec n tag) s fun t =>
      t.loam.queue = s.loam.queue ∧ t.nts.stale = true ∧ t.nts.conflict = s.nts.conflict) ∧
  (∀ (s : State) (rec : MirrorRec) (n : Nat) (tag : Bytes),
    s.mit.linkUp = false ∨ mitServes s = true ∨ mirrorSealed s rec n tag = false →
    exec (.mitMirrorReceive rec n tag) s = .next s) ∧
  (∀ (s : State) (rec : MirrorRec) (n : Nat) (tag : Bytes),
    Gives (.mitMirrorReceive rec n tag) s fun t =>
      ∀ a, ownField a = true → ¬(0x600000 ≤ a ∧ a < 0x600400) → a < 0x1300000 → rd t a = rd s a) ∧
  (∀ (s : State) (seg a : Nat) (ws : List (Nat × Word)), ownField a = true → rd (applyCfg s seg ws) a = rd s a) ∧
  (∀ (s : State) (seg a : Nat), ownField a = false → loamMask a ≠ 0 → segOfReg a = segKey clsCfg seg →
    rd (applyCfg s seg []) a &&& loamMask a = coldWord a &&& loamMask a) ∧
  (∀ (s : State) (c : CurCommit) (n : Nat) (sl : Tab KeySlot) (k : Option Bytes), s.loam.cur = some c → c.rest = [] →
    s.loam.evicted.contains c.req.cls = false → c.req.by_ = .mirror n → c.req.payload = some (.keys sl k) →
    c.req.segs = [0] →
    Gives (.loamSegmentDone { copy1 := cleanProg, copy2 := cleanProg, copy3 := cleanProg, sysFail := none }) s fun t =>
      t.nts.slots = sl ∧ t.loam.csig = s.loam.csig.or k ∧ Out.mirrorAck c.req.cls 0 n ∈ t.out) ∧
  (∀ (s : State) (sid : SegId) (n : Nat) (e : MirrorOut),
    s.mit.toMirror.find? (fun x => decide (x.serial = n ∧ x.cls = sid.cls.val ∧ x.seg = sid.seg.val)) = some e →
    ¬(s.nts.phase = .mirror ∧ n = s.nts.waitSerial) →
    Gives (.mitMirrorAck sid n) s fun t =>
      t.mit.toMirror = (s.mit.toMirror.filter fun x => decide (x.serial ≠ n)) ∧ t.nts.slots = s.nts.slots ∧
      t.nts.stale = (s.nts.stale && !(decide (e.cls = clsKeys) && decide (n = s.mit.keysSerial)))) ∧
  (∀ (s : State) (sid : SegId) (n : Nat) (e : MirrorOut),
    s.mit.toMirror.find? (fun x => decide (x.serial = n ∧ x.cls = sid.cls.val ∧ x.seg = sid.seg.val)) = some e →
    s.nts.phase = .mirror → n = s.nts.waitSerial → s.nts.held = [] →
    Gives (.mitMirrorAck sid n) s fun t => t.nts.phase = .idle ∧ t.nts.slots = s.nts.committed) ∧
  (∀ (s : State) (sid : SegId) (n : Nat),
    s.mit.toMirror.find? (fun x => decide (x.serial = n ∧ x.cls = sid.cls.val ∧ x.seg = sid.seg.val)) = none →
    exec (.mitMirrorAck sid n) s = .next s)

/-! ## Board control -/

/-- BAR4 reaches the exchange RAM: a write stores its bytes and no other, a read returns them; an access outside the
RAM does not exist, and a malformed one is counted (R439 to R441). -/
def Obligations.ExchangeRamIsReadAndWritten : Prop :=
  (∀ (s : State) (off width : Nat) (v : Word), off < 65536 → (∀ x ∈ s.bcp.lastBc, x.tick ≠ s.tb.ticks) →
    ((width = 4 ∧ off % 4 = 0) ∨ ((width = 1 ∨ width = 2) ∧ off % 4 + width ≤ 4 ∧ rf s 0x1400000 0 2 = 0)) →
    Gives (.xramAccess off width (some v)) s fun t =>
      let a := off + if width = 4 then rf s 0x1400000 0 2 else 0
      (∀ i, i < width → xbyte t (a + i) = BitVec.ofNat 8 (v.toNat / 256 ^ i)) ∧
      (∀ b, b < 65536 → (∀ i, i < width → (a + i) % 65536 ≠ b) → xbyte t b = xbyte s b)) ∧
  (∀ (s : State) (off width : Nat), off < 65536 → (∀ x ∈ s.bcp.lastBc, x.tick + 6 < s.tb.ticks) →
    ((width = 4 ∧ off % 4 = 0) ∨ ((width = 1 ∨ width = 2) ∧ off % 4 + width ≤ 4 ∧ rf s 0x1400000 0 2 = 0)) →
    Gives (.xramAccess off width none) s fun t =>
      let a := off + if width = 4 then rf s 0x1400000 0 2 else 0
      t.out = .readData 4 (BitVec.ofNat 32 (leNat ((List.range width).map fun i => xbyte s (a + i)))) :: s.out ∧
      t.bcp.xram = s.bcp.xram) ∧
  (∀ (s : State) (off width : Nat) (w : Option Word), off < 65536 → ¬(width = 4 ∧ off % 4 = 0) →
    ¬((width = 1 ∨ width = 2) ∧ off % 4 + width ≤ 4 ∧ rf s 0x1400000 0 2 = 0) →
    Gives (.xramAccess off width w) s fun t => Counted s t 0xE00004 1 ∧ t.bcp = s.bcp ∧
      (w = none → t.out.head? = some (.readData 4 0))) ∧
  (∀ (s : State) (off width : Nat) (w : Option Word), 65536 ≤ off →
    exec (.xramAccess off width w) s = .fault .bar4Outside)

/-- The board controller's transactions over SPI and I2C, the mailboxes and the stuck DISC line. -/
def Obligations.BoardControllerReachesItsSpace : Prop :=
  (∀ (s : State) (i : Byte) (a : BitVec 24) (v : Word), i.toNat / 16 = 2 → a.toNat % 4 = 0 → a.toNat < 65536 →
    Gives (.spiWrite i a [v] .whole) s fun t =>
      (∀ k, k < 4 → xbyte t (a.toNat + k) = BitVec.ofNat 8 (v.toNat / 256 ^ k)) ∧
      (∀ b, b < 65536 → b < a.toNat ∨ a.toNat + 4 ≤ b → xbyte t b = xbyte s b)) ∧
  (∀ (s : State) (i : Byte) (a : BitVec 24) (k : Nat) (vs : List Word) (fin : BusEnd), a.toNat % 4 ≠ 0 →
    (i.toNat / 16 = 2 → Gives (.spiWrite i a vs fin) s fun t => Counted s t 0x1400214 1 ∧ t.bcp = s.bcp) ∧
    (i.toNat / 16 = 3 →
      Gives (.spiRead i a k fin) s fun t => Counted s t 0x1400214 1 ∧ t.bcp = s.bcp ∧ t.out = s.out)) ∧
  (∀ s : State, exec (.spiRead 0x30 0x10000 1 .whole) s = .next { s with
    out := .readData 5 0x4D5A4880 :: .miso [0xFF] :: s.out }) ∧
  (∀ s : State, Gives (.spiRead 0x30 0x10004 1 .whole) s fun t =>
    t.out = .readData 5 (spiStatus s) :: .miso [0xFF] :: s.out ∧
    t.bcp = { s.bcp with collide := false, busy := false }) ∧
  (∀ (s : State) (k : Nat), Gives (.spiRead 0x30 0x10000 1 (.extraClocks k)) s fun t =>
    Counted s t 0x140020C 1 ∧ Out.miso (List.replicate (ceilDiv k 8) 0xFF) ∈ t.out) ∧
  (∀ (s : State) (i : Byte) (a : BitVec 24) (k : Nat), i.toNat / 16 = 3 → a.toNat % 4 = 0 →
    Gives (.spiRead i a k .waitClocks) s fun t => Counted s t 0x1400208 1 ∧ t.bcp = s.bcp) ∧
  (∀ (s : State) (i : Byte) (a : BitVec 24) (k : Nat) (vs : List Word) (fin : BusEnd),
    i.toNat / 16 ≠ 2 → i.toNat / 16 ≠ 3 →
    (Gives (.spiBadInstr i) s fun t => Counted s t 0x1400210 1 ∧ t.bcp = s.bcp) ∧
    (Gives (.spiWrite i a vs fin) s fun t => Counted s t 0x1400210 1 ∧ t.bcp = s.bcp) ∧
    (Gives (.spiRead i a k fin) s fun t => Counted s t 0x1400210 1 ∧ t.bcp = s.bcp)) ∧
  (∀ s : State, Gives .spiHdrShort s fun t => Counted s t 0x1400200 1 ∧ t.bcp = s.bcp) ∧
  (∀ (s : State) (g : BitVec 7) (v : Word), i2ctAnswers s g = true → s.bcp.outFull = false →
    Gives (.i2ctWrite g [0x01, 0x00, 0x0C] [v] .whole) s fun t =>
      t.bcp = { s.bcp with mboxOut := v, outFull := true }) ∧
  (∀ (s : State) (g : BitVec 7) (v : Word), i2ctAnswers s g = true → s.bcp.outFull = true →
    Gives (.i2ctWrite g [0x01, 0x00, 0x0C] [v] .whole) s fun t => Counted s t 0x1400218 1 ∧ t.bcp = s.bcp) ∧
  (∀ (s : State) (g : BitVec 7) (addr : Bytes) (vs : List Word) (fin : BusEnd), i2ctAnswers s g = true →
    addr.length < 3 →
    Gives (.i2ctWrite g addr vs fin) s fun t => Counted s t 0x1400230 1 ∧ t.bcp = s.bcp) ∧
  (∀ (s : State) (g : BitVec 7), i2ctAnswers s g = true →
    exec (.i2ctRead g 0x10008 1 .whole) s = .next { s with
      bcp := { s.bcp with inFull := false }, out := .readData 6 s.bcp.mboxIn :: s.out }) ∧
  (∀ (s : State) (g : BitVec 7) (addr : Bytes) (a : BitVec 24) (vs : List Word) (k : Nat) (fin : BusEnd),
    rf s 0x1400010 0 7 ≠ g.toNat →
    exec (.i2ctWrite g addr vs fin) s = .next s ∧ exec (.i2ctRead g a k fin) s = .next s) ∧
  (∀ (s : State) (v : Word), exec (.bcpMboxToBcWrite v) s =
    .next { s with bcp := { s.bcp with mboxIn := v, inFull := true } }) ∧
  (∀ s : State, exec .bcpMboxFromBcRead s = .next { s with
    bcp := { s.bcp with outFull := false }, out := .readData 0 s.bcp.mboxOut :: s.out }) ∧
  (∀ s : State, Gives .bcpDiscStuck s fun t => t.brim = { s.brim with discStuck := true, searching := false, found := [] })

/-- Transfers of the two I2C controllers: go, end, retry after lost arbitration, time-out. -/
def Obligations.BoardTransfersRun : Prop :=
  (∀ (s : State) (c : Fin 2), (i2cOf s c).busy = true → exec (.bcpI2cGo c) s = .next (orReg s (i2cA c) 0x800)) ∧
  (∀ (s : State) (c : Fin 2), (i2cOf s c).busy = false →
    Gives (.bcpI2cGo c) s fun t =>
      i2cOf t c = { i2cOf s c with busy := true, tries := 0, waiting := false } ∧
      t.out = .i2c c (rf s (i2cA c + 4) 0 7)
        ((leBytes 4 (rd s (i2cA c + 8)).toNat ++ leBytes 4 (rd s (i2cA c + 0xC)).toNat).take (rf s (i2cA c + 4) 8 4))
        (rf s (i2cA c + 4) 12 4) (rf s (i2cA c) 0 2) :: s.out) ∧
  (∀ (s : State) (c : Fin 2) (n : Fin 10),
    Gives (.bcpI2cDone c (.sdaStuck n)) s fun t => i2cOf t c = i2cOf s c ∧ Out.i2cClear c n ∈ t.out) ∧
  (∀ (s : State) (c : Fin 2), (i2cOf s c).busy = true →
    (∀ rx, Gives (.bcpI2cDone c (.ok rx)) s fun t =>
      (i2cOf t c).busy = false ∧ (i2cOf t c).status = 0 ∧
      (i2cOf t c).rx = subPad (rx.take (rf s (i2cA c + 4) 12 4)) 0 8) ∧
    (Gives (.bcpI2cDone c .nackAddr) s fun t => (i2cOf t c).busy = false ∧ (i2cOf t c).status = 1) ∧
    (Gives (.bcpI2cDone c .nackData) s fun t => (i2cOf t c).busy = false ∧ (i2cOf t c).status = 2) ∧
    ((i2cOf s c).tries < rf s (i2cA c) 2 4 →
      Gives (.bcpI2cDone c .arbLost) s fun t =>
        i2cOf t c = { i2cOf s c with tries := (i2cOf s c).tries + 1, waiting := true } ∧
        Counted s t (0x1400224 + 4 * c.val) 1) ∧
    (rf s (i2cA c) 2 4 ≤ (i2cOf s c).tries →
      Gives (.bcpI2cDone c .arbLost) s fun t =>
        (i2cOf t c).busy = false ∧ (i2cOf t c).status = 3 ∧ Counted s t (0x1400224 + 4 * c.val) 1 ∧
        Counted s t 0x140022C 1) ∧
    (Gives (.bcpI2cTimeout c) s fun t =>
      (i2cOf t c).busy = false ∧ (i2cOf t c).status = 4 ∧ Counted s t 0x140022C 1)) ∧
  (∀ (s : State) (c : Fin 2), (i2cOf s c).busy = true → (i2cOf s c).waiting = true →
    Gives (.bcpI2cRetry c) s fun t => i2cOf t c = { i2cOf s c with waiting := false } ∧ t.out.length = s.out.length + 1)

/-! ## Clocks, power and the memory test -/

/-- Lost clock inputs, their comparison, unified clocking and the return from it, and mux rescues. -/
def Obligations.ClockInputsAndDomainsFollow : Prop :=
  (∀ s : State, s.clk.xtal = true → s.clk.unified = false → s.clk.loin = true → rb s 0x100000 3 = true →
    Gives .clkXtalLost s fun t =>
      t.clk.xtal = false ∧ t.clk.unified = true ∧ Counted s t 0x100104 1 ∧
      (clkRuns s.clk.tbclk = true → t.clk.tbclk = .root) ∧
      (s.clk.core ≠ .stuck → t.clk.core = if rb s 0x100000 4 then .hungRoot else .stuck)) ∧
  (∀ s : State, s.clk.xtal = true → s.clk.unified = false → s.clk.loin = true → rb s 0x100000 3 = false →
    s.glb.recovery ≠ 2 →
    Gives .clkXtalLost s fun t => t.glb.recovery = 2 ∧ t.glb.failCause = 1 ∧ t.glb.failN = true) ∧
  (∀ s : State, s.clk.loin = true →
    Gives .clkLoinLost s fun t =>
      t.clk.loin = false ∧ (s.clk.tbclk ≠ .stuck → t.clk.tbclk = .stopped) ∧ t.tb.timeValid = false ∧
      t.tb.forceInvalid = true ∧ t.glb.recovery = 2 ∧ ∀ d, kaolinOutput t d = none) ∧
  (∀ (s : State) (lo xtal sds : Int), 200 < (lo - xtal).natAbs → 200 < (lo - sds).natAbs → 200 < (xtal - sds).natAbs →
    Gives (.clkFreqCheck lo xtal sds) s fun t =>
      t.clk = { s.clk with xtalTick := s.tb.ticks, loinTick := s.tb.ticks }) ∧
  (∀ (s : State) (lo xtal sds : Int), (lo - xtal).natAbs ≤ 200 → (lo - sds).natAbs ≤ 200 → (xtal - sds).natAbs ≤ 200 →
    Gives (.clkFreqCheck lo xtal sds) s fun t => t.clk.xtal = true ∧ t.clk.loin = true) ∧
  (∀ (s : State) (lo xtal sds : Int), 1000 < (xtal - lo).natAbs → 1000 < (xtal - sds).natAbs → (lo - sds).natAbs ≤ 200 →
    Gives (.clkFreqCheck lo xtal sds) s fun t => t.clk.xtal = false) ∧
  (∀ (s : State) (lo xtal sds : Int), 1000 < (lo - xtal).natAbs → 1000 < (lo - sds).natAbs → (xtal - sds).natAbs ≤ 200 →
    Gives (.clkFreqCheck lo xtal sds) s fun t => t.clk.loin = false) ∧
  (∀ s : State, s.clk.unified = false → s.clk.loin = true →
    Gives .unifiedReq s fun t =>
      t.clk.unified = true ∧ rb t 0x100000 2 = true ∧
      ∀ d, domainSrc t.clk d = if clkRuns (domainSrc s.clk d) then .root else if domainSrc s.clk d = .stuck then .stuck
        else if rb s 0x100000 4 then .hungRoot else .stuck) ∧
  (∀ s : State, s.clk.unified = false → s.clk.loin = false →
    Gives .unifiedReq s fun t => t.clk = s.clk ∧ rb t 0x100000 2 = true) ∧
  (∀ s : State, s.clk.unified = true → rb s 0x100000 2 = false → s.clk.xtal = true →
    s.clk.xtalTick + ticksPerSec ≤ s.tb.ticks →
    Gives .clkReturn s fun t =>
      t.clk.unified = false ∧ (s.clk.loin = false → t.clk.tbclk = s.clk.tbclk) ∧
      ∀ d, (d = .tbclk → s.clk.loin = true) →
        domainSrc t.clk d = if clkRuns (domainSrc s.clk d) then .main else if domainSrc s.clk d = .stuck then .stuck
          else if rb s 0x100000 4 then .hungMain else .stuck) ∧
  (∀ s : State, s.tb.ticks < s.clk.xtalTick + ticksPerSec → exec .clkReturn s = .next s) ∧
  (∀ (s : State) (d : Domain) (x : ClkSrc), hungFor (domainSrc s.clk d) = some x →
    (rb s 0x100000 4 = true →
      Gives (.clkMuxRescue d) s fun t => t.clk = setDomain s.clk x d ∧ Counted s t 0x100100 1) ∧
    (rb s 0x100000 4 = false → Gives (.clkMuxRescue d) s fun t => t.clk = setDomain s.clk .stuck d)) ∧
  (∀ (s : State) (d : Domain), hungFor (domainSrc s.clk d) = none → exec (.clkMuxRescue d) s = .next s)

/-- The power planner parks what may be parked and wakes what is due; the memory test on request starts, refuses one
combination, and ends. -/
def Obligations.PlannerParksAndWakesAndTestsMemory : Prop :=
  (∀ (s : State) (u : PwrUnit) (idle : Nat), rb s 0x200000 0 = true → mustServe s u = false →
    Gives (.pwrIdlePark u idle) s fun t =>
      unitState t (unitKey u) = max (unitState s (unitKey u))
        (([1, 2, 3].filter fun x => decide (x ≤ deepest s u) && parkWorth s u idle x).foldl max 0) ∧
      (∀ k, k ≠ unitKey u → unitState t k = unitState s k)) ∧
  (∀ (s : State) (u : PwrUnit) (late : Bool), unitState s (unitKey u) ≠ 0 →
    ¬(45 ≤ unitKey u ∧ unitKey u < 61 ∧ portFused s (unitKey u - 45) = true) →
    (Gives (.pwrScheduledWake u late) s fun t =>
      unitState t (unitKey u) = 0 ∧ (late = true → Counted s t 0x200100 1)) ∧
    (Gives (.pwrDemandWake u late) s fun t =>
      unitState t (unitKey u) = 0 ∧ (late = true → Counted s t 0x200100 1))) ∧
  (∀ (s : State) (n k : Nat), k < 16 →
    Gives (.pwrLaneWake n) s fun t => unitState t k = if k < n then 0 else unitState s k) ∧
  (∀ (s : State) (n k : Nat), k < 16 → rb s 0x200000 0 = true → (laneOf s k).jobs = [] → unitState s k = 0 →
    Gives (.pwrLanePark n) s fun t =>
      unitState t k = if n ≤ k ∧ rf s 0x200000 4 5 ≤ k then 1 else 0) ∧
  (∀ (s : State) (m : Bool) (alg : BitVec 2), s.clk.mbtRun = false → alg ≠ 3 → (m = false ∨ alg = 2) →
    Gives (.mbtRun m alg) s fun t => t.clk.mbtRun = true ∧ t.clk.mbtMode = m ∧ t.pke.held = true) ∧
  (∀ (s : State) (alg : BitVec 2), s.clk.mbtRun = false → alg ≠ 3 → alg ≠ 2 →
    Gives (.mbtRun true alg) s fun t => t.clk = s.clk ∧ flag (rd t 0x208004) 1 = true) ∧
  (∀ (s : State) (n : Nat), s.clk.mbtRun = true → s.pke.jobs.any isRunning = false →
    Gives (.mbtDone n) s fun t =>
      t.clk.mbtRun = false ∧ t.clk.mbtPass = decide (n = 0) ∧ t.clk.mbtFail = min 255 n ∧ t.pke.held = false ∧
      t.pke.slots = if s.clk.mbtMode then s.pke.slots else [])

/-! ## Events and counters -/

/-- Drop counters clear, statistics counters are read with their high word latched, performance counters are cleared,
frozen, configured, read and wrapped; an access outside BAR0 does not exist; Silt windows end and alarms are
acknowledged. -/
def Obligations.WindowsAlarmsAndCountersFollowTheirCommands : Prop :=
  (∀ (s : State) (a : Nat), a < 0x2000000 → a % 4 = 0 → isDropCounter a = true → readable s a = true →
    exec (.dropCounterClear a) s = .next (wr s a 0)) ∧
  (∀ (s : State) (a b : Nat), a < 0x2000000 → a % 4 = 0 → statLow a = true → readable s a = true →
    latchOf a = some b →
    Gives (.statCounterRead .bar0 a) s fun t =>
      t.out = .readData 0 ((statGet s a).setWidth 32) :: s.out ∧
      tget (fun _ => (0 : Word)) t.statHi b = (statGet s a >>> 32).setWidth 32) ∧
  (∀ (s : State) (a : Nat), a < 0x2000000 → a % 4 = 0 → statLow a = false → a ≠ 0xA0090C → a ≠ 0x140000C →
    ¬(0x1600108 ≤ a ∧ a < 0x1600500 ∧ a % 16 = 8) →
    exec (.statCounterRead .bar0 a) s = .next { s with out := .readData 0 (readView s a) :: s.out }) ∧
  (∀ (s : State) (k : Fin 64), readable s (0x1600108 + 16 * k.val) = true →
    Gives (.statCounterRead .bar0 (0x1600108 + 16 * k.val)) s fun t =>
      pmcOf t k = { pmcOf s k with hi := w32 ((pmcOf s k).val.toNat / 2 ^ 32 + boolBit (pmcOf s k).ovf 16) }) ∧
  (∀ s : State, readable s 0x140000C = true →
    Gives (.statCounterRead .bar0 0x140000C) s fun t => t.bcp = { s.bcp with outFull := false }) ∧
  (∀ s : State, readable s 0xA0090C = true →
    Gives (.statCounterRead .bar0 0xA0090C) s fun t =>
      t.ts = { s.ts with sumHi := BitVec.ofNat 32 (twos 64 s.ts.calSum / 2 ^ 32) }) ∧
  (∀ (s : State) (a : Nat), 0x2000000 ≤ a →
    exec (.dropCounterClear a) s = .fault .bar0Outside ∧ exec (.statCounterRead .bar0 a) s = .fault .bar0Outside) ∧
  (∀ (s : State) (k : Fin 64),
    Gives (.pmcClear k) s fun t =>
      pmcOf t k = { pmcOf s k with val := 0 } ∧ (∀ j, j ≠ k.val → pmcOf t j = pmcOf s j)) ∧
  (∀ (s : State) (on : Bool), Gives (.freeze on) s fun t => rb t 0x1600000 0 = on ∧ t.pmc = s.pmc) ∧
  (∀ (s : State) (k : Fin 64) (v : Word), pmcMode (fld v 0 10) (flag v 10) = true →
    Gives (.pmcCtlWrite k v) s fun t =>
      rd t (pmcA k) = (rd s (pmcA k) &&& ~~~(0x1F3FFF : Word)) ||| (v &&& 0x1F3FFF)) ∧
  (∀ (s : State) (k : Fin 64) (v : Word), pmcMode (fld v 0 10) (flag v 10) = false →
    exec (.pmcCtlWrite k v) s = .next s) ∧
  (∀ (s : State) (k : Fin 64),
    Gives (.pmcLoRead k) s fun t =>
      t.out = .readData 0 ((pmcOf s k).val.setWidth 32) :: s.out ∧
      pmcOf t k = { pmcOf s k with hi := w32 ((pmcOf s k).val.toNat / 2 ^ 32 + boolBit (pmcOf s k).ovf 16) }) ∧
  (∀ (s : State) (k : Fin 64) (n : Nat), rb s 0x1600000 0 = false → rb s (pmcA k) 11 = true →
    2 ^ 48 ≤ (pmcOf s k).val.toNat + n →
    Gives (.pmcWrap k n) s fun t => (pmcOf t k).ovf = true) ∧
  (∀ s : State, Gives .clearAll s fun t =>
    (∀ k, k < 64 → pmcOf t k = { pmcOf s k with val := 0 }) ∧ (∀ k, 64 ≤ k → pmcOf t k = pmcOf s k) ∧
    t = { s with pmc := t.pmc }) ∧
  (∀ (s : State) (i : Fin 384), (siltOf s i).summary = false →
    exec (.siltWindowEnd i) s = .next (setSilt s i Silt.cold)) ∧
  (∀ (s : State) (i : Fin 384), (siltOf s i).summary = true → (siltOf s i).raises = 0 →
    exec (.siltWindowEnd i) s = .next (setSilt s i Silt.cold)) ∧
  (∀ (s : State) (i : Fin 384), (siltOf s i).summary = true → 0 < (siltOf s i).raises →
    (ringOf s (srcRing s i)).st ≠ .running →
    Gives (.siltWindowEnd i) s fun t => Counted s t 0x1500044 1 ∧ t.out = s.out) ∧
  (∀ (s : State) (v : Word),
    Gives (.evtAlarmAck v) s fun t =>
      alarmOf t (fld v 0 7) =
        (if (alarmOf s (fld v 0 7)).active then { alarmOf s (fld v 0 7) with unack := false } else Alarm.cold) ∧
      (∀ e, e ≠ fld v 0 7 → alarmOf t e = alarmOf s e))

/-! ## Registers -/

/-- A plain write stores the register's fields under its stored-as rules and clears the sticky bits it names; a ring
setting is stored only while its ring is DISABLED, a trigger word goes to its command while the output is enabled, and
a PFC XON threshold is held at most 16 below XOFF, and a DENY prefix length at most 32 or 128. A write of a GNSS
channel's CTL stores SIGNAL and SV only with MANUAL = 1 (R135). -/
def Obligations.RegisterWritesStoreTheirFields : Prop :=
  (∀ (s : State) (a i : Nat) (v : Word) (r : RegDef), plainAddr a = true → readable s a = true →
    regAt a = some (r, i) → r.count32 = false →
    Gives (.registerWrite .bar0 a v) s fun t =>
      rd t a = storedWord r r.rw (rd s a) v &&& ~~~(v &&& BitVec.ofNat 32 r.w1c)) ∧
  (∀ (s : State) (v : Word), readable s 0x208000 = true →
    Gives (.registerWrite .bar0 0x208000 v) s fun t =>
      rf t 0x208000 1 3 = if fld v 2 2 = 3 then rf s 0x208000 1 3 else fld v 1 3) ∧
  (∀ (s : State) (a r : Nat) (v : Word), a < 0x2000000 → a % 4 = 0 → ringRegAt a = some r →
    (ringOf s r).st ≠ .disabled → exec (.registerWrite .bar0 a v) s = .next s) ∧
  (∀ (s : State) (a : Nat) (v : Word), a % 4 = 0 → ttWordAt a = true → rb s (a - a % 0x40) 0 = true →
    exec (.registerWrite .bar0 a v) s = .next s) ∧
  (∀ (s : State) (a : Nat) (v : Word), lpXonAt a = true → a % 4 = 0 → readable s a = true →
    Gives (.registerWrite .bar0 a v) s fun t => (rd t a).toNat ≤ (rd t (a - 4)).toNat - 16) ∧
  (∀ (s : State) (a : Nat) (v : Word), denyCtlAt a = true → readable s a = true →
    Gives (.registerWrite .bar0 a v) s fun t => rf t a 0 2 = fld v 0 2 ∧
      rf t a 8 8 = min (fld v 8 8) (if flag v 1 then 128 else 32)) ∧
  (∀ (s : State) (a : Nat) (v : Word), chanCtlAt a = true → readable s a = true →
    Gives (.registerWrite .bar0 a v) s fun t => rb t a 0 = flag v 0 ∧
      (flag v 0 = false → rf t a 1 10 = rf s a 1 10)) ∧
  (∀ (s : State) (a : Nat) (v : Word), a < 0x2000000 → a % 4 = 0 → readable s a = false →
    exec (.registerWrite .bar0 a v) s = .next s)

/-- Accesses that reach no register: in the gaps of BAR0 a read returns 0, a write is ignored and no error is counted;
an access of a wrong width or alignment is dropped or reads 0, and is counted; the same holds in BAR2. Outside the
doorbell and counter pages of BAR2 a read returns 0 and a write is ignored (R302). Outside BAR0 nothing exists. -/
def Obligations.GapsAndBadAccessesReachNothing : Prop :=
  (∀ (s : State) (a : Nat) (v : Word), inGap a = true → a % 4 = 0 →
    exec (.registerWrite .bar0 a v) s = .next s ∧
    exec (.statCounterRead .bar0 a) s = .next { s with out := .readData 0 0 :: s.out }) ∧
  (∀ (s : State) (a : Nat) (v : Word), a < 0x2000000 → a % 4 ≠ 0 →
    (Gives (.registerWrite .bar0 a v) s fun t => Counted s t 0xE00004 1 ∧ ∀ b, b ≠ 0xE00004 → eventReg b = false →
      rd t b = rd s b) ∧
    (Gives (.statCounterRead .bar0 a) s fun t => Counted s t 0xE00004 1 ∧ t.out.head? = some (.readData 0 0))) ∧
  (∀ s : State,
    (Gives (.bar0BadAccess .bar0 true) s fun t => Counted s t 0xE00004 1 ∧ ∀ b, b ≠ 0xE00004 → eventReg b = false →
      rd t b = rd s b) ∧
    (Gives (.bar0BadAccess .bar0 false) s fun t => Counted s t 0xE00004 1 ∧ t.out.head? = some (.readData 0 0))) ∧
  (∀ s : State,
    (Gives (.bar0BadAccess .bar2 true) s fun t => Counted s t 0xE00004 1 ∧ ∀ b, b ≠ 0xE00004 → eventReg b = false →
      rd t b = rd s b) ∧
    (Gives (.bar0BadAccess .bar2 false) s fun t => Counted s t 0xE00004 1 ∧ t.out.head? = some (.readData 2 0))) ∧
  (∀ (s : State) (o : Nat) (v : Word), o % 4 ≠ 0 →
    (Gives (.registerWrite .bar2 o v) s fun t => Counted s t 0xE00004 1 ∧ ∀ b, b ≠ 0xE00004 → eventReg b = false →
      rd t b = rd s b) ∧
    (Gives (.statCounterRead .bar2 o) s fun t => Counted s t 0xE00004 1 ∧ t.out.head? = some (.readData 2 0))) ∧
  (∀ (s : State) (o : Nat) (v : Word), o % 4 = 0 → (0x100000 ≤ o ∨ (o % 0x1000 ≠ 0 ∧ o % 0x1000 ≠ 4)) →
    exec (.registerWrite .bar2 o v) s = .next s) ∧
  (∀ (s : State) (o : Nat), o % 4 = 0 →
    (0x301000 ≤ o ∨ (0x100000 ≤ o ∧ o < 0x300000) ∨ (o < 0x100000 ∧ o % 0x1000 ≠ 0 ∧ o % 0x1000 ≠ 4)) →
    exec (.statCounterRead .bar2 o) s = .next { s with out := .readData 2 0 :: s.out }) ∧
  (∀ (s : State) (r : Fin 256) (v : Word),
    exec (.registerWrite .bar2 (0x1000 * r.val) v) s = exec (.hifProdWrite r v) s ∧
    exec (.registerWrite .bar2 (0x1000 * r.val + 4) v) s = exec (.hifConsWrite r v) s) ∧
  (∀ (s : State) (o : Nat), o % 4 = 0 → o < 0x1000 →
    exec (.statCounterRead .bar2 (0x300000 + o)) s = .next { s with out := .readData 2 (userWord s o) :: s.out }) ∧
  (∀ (s : State) (a : Nat) (v : Word), 0x2000000 ≤ a → exec (.registerWrite .bar0 a v) s = .fault .bar0Outside)

/-! ## Resets -/

/-- Each reset sets its cause and returns what it reaches to Cold; a reset of the device waits for the segment commit
in progress; what acts while POR or PIN runs is absorbed, but for its cause; the keep-alive domain and the Loam array stay. -/
def Obligations.ResetsReachTheirBlocks : Prop :=
  (∀ (s : State) (env : StartEnv), s.glb.resetHeld = false →
    Gives (.por env) s fun t => t.bcp = Bcp.cold ∧ t.glb.powered = true ∧ 1 ≤ t.glb.step) ∧
  (∀ (s : State) (env : StartEnv), s.glb.resetHeld = true →
    Gives (.por env) s fun t => t.bcp = Bcp.cold ∧ t.glb.powered = true ∧ t.glb.resetHeld = true ∧
      (∀ a, porReaches a = true → a ≠ 0xB00010 → a ≠ 0xB00014 → rd t a = coldWord a)) ∧
  (∀ s : State, Gives .resetPin s fun t =>
    t.glb.resetHeld = true ∧ flag (rd t 0x10) 1 = true ∧ t.hif.rings = [] ∧ t.bcp = Bcp.cold ∧
    (s.loam.cur = none → t.loam.copies = s.loam.copies) ∧
    (∀ a, chipReaches a = true → a ≠ 0xB00010 → a ≠ 0xB00014 → rd t a = coldWord a) ∧
    (∀ a, keepAliveReg a = true → rd t a = rd s a)) ∧
  (∀ (s : State) (env : StartEnv), s.glb.resetHeld = true → s.glb.powered = true →
    Gives (.resetNRelease env) s fun t => t.glb.resetHeld = false ∧ 1 ≤ t.glb.step) ∧
  (∀ (s : State) (env : StartEnv), s.glb.resetHeld = true → s.glb.powered = false →
    exec (.resetNRelease env) s = .next { s with glb := { s.glb with resetHeld := false } }) ∧
  (∀ s : State, Gives .supplyLoss s fun t =>
    t.glb.powered = false ∧ t.bcp = Bcp.cold ∧ t.loam.flash = s.loam.flash ∧
    (∀ a, porReaches a = true → a ≠ 0xB00010 → a ≠ 0xB00014 → rd t a = coldWord a) ∧
    (s.loam.vbatGone = false → ∀ a, keepAliveReg a = true → rd t a = rd s a) ∧
    (s.loam.vbatGone = true → t.loam.rtcValid = false ∧ t.loam.rtcLost = true ∧
      ∀ a, 0x1100200 ≤ a → a < 0x1100300 → rd t a = coldWord a)) ∧
  (∀ (s : State) (env : StartEnv), resetRuns s = true →
    exec (.chip env) s = .next (causeBit s 2) ∧ exec (.warm env) s = .next (causeBit s 3) ∧
    exec (.ctrl env) s = .next (causeBit s 5) ∧ exec (.ctrlWatchdog env) s = .next (causeBit s 6)) ∧
  (∀ (s : State) (env : StartEnv), resetRuns s = false → s.loam.cur = none →
    (Gives (.chip env) s fun t => t.bcp = Bcp.cold ∧ t.glb.deferred = none) ∧
    (Gives (.warm env) s fun t => t.bcp = Bcp.cold ∧ t.glb.deferred = none ∧ t.brim.members = s.brim.members)) ∧
  (∀ (s : State) (env : StartEnv), resetRuns s = false → s.loam.cur.isSome = true →
    (Gives (.chip env) s fun t => t.glb.deferred = some .chip ∧ t.loam = s.loam ∧ flag (rd t 0x10) 2 = true) ∧
    (s.glb.deferred = none →
      Gives (.warm env) s fun t =>
        t.glb.deferred = some (.warm false false) ∧ t.loam = s.loam ∧ flag (rd t 0x10) 3 = true) ∧
    exec (.deferredResetAct env) s = .next s) ∧
  (∀ (s : State) (env : StartEnv), s.loam.cur = none → s.glb.deferred = some .chip →
    Gives (.deferredResetAct env) s fun t => t.bcp = Bcp.cold ∧ t.glb.deferred = none) ∧
  (∀ (s : State) (env : StartEnv), resetRuns s = false → (within s.tb.ticks oneMin s.glb.ctrlTicks).length < 2 →
    (Gives (.ctrl env) s fun t =>
      t.glb.ctrlTicks = within s.tb.ticks oneMin s.glb.ctrlTicks ++ [s.tb.ticks] ∧ flag (rd t 0x10) 5 = true ∧
      t.bcp = s.bcp) ∧
    (Gives (.ctrlWatchdog env) s fun t =>
      t.glb.ctrlTicks = within s.tb.ticks oneMin s.glb.ctrlTicks ++ [s.tb.ticks] ∧ flag (rd t 0x10) 6 = true ∧
      t.bcp = s.bcp)) ∧
  (∀ (s : State) (env : StartEnv), resetRuns s = false → 2 ≤ (within s.tb.ticks oneMin s.glb.ctrlTicks).length →
    s.loam.cur = none → Gives (.ctrl env) s fun t => t.bcp = Bcp.cold ∧ t.glb.ctrlTicks = []) ∧
  (∀ s : State, Gives .pke s fun t =>
    t.pke = Pke.cold ∧ flag (rd t 0x10) 7 = true ∧
    (∀ a, 0xF00000 ≤ a → a < 0x1000000 → rd t a = coldWord a) ∧
    (∀ a, a ≠ 0x10 → (a < 0xF00000 ∨ 0x1000000 ≤ a) → rd t a = rd s a)) ∧
  (∀ s : State, Gives .perst s fun t =>
    t.hif.rings = [] ∧ t.hif.linkUp = false ∧ flag (rd t 0x10) 8 = true ∧
    (∀ a, 0xE00000 ≤ a → a < 0xF00000 → rd t a = coldWord a))

/-! ## Frames over whole families -/

/-- Every command leaves the other blocks alone: the next state is the state before, but for the parts that
`FamilyFrame` lists for the command's family. -/
def Obligations.FamiliesKeepTheirFrames : Prop :=
  ∀ (c : Instr) (s t : State), exec c s = .next t → FamilyFrame (familyOf c) s t

/-- A command writes no register but those of its family and the event counters. -/
def Obligations.RegistersOfOtherFamiliesAreKept : Prop :=
  ∀ (c : Instr) (s t : State), exec c s = .next t → RegsKept (ownReg (familyOf c)) s t

/-! ## Rules of the whole device -/

/-- R489: a write of 0 clears a drop and error counter and other values are ignored; an increment after the clear
leaves 1; saturation sets the block's bit of EVT_SAT, in the order of the BAR0 table; a 1 written there clears the bit
and restores no counter. -/
def Obligations.DropCountersClearAndSaturate : Prop :=
  (∀ (s : State) (a : Nat), a < 0x2000000 → a % 4 = 0 → isDropCounter a = true → readable s a = true →
    (Gives (.dropCounterClear a) s fun t => rd t a = 0) ∧
    (Gives (.registerWrite .bar0 a 0) s fun t => rd t a = 0) ∧
    (∀ v, v ≠ 0 → Gives (.registerWrite .bar0 a v) s fun t => rd t a = rd s a) ∧
    rd (bump (wr s a 0) a 1) a = 1) ∧
  (∀ (s : State) (a b n : Nat), blockOf a = some b → a ≠ 0x1500040 → full ≤ (rd s a).toNat + n →
    rd (bump s a n) a = 0xFFFFFFFF ∧ flag (rd (bump s a n) 0x1500040) b = true) ∧
  blocks.map (·.1) = [0, 0x100000, 0x200000, 0x300000, 0x400000, 0x480000, 0x500000, 0x600000, 0x800000, 0x900000,
    0xA00000, 0xB00000, 0xC00000, 0xD00000, 0xE00000, 0xF00000, 0x1000000, 0x1100000, 0x1200000, 0x1300000, 0x1400000,
    0x1500000, 0x1600000] ∧
  (∀ (s : State) (v : Word), s.loam.restored = true →
    Gives (.registerWrite .bar0 0x1500040 v) s fun t =>
      rd t 0x1500040 = rd s 0x1500040 &&& ~~~(v &&& 0x7FFFFF) ∧ ∀ a, a ≠ 0x1500040 → rd t a = rd s a)

/-- R45: a tick adds 2 ns × (1 + F × 10⁻¹⁵), rounded to 2⁻⁶⁴ ns, where F is the signed 40-bit DCO word in force. -/
def Obligations.TicksAddTheDcoIncrement : Prop :=
  (∀ f : Int, -(2 ^ 39) ≤ f → f < 2 ^ 39 →
    2 * ((tickInc f : Int) * 10 ^ 15 - 2 * 2 ^ 64 * (10 ^ 15 + f)).natAbs ≤ 10 ^ 15) ∧
  (∀ (s : State) (w v : Word), s.tb.dcoLo = some w → tbMode s = 0 →
    Gives (.tbDcoHiWrite v) s fun t => ∃ f : Int, t.tb.dcoNext = some f ∧ -(2 ^ 39) ≤ f ∧ f < 2 ^ 39 ∧
      (f - (fld v 0 8 * 2 ^ 32 + w.toNat : Nat)) % 2 ^ 40 = 0) ∧
  (∀ s : State, s.pending = [] → clkRuns s.clk.tbclk = true → s.tb.stepNext = none →
    ∃ t, step s = .next t ∧ t.tb.dco = s.tb.dcoNext.getD s.tb.dco ∧
      t.tb.counter = s.tb.counter + tickInc (paceWord s t.tb.dco) ∧ t.tb.ticks = s.tb.ticks + 1 ∧
      (s.clk.unified = false → paceWord s t.tb.dco = t.tb.dco))

/-- R369 and R370: the newest generation with two agreeing copies is used; a lone copy 1 of the newest generation is set
aside, and used only where there is nothing else; a lone other copy rolls back to an older agreed generation. -/
def Obligations.VotesFollowTheGenerations : Prop :=
  (∀ l : Bool, vote [] l = { verdict := if l then .lost else .absent, used := none, copies := 0 }) ∧
  (∀ (c : Copy) (l : Bool), vote [c] l = { verdict := .single, used := some c, copies := 1 }) ∧
  (∀ (cs : List Copy) (a b : Copy) (l : Bool), a ∈ cs → b ∈ cs → a ≠ b → a.gen = b.gen → sameRecord a b = true →
    (∀ d ∈ cs, d.gen ≤ a.gen) →
    ∃ c, (vote cs l).used = some c ∧ c ∈ cs ∧ c.gen = a.gen ∧
      ((vote cs l).verdict = .intact ∨ (vote cs l).verdict = .repaired)) ∧
  (∀ (cs : List Copy) (n a b : Copy) (l : Bool), a ∈ cs → b ∈ cs → a ≠ b → a.gen = b.gen → sameRecord a b = true →
    (∀ d ∈ cs, d.gen ≤ a.gen) → a.gen < n.gen →
    (n.copy = 1 → ∃ c, (vote (n :: cs) l).used = some c ∧ c ∈ cs ∧ c.gen = a.gen ∧
      ((vote (n :: cs) l).verdict = .intact ∨ (vote (n :: cs) l).verdict = .repaired)) ∧
    (n.copy ≠ 1 → ∃ c, (vote (n :: cs) l).used = some c ∧ c ∈ cs ∧ c.gen = a.gen ∧
      (vote (n :: cs) l).verdict = .rolledBack))
end

