-- ==== Sys2Proof/Laws/Tables.lean ====
section
/-! SUPPORT. What the sparse tables answer after a write, and that every write keeps their canonical form. -/

namespace Sys2Proof.Machine

variable {α : Type} (d : Nat → α)

@[simp] theorem tget_nil (k : Nat) : tget d [] k = d k := rfl

theorem tget_tdel_same (t : Tab α) (k : Nat) : tget d (tdel t k) k = d k := by
  induction t with
  | nil => rfl
  | cons e t ih =>
    obtain ⟨a, v⟩ := e
    by_cases h : k = a <;> simp [tdel, tget, h] <;> first | exact (h ▸ ih) | exact ih

theorem tget_tdel_ne (t : Tab α) {k j : Nat} (h : j ≠ k) : tget d (tdel t k) j = tget d t j := by
  induction t with
  | nil => rfl
  | cons e t ih =>
    obtain ⟨a, v⟩ := e
    by_cases hk : k = a
    · subst hk; simp [tdel, tget, h, ih]
    · simp [tdel, tget, hk, ih]

theorem tget_tput_same (t : Tab α) (k : Nat) (x : α) : tget d (tput t k x) k = x := by
  induction t with
  | nil => simp [tput, tget]
  | cons e t ih =>
    obtain ⟨a, v⟩ := e
    by_cases hk : k = a
    · simp [tput, tget, hk]
    · by_cases hl : k < a <;> simp [tput, tget, hk, hl, ih]

theorem tget_tput_ne (t : Tab α) {k j : Nat} (x : α) (h : j ≠ k) : tget d (tput t k x) j = tget d t j := by
  induction t with
  | nil => simp [tput, tget, h]
  | cons e t ih =>
    obtain ⟨a, v⟩ := e
    by_cases hk : k = a
    · subst hk; simp [tput, tget, h]
    · by_cases hl : k < a <;> simp [tput, tget, hk, hl, h, ih]

variable [DecidableEq α]

/-- Read after write. -/
@[simp] theorem tget_tset_same (t : Tab α) (k : Nat) (x : α) : tget d (tset d t k x) k = x := by
  by_cases h : x = d k
  · simp [tset, h, tget_tdel_same]
  · simp [tset, h, tget_tput_same]

/-- A write leaves every other key alone. -/
theorem tget_tset_ne (t : Tab α) {k j : Nat} (x : α) (h : j ≠ k) : tget d (tset d t k x) j = tget d t j := by
  by_cases hx : x = d k
  · simp [tset, hx, tget_tdel_ne d t h]
  · simp [tset, hx, tget_tput_ne d t x h]

omit [DecidableEq α] in
theorem trising_mono {lo hi : Nat} {t : Tab α} (h : trising hi t = true) (hl : lo ≤ hi) : trising lo t = true := by
  cases t with
  | nil => rfl
  | cons e t =>
    obtain ⟨a, v⟩ := e
    simp only [trising, Bool.and_eq_true, decide_eq_true_eq] at h ⊢
    exact ⟨by omega, h.2⟩

omit [DecidableEq α] in
theorem trising_tdel {t : Tab α} : ∀ {lo : Nat} (k : Nat), trising lo t = true → trising lo (tdel t k) = true := by
  induction t with
  | nil => intro lo k h; rfl
  | cons e t ih =>
    intro lo k h
    obtain ⟨a, v⟩ := e
    simp only [trising, Bool.and_eq_true, decide_eq_true_eq] at h
    by_cases hk : k = a
    · simpa [tdel, hk] using trising_mono (ih a h.2) (by omega : lo ≤ a + 1)
    · simp [tdel, hk, trising, h.1, ih k h.2]

omit [DecidableEq α] in
theorem trising_tput {t : Tab α} : ∀ {lo : Nat} (k : Nat) (x : α), lo ≤ k → trising lo t = true →
    trising lo (tput t k x) = true := by
  induction t with
  | nil => intro lo k x hk h; simp [tput, trising, hk]
  | cons e t ih =>
    intro lo k x hlo h
    obtain ⟨a, v⟩ := e
    simp only [trising, Bool.and_eq_true, decide_eq_true_eq] at h
    by_cases hk : k = a
    · subst hk; simp [tput, trising, hlo, h.2]
    · by_cases hl : k < a
      · simp only [tput, hk, hl, if_true, if_false, trising, Bool.and_eq_true, decide_eq_true_eq]
        exact ⟨hlo, by omega, h.2⟩
      · simp only [tput, hk, hl, if_false, trising, Bool.and_eq_true, decide_eq_true_eq]
        exact ⟨h.1, ih k x (by omega) h.2⟩

omit [DecidableEq α] in
theorem mem_tdel {t : Tab α} {k : Nat} {e : Nat × α} : e ∈ tdel t k → e ∈ t := by
  induction t with
  | nil => exact id
  | cons f t ih =>
    obtain ⟨a, v⟩ := f
    by_cases hk : k = a
    · simp only [tdel, hk, if_true]; subst hk; intro h; exact List.mem_cons_of_mem _ (ih h)
    · simp only [tdel, hk, if_false, List.mem_cons]
      exact fun h => h.imp id ih

omit [DecidableEq α] in
theorem mem_tput {t : Tab α} {k : Nat} {x : α} {e : Nat × α} : e ∈ tput t k x → e = (k, x) ∨ e ∈ t := by
  induction t with
  | nil => simp [tput]
  | cons f t ih =>
    obtain ⟨a, v⟩ := f
    by_cases hk : k = a
    · simp only [tput, hk, if_true, List.mem_cons]; exact fun h => h.imp id Or.inr
    · by_cases hl : k < a
      · simp [tput, hk, hl]
      · simp only [tput, hk, hl, if_false, List.mem_cons]
        intro h
        rcases h with h | h
        · exact .inr (.inl h)
        · exact (ih h).imp id Or.inr

/-- A write keeps the canonical form. -/
theorem twf_tset {t : Tab α} (k : Nat) (x : α) (h : twf d t = true) : twf d (tset d t k x) = true := by
  simp only [twf, Bool.and_eq_true, List.all_eq_true, decide_eq_true_eq] at h ⊢
  by_cases hx : x = d k
  · simp only [tset, hx, if_true]
    exact ⟨trising_tdel k h.1, fun e he => h.2 e (mem_tdel he)⟩
  · simp only [tset, hx, if_false]
    refine ⟨trising_tput k x (Nat.zero_le k) h.1, fun e he => ?_⟩
    rcases mem_tput he with rfl | he
    · exact hx
    · exact h.2 e he

/-- The keys after a write: those before, and the key written. -/
theorem keys_tset {t : Tab α} {k : Nat} {x : α} {e : Nat × α} (h : e ∈ tset d t k x) : e.1 = k ∨ e ∈ t := by
  by_cases hx : x = d k
  · simp only [tset, hx, if_true] at h; exact .inr (mem_tdel h)
  · simp only [tset, hx, if_false] at h
    rcases mem_tput h with rfl | h
    · exact .inl rfl
    · exact .inr h

end Sys2Proof.Machine
end

