-- ==== Sys2Proof/Laws/Ops.lean ====
section
/-! SUPPORT. The shared operations, once each: register reads after register writes, counters, and what raising an
event can change. -/

namespace Sys2Proof.Machine

/-! ## Registers -/

@[simp] theorem rd_wr_same (s : State) (a : Nat) (v : Word) : rd (wr s a v) a = v := by simp [rd, wr]

theorem rd_wr_ne (s : State) {a b : Nat} (v : Word) (h : b ≠ a) : rd (wr s a v) b = rd s b := by
  simp [rd, wr, tget_tset_ne _ _ _ h]

@[simp] theorem rd_orReg_same (s : State) (a m : Nat) : rd (orReg s a m) a = rd s a ||| BitVec.ofNat 32 m := by
  simp [orReg]

theorem rd_orReg_ne (s : State) {a b : Nat} (m : Nat) (h : b ≠ a) : rd (orReg s a m) b = rd s b := by
  simp [orReg, rd_wr_ne s _ h]

/-- A counter touches its own register and EVT_SAT only. -/
theorem rd_bump_ne (s : State) {a b : Nat} (n : Nat) (h : b ≠ a) (hs : b ≠ 0x1500040) :
    rd (bump s a n) b = rd s b := by
  unfold bump
  dsimp only
  split
  · split
    · rw [rd_orReg_ne _ _ hs, rd_wr_ne _ _ h]
    · exact rd_wr_ne _ _ h
  · exact rd_wr_ne _ _ h

theorem bump_counted (s : State) {a : Nat} (n : Nat) (hs : a ≠ 0x1500040) : Counted s (bump s a n) a n := by
  unfold Counted bump
  dsimp only
  split
  · split
    · rw [rd_orReg_ne _ _ hs, rd_wr_same]
    · rw [rd_wr_same]
  · rw [rd_wr_same]

/-- Counting changes registers only. -/
theorem bump_regs (s : State) (a n : Nat) : bump s a n = { s with regs := (bump s a n).regs } := by
  unfold bump
  dsimp only
  split
  · split <;> rfl
  · rfl

theorem storeMask_regs (s : State) (a m : Nat) (v : Word) :
    storeMask s a m v = { s with regs := (storeMask s a m v).regs } := by
  unfold storeMask
  split <;> rfl

theorem store_regs (s : State) (a : Nat) (v : Word) : store s a v = { s with regs := (store s a v).regs } := by
  unfold store
  split
  · rfl
  · split
    · split <;> rfl
    · rfl

/-! ## Statistics counters -/

@[simp] theorem statGet_statInc (s : State) (a n : Nat) :
    statGet (statInc s a n) a = statGet s a + BitVec.ofNat 64 n := by
  simp [statGet, statInc]

theorem statGet_statInc_ne (s : State) {a b : Nat} (n : Nat) (h : b ≠ a) : statGet (statInc s a n) b = statGet s b := by
  simp [statGet, statInc, tget_tset_ne _ _ _ h]

/-! ## What only the event side changes -/

theorem RegsKept.refl (own : Nat → Bool) (s : State) : RegsKept own s s := fun _ _ _ => rfl

theorem RegsKept.trans {own : Nat → Bool} {s t u : State} (h : RegsKept own s t) (k : RegsKept own t u) :
    RegsKept own s u := fun a he ho => (k a he ho).trans (h a he ho)

/-- No register changes at all. -/
theorem RegsKept.of_regs {own : Nat → Bool} {s t : State} (h : t.regs = s.regs) : RegsKept own s t :=
  fun a _ _ => by simp [rd, h]

theorem RegsKept.bump {own : Nat → Bool} (s : State) (a n : Nat) (h : eventReg a = true ∨ own a = true) :
    RegsKept own s (bump s a n) := by
  intro b he ho
  refine rd_bump_ne s n ?_ ?_
  · rintro rfl; rcases h with h | h <;> simp_all
  · rintro rfl; simp [eventReg] at he

/-- An operation that touches the event side only. -/
theorem Quiet.refl (s : State) : Quiet s s := rfl

theorem Quiet.trans {s t u : State} (h : Quiet s t) (k : Quiet t u) : Quiet s u := by
  unfold Quiet at *
  rw [k, h]

theorem Quiet.bump (s : State) (a n : Nat) : Quiet s (bump s a n) := by
  unfold Quiet; rw [bump_regs]

theorem raiseSev_quiet (s : State) (id inst sev : Nat) (p : Bytes) : Quiet s (raiseSev s id inst sev p) := rfl

theorem raiseN_quiet (s : State) (id inst : Nat) (ns : List Nat) : Quiet s (raiseN s id inst ns) := rfl

theorem raiseLim_quiet (s : State) (id inst lim : Nat) (ns : List Nat) : Quiet s (raiseLim s id inst lim ns) := by
  unfold raiseLim
  dsimp only
  split <;> rfl

theorem alarmClear_evt (s : State) (id : Nat) : alarmClear s id = { s with evt := (alarmClear s id).evt } := by
  unfold alarmClear
  split <;> rfl

theorem accessError_quiet (s : State) : Quiet s (accessError s) :=
  (Quiet.bump s _ _).trans (raiseLim_quiet _ _ _ _ _)

theorem dmaError_quiet (s : State) (r : Nat) : Quiet s (dmaError s r) :=
  (Quiet.bump s _ _).trans (raiseLim_quiet _ _ _ _ _)

/-! ## Completions: no register changes but those of counters -/

@[simp] theorem vecFire_regs (s : State) (v : Nat) : (vecFire s v).regs = s.regs := by
  unfold vecFire
  split <;> rfl

@[simp] theorem vecRaise_regs (s : State) (v n : Nat) : (vecRaise s v n).regs = s.regs := by
  unfold vecRaise
  extract_lets x x1 s1 m
  split
  · exact vecFire_regs _ _
  · rfl

@[simp] theorem noteCompl_regs (s : State) (r : Nat) : (noteCompl s r).regs = s.regs := by
  unfold noteCompl
  split <;> simp

theorem pmcAddAll_regs (n : Nat) (ks : List Nat) : ∀ s : State, (pmcAddAll n ks s).1.regs = s.regs := by
  induction ks with
  | nil => intro s; rfl
  | cons k ks ih => intro s; exact ih _

@[simp] theorem dmaBytes_regs (s : State) (n : Nat) : (dmaBytes s n).regs = s.regs := pmcAddAll_regs _ _ _

@[simp] theorem writeCompl_regs (s : State) (r idx st : Nat) (b : Bytes) : (writeCompl s r idx st b).regs = s.regs := by
  simp [writeCompl, emit, setRing]

theorem flushCompl_regs (n : Nat) : ∀ (s : State) (r : Nat), (flushCompl n s r).regs = s.regs := by
  induction n with
  | zero => intro s r; rfl
  | succ n ih =>
    intro s r
    unfold flushCompl
    dsimp only
    split
    · split
      · rfl
      · rw [ih]; simp [setRing]
    · rfl

@[simp] theorem complete_regs (s : State) (r idx st : Nat) (b : Bytes) : (complete s r idx st b).regs = s.regs := by
  unfold complete
  dsimp only
  split
  · rw [flushCompl_regs]; rfl
  · rfl

/-! ## Raising an event writes only the event counters -/

@[simp] theorem noteRecent_regs (s : State) (r : Nat) (b : Bytes) : (noteRecent s r b).regs = s.regs := rfl

@[simp] theorem setRun_regs (s : State) (r : Nat) (x : Nat × Nat) : (setRun s r x).regs = s.regs := rfl

@[simp] theorem tickOrder_regs (s : State) (r parts : Nat) : (tickOrder s r parts).regs = s.regs := by
  unfold tickOrder
  dsimp -zeta only
  extract_lets m s1 new l
  split <;> rfl

@[simp] theorem writeEvent_regs (s : State) (r ty id sev part parts stamp : Nat) (p : Bytes) :
    (writeEvent s r ty id sev part parts stamp p).regs = s.regs := by
  unfold writeEvent
  extract_lets body s1
  rw [writeCompl_regs]
  split <;> rfl

theorem writeParts_regs (r ty id sev parts stamp : Nat) (n : Nat) :
    ∀ (s : State) (p : Bytes), (writeParts r ty id sev parts stamp n s p).regs = s.regs := by
  induction n with
  | zero => intro s p; rfl
  | succ n ih => intro s p; simp [writeParts, ih]

@[simp] theorem writeTogether_regs (s : State) (r ty id sev parts stamp : Nat) (p : Bytes) :
    (writeTogether s r ty id sev parts stamp p).regs = s.regs := by
  unfold writeTogether
  dsimp only
  split <;> simp [writeParts_regs]

theorem flushPend_regs (n : Nat) : ∀ (s : State) (r : Nat), (flushPend n s r).regs = s.regs := by
  induction n with
  | zero => intro s r; rfl
  | succ n ih =>
    intro s r
    unfold flushPend
    split
    · split
      · rfl
      · simp [ih]
    · rfl

theorem srcRing_range (s : State) (id : Nat) : 160 ≤ srcRing s id ∧ srcRing s id ≤ 167 := by
  unfold srcRing fld bitsOf
  omega

theorem eventReg_ringDrop {r : Nat} (h : r < 256) : eventReg (ringA r + 0x1C) = true := by
  unfold eventReg ringA
  simp only [Bool.or_eq_true, decide_eq_true_eq]
  omega

theorem deliver_kept (own : Nat → Bool) (s : State) (ty id sev stamp : Nat) (p : Bytes) :
    RegsKept own s (deliver s ty id sev stamp p).s := by
  have hr := srcRing_range s id
  unfold deliver
  dsimp only
  split
  · exact RegsKept.bump _ _ _ (.inl (by decide))
  · split
    · split
      · split
        · refine RegsKept.trans (RegsKept.of_regs ?_) (RegsKept.bump _ _ _ (.inl (eventReg_ringDrop (by omega))))
          simp [setRingDrop, flushPend_regs]
        · exact RegsKept.of_regs (by simp [setRingDrop, flushPend_regs])
      · exact RegsKept.of_regs (by simp [flushPend_regs])
    · split
      · exact RegsKept.of_regs (by simp [setCoal, coalesce, setRingDrop, flushPend_regs])
      · exact RegsKept.of_regs (by simp [flushPend_regs])

@[simp] theorem alarmRaise_regs (s : State) (id inst sev : Nat) : (alarmRaise s id inst sev).regs = s.regs := by
  unfold alarmRaise
  dsimp only
  split <;> split <;> rfl

theorem raiseFuel_kept (own : Nat → Bool) (n : Nat) : ∀ (s : State) (id inst sev : Nat) (p : Bytes),
    RegsKept own s (raiseFuel n s id inst sev p) := by
  induction n with
  | zero => intro s id inst sev p; exact RegsKept.refl _ _
  | succ n ih =>
    intro s id inst sev p
    have fold : ∀ (ks : List Nat) (t : State), RegsKept own s t →
        RegsKept own s (ks.foldl (fun t _ => raiseFuel n t 369 0 0 []) t) := by
      intro ks
      induction ks with
      | nil => intro t h; exact h
      | cons k ks ihk => intro t h; exact ihk _ (h.trans (ih _ _ _ _ _))
    have h0 := pmcAddAll_regs 1 (pmcCounting s id 31) s
    unfold raiseFuel
    rcases hp : pmcAddAll 1 (pmcCounting s id 31) s with ⟨s1, ovfs⟩
    have h1 : s1.regs = s.regs := by simpa [hp] using h0
    dsimp -zeta only
    extract_lets s2 y s3 d s4
    have h2 : s2.regs = s.regs := by
      show (if classOf id = 1 ∧ sev ≠ 0 then alarmRaise s1 id inst sev else s1).regs = s.regs
      split
      · rw [alarmRaise_regs, h1]
      · exact h1
    have hd : RegsKept own s d.s := by
      have h3 : RegsKept own s s3 := RegsKept.of_regs h2
      show RegsKept own s (Delivery.s (if y.summary then _ else _))
      split
      · exact h3
      · exact h3.trans (deliver_kept own _ _ _ _ _ _)
    refine fold _ _ ?_
    show RegsKept own s (if d.startsCoalescing then _ else _)
    split
    · exact hd.trans (ih _ _ _ _ _)
    · exact hd

/-- Raising an event leaves every register but the event counters alone. -/
theorem raiseSev_kept (own : Nat → Bool) (s : State) (id inst sev : Nat) (p : Bytes) :
    RegsKept own s (raiseSev s id inst sev p) :=
  (raiseFuel_kept own 4 s id inst sev p).trans (RegsKept.of_regs (by simp only [raiseSev]))

theorem raiseN_kept (own : Nat → Bool) (s : State) (id inst : Nat) (ns : List Nat) :
    RegsKept own s (raiseN s id inst ns) := by
  unfold raiseN raise
  exact raiseSev_kept own s id inst _ _

theorem raiseLim_kept (own : Nat → Bool) (s : State) (id inst lim : Nat) (ns : List Nat) :
    RegsKept own s (raiseLim s id inst lim ns) := by
  unfold raiseLim
  extract_lets k prev
  split
  · exact RegsKept.refl _ _
  · exact RegsKept.trans (t := { s with evt := { s.evt with lim := tset (fun _ => 0) s.evt.lim k (s.tb.ticks + 1) } })
      (RegsKept.of_regs rfl) (raiseN_kept _ _ _ _ _)

/-- A register that is not an event counter, after an event. -/
theorem rd_raiseN (s : State) (id inst : Nat) (ns : List Nat) {a : Nat} (h : eventReg a = false) :
    rd (raiseN s id inst ns) a = rd s a := raiseN_kept (fun _ => false) s id inst ns a h rfl

theorem rd_raiseLim (s : State) (id inst lim : Nat) (ns : List Nat) {a : Nat} (h : eventReg a = false) :
    rd (raiseLim s id inst lim ns) a = rd s a := raiseLim_kept (fun _ => false) s id inst lim ns a h rfl

@[simp] theorem alarmClear_regs (s : State) (id : Nat) : (alarmClear s id).regs = s.regs := by
  rw [alarmClear_evt]

end Sys2Proof.Machine
end

