-- ==== Sys2Proof/Laws/State.lean ====
section
/-! SUPPORT. The record updates of the state, once each: what a field holds after an update, and what the operations on
the event side leave alone. -/

namespace Sys2Proof.Machine

/-! ## Fields after an operation of the event side -/

theorem Quiet.eq {s t : State} (h : Quiet s t) :
    t = { s with regs := t.regs, evt := t.evt, pmc := t.pmc, hif := t.hif, out := t.out } := h

theorem Quiet.fuse {s t : State} (h : Quiet s t) : t.fuse = s.fuse := (congrArg State.fuse h.eq :)
theorem Quiet.pending {s t : State} (h : Quiet s t) : t.pending = s.pending := (congrArg State.pending h.eq :)
theorem Quiet.stat {s t : State} (h : Quiet s t) : t.stat = s.stat := (congrArg State.stat h.eq :)
theorem Quiet.statHi {s t : State} (h : Quiet s t) : t.statHi = s.statHi := (congrArg State.statHi h.eq :)
theorem Quiet.glb {s t : State} (h : Quiet s t) : t.glb = s.glb := (congrArg State.glb h.eq :)
theorem Quiet.tb {s t : State} (h : Quiet s t) : t.tb = s.tb := (congrArg State.tb h.eq :)
theorem Quiet.ttOut {s t : State} (h : Quiet s t) : t.ttOut = s.ttOut := (congrArg State.ttOut h.eq :)
theorem Quiet.ttIn {s t : State} (h : Quiet s t) : t.ttIn = s.ttIn := (congrArg State.ttIn h.eq :)
theorem Quiet.ref {s t : State} (h : Quiet s t) : t.ref = s.ref := (congrArg State.ref h.eq :)
theorem Quiet.dpl {s t : State} (h : Quiet s t) : t.dpl = s.dpl := (congrArg State.dpl h.eq :)
theorem Quiet.gn {s t : State} (h : Quiet s t) : t.gn = s.gn := (congrArg State.gn h.eq :)
theorem Quiet.lp {s t : State} (h : Quiet s t) : t.lp = s.lp := (congrArg State.lp h.eq :)
theorem Quiet.mg {s t : State} (h : Quiet s t) : t.mg = s.mg := (congrArg State.mg h.eq :)
theorem Quiet.ts {s t : State} (h : Quiet s t) : t.ts = s.ts := (congrArg State.ts h.eq :)
theorem Quiet.rsp {s t : State} (h : Quiet s t) : t.rsp = s.rsp := (congrArg State.rsp h.eq :)
theorem Quiet.nts {s t : State} (h : Quiet s t) : t.nts = s.nts := (congrArg State.nts h.eq :)
theorem Quiet.gnt {s t : State} (h : Quiet s t) : t.gnt = s.gnt := (congrArg State.gnt h.eq :)
theorem Quiet.pke {s t : State} (h : Quiet s t) : t.pke = s.pke := (congrArg State.pke h.eq :)
theorem Quiet.ent {s t : State} (h : Quiet s t) : t.ent = s.ent := (congrArg State.ent h.eq :)
theorem Quiet.loam {s t : State} (h : Quiet s t) : t.loam = s.loam := (congrArg State.loam h.eq :)
theorem Quiet.brim {s t : State} (h : Quiet s t) : t.brim = s.brim := (congrArg State.brim h.eq :)
theorem Quiet.mit {s t : State} (h : Quiet s t) : t.mit = s.mit := (congrArg State.mit h.eq :)
theorem Quiet.bcp {s t : State} (h : Quiet s t) : t.bcp = s.bcp := (congrArg State.bcp h.eq :)
theorem Quiet.clk {s t : State} (h : Quiet s t) : t.clk = s.clk := (congrArg State.clk h.eq :)

theorem pmcAddAll_quiet (n : Nat) (ks : List Nat) : ∀ s : State, Quiet s (pmcAddAll n ks s).1 := by
  induction ks with
  | nil => intro s; rfl
  | cons k ks ih => intro s; exact Quiet.trans (t := (pmcAdd s k n).1) rfl (ih _)

theorem vecFire_quiet (s : State) (v : Nat) : Quiet s (vecFire s v) := by
  unfold vecFire
  split <;> rfl

theorem vecRaise_quiet (s : State) (v n : Nat) : Quiet s (vecRaise s v n) := by
  unfold vecRaise
  extract_lets x x1 s1 m
  split
  · exact Quiet.trans (t := s1) rfl (vecFire_quiet _ _)
  · rfl

theorem noteCompl_quiet (s : State) (r : Nat) : Quiet s (noteCompl s r) := by
  unfold noteCompl
  split
  · exact vecRaise_quiet _ _ _
  · rfl

theorem dmaBytes_quiet (s : State) (n : Nat) : Quiet s (dmaBytes s n) :=
  Quiet.trans (t := (pmcAddAll n (pmcCounting s 0x207 31) s).1) (pmcAddAll_quiet _ _ _) rfl

theorem writeCompl_quiet (s : State) (r idx st : Nat) (b : Bytes) : Quiet s (writeCompl s r idx st b) := by
  unfold writeCompl
  extract_lets g size last s1
  refine Quiet.trans (t := dmaBytes s1 32) ?_ (Quiet.trans (t := emit (dmaBytes s1 32) _) rfl (noteCompl_quiet _ _))
  exact Quiet.trans (t := s1) rfl (dmaBytes_quiet _ _)

theorem flushCompl_quiet (n : Nat) : ∀ (s : State) (r : Nat), Quiet s (flushCompl n s r) := by
  induction n with
  | zero => intro s r; rfl
  | succ n ih =>
    intro s r
    unfold flushCompl
    extract_lets g
    split
    · split
      · rfl
      · extract_lets s1
        exact Quiet.trans (t := s1) rfl (Quiet.trans (writeCompl_quiet _ _ _ _ _) (ih _ _))
    · rfl

/-- A completion changes rings, vectors, outputs and performance counters only. -/
theorem complete_quiet (s : State) (r idx st : Nat) (b : Bytes) : Quiet s (complete s r idx st b) := by
  unfold complete
  extract_lets g compl g1
  split
  · exact Quiet.trans (t := setRing s r g1) rfl (flushCompl_quiet _ _ _)
  · rfl

theorem noteRecent_quiet (s : State) (r : Nat) (b : Bytes) : Quiet s (noteRecent s r b) := rfl

theorem writeRecord_quiet (s : State) (r : Nat) (b : Bytes) : Quiet s (writeRecord s r b) := by
  unfold writeRecord
  extract_lets g
  split
  · split
    · exact writeCompl_quiet _ _ _ _ _
    · exact Quiet.bump _ _ _
  · rfl

/-- A performance signal changes the event side only. -/
theorem pmcSignal_quiet (s : State) (sig qual n : Nat) : Quiet s (pmcSignal s sig qual n) := by
  have fold : ∀ (ks : List Nat) (t : State), Quiet s t →
      Quiet s (ks.foldl (fun t _ => raiseN t 369 0 []) t) := by
    intro ks
    induction ks with
    | nil => intro t h; exact h
    | cons k ks ih => intro t h; exact ih _ (h.trans (raiseN_quiet _ _ _ _))
  have h0 := pmcAddAll_quiet n (pmcCounting s sig qual) s
  unfold pmcSignal
  rcases hp : pmcAddAll n (pmcCounting s sig qual) s with ⟨s1, ovfs⟩
  exact fold _ _ (by simpa [hp] using h0)

/-- A write to host memory changes the event side only. -/
theorem hostWrite_quiet (s : State) (r idx addr : Nat) (b : Bytes) : Quiet s (hostWrite s r idx addr b) :=
  Quiet.trans (t := emit s _) rfl (pmcSignal_quiet _ _ _ _)

/-- A read of host memory changes the event side only. -/
theorem hostRead_quiet (s : State) (r idx addr n : Nat) : Quiet s (hostRead s r idx addr n) :=
  Quiet.trans (t := emit s _) rfl (pmcSignal_quiet _ _ _ _)

/-- The overdue PMC_OVF raises change the event side only. -/
theorem raiseOvf_quiet (s : State) : Quiet s (raiseOvf s) := by
  have fold : ∀ (ks : List Nat) (t : State), Quiet s t →
      Quiet s (ks.foldl (fun t _ => raiseN t 369 0 []) t) := by
    intro ks
    induction ks with
    | nil => intro t h; exact h
    | cons k ks ih => intro t h; exact ih _ (h.trans (raiseN_quiet _ _ _ _))
  exact fold _ _ rfl

theorem alarmClear_quiet (s : State) (id : Nat) : Quiet s (alarmClear s id) := by
  unfold alarmClear
  split <;> rfl

theorem storeMask_quiet (s : State) (a m : Nat) (v : Word) : Quiet s (storeMask s a m v) := by
  unfold storeMask
  split <;> rfl

theorem store_quiet (s : State) (a : Nat) (v : Word) : Quiet s (store s a v) := by
  unfold Quiet; rw [store_regs]

section
variable (s : State) (id inst : Nat) (ns : List Nat)
@[simp] theorem raiseN_fuse : (raiseN s id inst ns).fuse = s.fuse := (raiseN_quiet s id inst ns).fuse
@[simp] theorem raiseN_pending : (raiseN s id inst ns).pending = s.pending := (raiseN_quiet s id inst ns).pending
@[simp] theorem raiseN_stat : (raiseN s id inst ns).stat = s.stat := (raiseN_quiet s id inst ns).stat
@[simp] theorem raiseN_statHi : (raiseN s id inst ns).statHi = s.statHi := (raiseN_quiet s id inst ns).statHi
@[simp] theorem raiseN_glb : (raiseN s id inst ns).glb = s.glb := (raiseN_quiet s id inst ns).glb
@[simp] theorem raiseN_tb : (raiseN s id inst ns).tb = s.tb := (raiseN_quiet s id inst ns).tb
@[simp] theorem raiseN_ttOut : (raiseN s id inst ns).ttOut = s.ttOut := (raiseN_quiet s id inst ns).ttOut
@[simp] theorem raiseN_ttIn : (raiseN s id inst ns).ttIn = s.ttIn := (raiseN_quiet s id inst ns).ttIn
@[simp] theorem raiseN_ref : (raiseN s id inst ns).ref = s.ref := (raiseN_quiet s id inst ns).ref
@[simp] theorem raiseN_dpl : (raiseN s id inst ns).dpl = s.dpl := (raiseN_quiet s id inst ns).dpl
@[simp] theorem raiseN_gn : (raiseN s id inst ns).gn = s.gn := (raiseN_quiet s id inst ns).gn
@[simp] theorem raiseN_lp : (raiseN s id inst ns).lp = s.lp := (raiseN_quiet s id inst ns).lp
@[simp] theorem raiseN_mg : (raiseN s id inst ns).mg = s.mg := (raiseN_quiet s id inst ns).mg
@[simp] theorem raiseN_ts : (raiseN s id inst ns).ts = s.ts := (raiseN_quiet s id inst ns).ts
@[simp] theorem raiseN_rsp : (raiseN s id inst ns).rsp = s.rsp := (raiseN_quiet s id inst ns).rsp
@[simp] theorem raiseN_nts : (raiseN s id inst ns).nts = s.nts := (raiseN_quiet s id inst ns).nts
@[simp] theorem raiseN_gnt : (raiseN s id inst ns).gnt = s.gnt := (raiseN_quiet s id inst ns).gnt
@[simp] theorem raiseN_pke : (raiseN s id inst ns).pke = s.pke := (raiseN_quiet s id inst ns).pke
@[simp] theorem raiseN_ent : (raiseN s id inst ns).ent = s.ent := (raiseN_quiet s id inst ns).ent
@[simp] theorem raiseN_loam : (raiseN s id inst ns).loam = s.loam := (raiseN_quiet s id inst ns).loam
@[simp] theorem raiseN_brim : (raiseN s id inst ns).brim = s.brim := (raiseN_quiet s id inst ns).brim
@[simp] theorem raiseN_mit : (raiseN s id inst ns).mit = s.mit := (raiseN_quiet s id inst ns).mit
@[simp] theorem raiseN_bcp : (raiseN s id inst ns).bcp = s.bcp := (raiseN_quiet s id inst ns).bcp
@[simp] theorem raiseN_clk : (raiseN s id inst ns).clk = s.clk := (raiseN_quiet s id inst ns).clk
end

section
variable (s : State) (id inst sev : Nat) (p : Bytes)
@[simp] theorem raiseSev_fuse : (raiseSev s id inst sev p).fuse = s.fuse := (raiseSev_quiet s id inst sev p).fuse
@[simp] theorem raiseSev_pending : (raiseSev s id inst sev p).pending = s.pending := (raiseSev_quiet s id inst sev p).pending
@[simp] theorem raiseSev_stat : (raiseSev s id inst sev p).stat = s.stat := (raiseSev_quiet s id inst sev p).stat
@[simp] theorem raiseSev_statHi : (raiseSev s id inst sev p).statHi = s.statHi := (raiseSev_quiet s id inst sev p).statHi
@[simp] theorem raiseSev_glb : (raiseSev s id inst sev p).glb = s.glb := (raiseSev_quiet s id inst sev p).glb
@[simp] theorem raiseSev_tb : (raiseSev s id inst sev p).tb = s.tb := (raiseSev_quiet s id inst sev p).tb
@[simp] theorem raiseSev_ttOut : (raiseSev s id inst sev p).ttOut = s.ttOut := (raiseSev_quiet s id inst sev p).ttOut
@[simp] theorem raiseSev_ttIn : (raiseSev s id inst sev p).ttIn = s.ttIn := (raiseSev_quiet s id inst sev p).ttIn
@[simp] theorem raiseSev_ref : (raiseSev s id inst sev p).ref = s.ref := (raiseSev_quiet s id inst sev p).ref
@[simp] theorem raiseSev_dpl : (raiseSev s id inst sev p).dpl = s.dpl := (raiseSev_quiet s id inst sev p).dpl
@[simp] theorem raiseSev_gn : (raiseSev s id inst sev p).gn = s.gn := (raiseSev_quiet s id inst sev p).gn
@[simp] theorem raiseSev_lp : (raiseSev s id inst sev p).lp = s.lp := (raiseSev_quiet s id inst sev p).lp
@[simp] theorem raiseSev_mg : (raiseSev s id inst sev p).mg = s.mg := (raiseSev_quiet s id inst sev p).mg
@[simp] theorem raiseSev_ts : (raiseSev s id inst sev p).ts = s.ts := (raiseSev_quiet s id inst sev p).ts
@[simp] theorem raiseSev_rsp : (raiseSev s id inst sev p).rsp = s.rsp := (raiseSev_quiet s id inst sev p).rsp
@[simp] theorem raiseSev_nts : (raiseSev s id inst sev p).nts = s.nts := (raiseSev_quiet s id inst sev p).nts
@[simp] theorem raiseSev_gnt : (raiseSev s id inst sev p).gnt = s.gnt := (raiseSev_quiet s id inst sev p).gnt
@[simp] theorem raiseSev_pke : (raiseSev s id inst sev p).pke = s.pke := (raiseSev_quiet s id inst sev p).pke
@[simp] theorem raiseSev_ent : (raiseSev s id inst sev p).ent = s.ent := (raiseSev_quiet s id inst sev p).ent
@[simp] theorem raiseSev_loam : (raiseSev s id inst sev p).loam = s.loam := (raiseSev_quiet s id inst sev p).loam
@[simp] theorem raiseSev_brim : (raiseSev s id inst sev p).brim = s.brim := (raiseSev_quiet s id inst sev p).brim
@[simp] theorem raiseSev_mit : (raiseSev s id inst sev p).mit = s.mit := (raiseSev_quiet s id inst sev p).mit
@[simp] theorem raiseSev_bcp : (raiseSev s id inst sev p).bcp = s.bcp := (raiseSev_quiet s id inst sev p).bcp
@[simp] theorem raiseSev_clk : (raiseSev s id inst sev p).clk = s.clk := (raiseSev_quiet s id inst sev p).clk
end

section
variable (s : State) (id inst lim : Nat) (ns : List Nat)
@[simp] theorem raiseLim_fuse : (raiseLim s id inst lim ns).fuse = s.fuse := (raiseLim_quiet s id inst lim ns).fuse
@[simp] theorem raiseLim_pending : (raiseLim s id inst lim ns).pending = s.pending := (raiseLim_quiet s id inst lim ns).pending
@[simp] theorem raiseLim_stat : (raiseLim s id inst lim ns).stat = s.stat := (raiseLim_quiet s id inst lim ns).stat
@[simp] theorem raiseLim_statHi : (raiseLim s id inst lim ns).statHi = s.statHi := (raiseLim_quiet s id inst lim ns).statHi
@[simp] theorem raiseLim_glb : (raiseLim s id inst lim ns).glb = s.glb := (raiseLim_quiet s id inst lim ns).glb
@[simp] theorem raiseLim_tb : (raiseLim s id inst lim ns).tb = s.tb := (raiseLim_quiet s id inst lim ns).tb
@[simp] theorem raiseLim_ttOut : (raiseLim s id inst lim ns).ttOut = s.ttOut := (raiseLim_quiet s id inst lim ns).ttOut
@[simp] theorem raiseLim_ttIn : (raiseLim s id inst lim ns).ttIn = s.ttIn := (raiseLim_quiet s id inst lim ns).ttIn
@[simp] theorem raiseLim_ref : (raiseLim s id inst lim ns).ref = s.ref := (raiseLim_quiet s id inst lim ns).ref
@[simp] theorem raiseLim_dpl : (raiseLim s id inst lim ns).dpl = s.dpl := (raiseLim_quiet s id inst lim ns).dpl
@[simp] theorem raiseLim_gn : (raiseLim s id inst lim ns).gn = s.gn := (raiseLim_quiet s id inst lim ns).gn
@[simp] theorem raiseLim_lp : (raiseLim s id inst lim ns).lp = s.lp := (raiseLim_quiet s id inst lim ns).lp
@[simp] theorem raiseLim_mg : (raiseLim s id inst lim ns).mg = s.mg := (raiseLim_quiet s id inst lim ns).mg
@[simp] theorem raiseLim_ts : (raiseLim s id inst lim ns).ts = s.ts := (raiseLim_quiet s id inst lim ns).ts
@[simp] theorem raiseLim_rsp : (raiseLim s id inst lim ns).rsp = s.rsp := (raiseLim_quiet s id inst lim ns).rsp
@[simp] theorem raiseLim_nts : (raiseLim s id inst lim ns).nts = s.nts := (raiseLim_quiet s id inst lim ns).nts
@[simp] theorem raiseLim_gnt : (raiseLim s id inst lim ns).gnt = s.gnt := (raiseLim_quiet s id inst lim ns).gnt
@[simp] theorem raiseLim_pke : (raiseLim s id inst lim ns).pke = s.pke := (raiseLim_quiet s id inst lim ns).pke
@[simp] theorem raiseLim_ent : (raiseLim s id inst lim ns).ent = s.ent := (raiseLim_quiet s id inst lim ns).ent
@[simp] theorem raiseLim_loam : (raiseLim s id inst lim ns).loam = s.loam := (raiseLim_quiet s id inst lim ns).loam
@[simp] theorem raiseLim_brim : (raiseLim s id inst lim ns).brim = s.brim := (raiseLim_quiet s id inst lim ns).brim
@[simp] theorem raiseLim_mit : (raiseLim s id inst lim ns).mit = s.mit := (raiseLim_quiet s id inst lim ns).mit
@[simp] theorem raiseLim_bcp : (raiseLim s id inst lim ns).bcp = s.bcp := (raiseLim_quiet s id inst lim ns).bcp
@[simp] theorem raiseLim_clk : (raiseLim s id inst lim ns).clk = s.clk := (raiseLim_quiet s id inst lim ns).clk
end

section
variable (s : State) (a n : Nat)
@[simp] theorem bump_fuse : (bump s a n).fuse = s.fuse := (Quiet.bump s a n).fuse
@[simp] theorem bump_pending : (bump s a n).pending = s.pending := (Quiet.bump s a n).pending
@[simp] theorem bump_stat : (bump s a n).stat = s.stat := (Quiet.bump s a n).stat
@[simp] theorem bump_statHi : (bump s a n).statHi = s.statHi := (Quiet.bump s a n).statHi
@[simp] theorem bump_glb : (bump s a n).glb = s.glb := (Quiet.bump s a n).glb
@[simp] theorem bump_tb : (bump s a n).tb = s.tb := (Quiet.bump s a n).tb
@[simp] theorem bump_ttOut : (bump s a n).ttOut = s.ttOut := (Quiet.bump s a n).ttOut
@[simp] theorem bump_ttIn : (bump s a n).ttIn = s.ttIn := (Quiet.bump s a n).ttIn
@[simp] theorem bump_ref : (bump s a n).ref = s.ref := (Quiet.bump s a n).ref
@[simp] theorem bump_dpl : (bump s a n).dpl = s.dpl := (Quiet.bump s a n).dpl
@[simp] theorem bump_gn : (bump s a n).gn = s.gn := (Quiet.bump s a n).gn
@[simp] theorem bump_lp : (bump s a n).lp = s.lp := (Quiet.bump s a n).lp
@[simp] theorem bump_mg : (bump s a n).mg = s.mg := (Quiet.bump s a n).mg
@[simp] theorem bump_ts : (bump s a n).ts = s.ts := (Quiet.bump s a n).ts
@[simp] theorem bump_rsp : (bump s a n).rsp = s.rsp := (Quiet.bump s a n).rsp
@[simp] theorem bump_nts : (bump s a n).nts = s.nts := (Quiet.bump s a n).nts
@[simp] theorem bump_gnt : (bump s a n).gnt = s.gnt := (Quiet.bump s a n).gnt
@[simp] theorem bump_pke : (bump s a n).pke = s.pke := (Quiet.bump s a n).pke
@[simp] theorem bump_ent : (bump s a n).ent = s.ent := (Quiet.bump s a n).ent
@[simp] theorem bump_loam : (bump s a n).loam = s.loam := (Quiet.bump s a n).loam
@[simp] theorem bump_brim : (bump s a n).brim = s.brim := (Quiet.bump s a n).brim
@[simp] theorem bump_mit : (bump s a n).mit = s.mit := (Quiet.bump s a n).mit
@[simp] theorem bump_bcp : (bump s a n).bcp = s.bcp := (Quiet.bump s a n).bcp
@[simp] theorem bump_clk : (bump s a n).clk = s.clk := (Quiet.bump s a n).clk
end

section
variable (s : State) (id : Nat)
@[simp] theorem alarmClear_fuse : (alarmClear s id).fuse = s.fuse := (alarmClear_quiet s id).fuse
@[simp] theorem alarmClear_pending : (alarmClear s id).pending = s.pending := (alarmClear_quiet s id).pending
@[simp] theorem alarmClear_stat : (alarmClear s id).stat = s.stat := (alarmClear_quiet s id).stat
@[simp] theorem alarmClear_statHi : (alarmClear s id).statHi = s.statHi := (alarmClear_quiet s id).statHi
@[simp] theorem alarmClear_glb : (alarmClear s id).glb = s.glb := (alarmClear_quiet s id).glb
@[simp] theorem alarmClear_tb : (alarmClear s id).tb = s.tb := (alarmClear_quiet s id).tb
@[simp] theorem alarmClear_ttOut : (alarmClear s id).ttOut = s.ttOut := (alarmClear_quiet s id).ttOut
@[simp] theorem alarmClear_ttIn : (alarmClear s id).ttIn = s.ttIn := (alarmClear_quiet s id).ttIn
@[simp] theorem alarmClear_ref : (alarmClear s id).ref = s.ref := (alarmClear_quiet s id).ref
@[simp] theorem alarmClear_dpl : (alarmClear s id).dpl = s.dpl := (alarmClear_quiet s id).dpl
@[simp] theorem alarmClear_gn : (alarmClear s id).gn = s.gn := (alarmClear_quiet s id).gn
@[simp] theorem alarmClear_lp : (alarmClear s id).lp = s.lp := (alarmClear_quiet s id).lp
@[simp] theorem alarmClear_mg : (alarmClear s id).mg = s.mg := (alarmClear_quiet s id).mg
@[simp] theorem alarmClear_ts : (alarmClear s id).ts = s.ts := (alarmClear_quiet s id).ts
@[simp] theorem alarmClear_rsp : (alarmClear s id).rsp = s.rsp := (alarmClear_quiet s id).rsp
@[simp] theorem alarmClear_nts : (alarmClear s id).nts = s.nts := (alarmClear_quiet s id).nts
@[simp] theorem alarmClear_gnt : (alarmClear s id).gnt = s.gnt := (alarmClear_quiet s id).gnt
@[simp] theorem alarmClear_pke : (alarmClear s id).pke = s.pke := (alarmClear_quiet s id).pke
@[simp] theorem alarmClear_ent : (alarmClear s id).ent = s.ent := (alarmClear_quiet s id).ent
@[simp] theorem alarmClear_loam : (alarmClear s id).loam = s.loam := (alarmClear_quiet s id).loam
@[simp] theorem alarmClear_brim : (alarmClear s id).brim = s.brim := (alarmClear_quiet s id).brim
@[simp] theorem alarmClear_mit : (alarmClear s id).mit = s.mit := (alarmClear_quiet s id).mit
@[simp] theorem alarmClear_bcp : (alarmClear s id).bcp = s.bcp := (alarmClear_quiet s id).bcp
@[simp] theorem alarmClear_clk : (alarmClear s id).clk = s.clk := (alarmClear_quiet s id).clk
end

section
variable (s : State) (r idx st : Nat) (b : Bytes)
@[simp] theorem complete_fuse : (complete s r idx st b).fuse = s.fuse := (complete_quiet s r idx st b).fuse
@[simp] theorem complete_pending : (complete s r idx st b).pending = s.pending := (complete_quiet s r idx st b).pending
@[simp] theorem complete_stat : (complete s r idx st b).stat = s.stat := (complete_quiet s r idx st b).stat
@[simp] theorem complete_statHi : (complete s r idx st b).statHi = s.statHi := (complete_quiet s r idx st b).statHi
@[simp] theorem complete_glb : (complete s r idx st b).glb = s.glb := (complete_quiet s r idx st b).glb
@[simp] theorem complete_tb : (complete s r idx st b).tb = s.tb := (complete_quiet s r idx st b).tb
@[simp] theorem complete_ttOut : (complete s r idx st b).ttOut = s.ttOut := (complete_quiet s r idx st b).ttOut
@[simp] theorem complete_ttIn : (complete s r idx st b).ttIn = s.ttIn := (complete_quiet s r idx st b).ttIn
@[simp] theorem complete_ref : (complete s r idx st b).ref = s.ref := (complete_quiet s r idx st b).ref
@[simp] theorem complete_dpl : (complete s r idx st b).dpl = s.dpl := (complete_quiet s r idx st b).dpl
@[simp] theorem complete_gn : (complete s r idx st b).gn = s.gn := (complete_quiet s r idx st b).gn
@[simp] theorem complete_lp : (complete s r idx st b).lp = s.lp := (complete_quiet s r idx st b).lp
@[simp] theorem complete_mg : (complete s r idx st b).mg = s.mg := (complete_quiet s r idx st b).mg
@[simp] theorem complete_ts : (complete s r idx st b).ts = s.ts := (complete_quiet s r idx st b).ts
@[simp] theorem complete_rsp : (complete s r idx st b).rsp = s.rsp := (complete_quiet s r idx st b).rsp
@[simp] theorem complete_nts : (complete s r idx st b).nts = s.nts := (complete_quiet s r idx st b).nts
@[simp] theorem complete_gnt : (complete s r idx st b).gnt = s.gnt := (complete_quiet s r idx st b).gnt
@[simp] theorem complete_pke : (complete s r idx st b).pke = s.pke := (complete_quiet s r idx st b).pke
@[simp] theorem complete_ent : (complete s r idx st b).ent = s.ent := (complete_quiet s r idx st b).ent
@[simp] theorem complete_loam : (complete s r idx st b).loam = s.loam := (complete_quiet s r idx st b).loam
@[simp] theorem complete_brim : (complete s r idx st b).brim = s.brim := (complete_quiet s r idx st b).brim
@[simp] theorem complete_mit : (complete s r idx st b).mit = s.mit := (complete_quiet s r idx st b).mit
@[simp] theorem complete_bcp : (complete s r idx st b).bcp = s.bcp := (complete_quiet s r idx st b).bcp
@[simp] theorem complete_clk : (complete s r idx st b).clk = s.clk := (complete_quiet s r idx st b).clk
end

section
variable (s : State) (r : Nat) (b : Bytes)
@[simp] theorem writeRecord_fuse : (writeRecord s r b).fuse = s.fuse := (writeRecord_quiet s r b).fuse
@[simp] theorem writeRecord_pending : (writeRecord s r b).pending = s.pending := (writeRecord_quiet s r b).pending
@[simp] theorem writeRecord_stat : (writeRecord s r b).stat = s.stat := (writeRecord_quiet s r b).stat
@[simp] theorem writeRecord_statHi : (writeRecord s r b).statHi = s.statHi := (writeRecord_quiet s r b).statHi
@[simp] theorem writeRecord_glb : (writeRecord s r b).glb = s.glb := (writeRecord_quiet s r b).glb
@[simp] theorem writeRecord_tb : (writeRecord s r b).tb = s.tb := (writeRecord_quiet s r b).tb
@[simp] theorem writeRecord_ttOut : (writeRecord s r b).ttOut = s.ttOut := (writeRecord_quiet s r b).ttOut
@[simp] theorem writeRecord_ttIn : (writeRecord s r b).ttIn = s.ttIn := (writeRecord_quiet s r b).ttIn
@[simp] theorem writeRecord_ref : (writeRecord s r b).ref = s.ref := (writeRecord_quiet s r b).ref
@[simp] theorem writeRecord_dpl : (writeRecord s r b).dpl = s.dpl := (writeRecord_quiet s r b).dpl
@[simp] theorem writeRecord_gn : (writeRecord s r b).gn = s.gn := (writeRecord_quiet s r b).gn
@[simp] theorem writeRecord_lp : (writeRecord s r b).lp = s.lp := (writeRecord_quiet s r b).lp
@[simp] theorem writeRecord_mg : (writeRecord s r b).mg = s.mg := (writeRecord_quiet s r b).mg
@[simp] theorem writeRecord_ts : (writeRecord s r b).ts = s.ts := (writeRecord_quiet s r b).ts
@[simp] theorem writeRecord_rsp : (writeRecord s r b).rsp = s.rsp := (writeRecord_quiet s r b).rsp
@[simp] theorem writeRecord_nts : (writeRecord s r b).nts = s.nts := (writeRecord_quiet s r b).nts
@[simp] theorem writeRecord_gnt : (writeRecord s r b).gnt = s.gnt := (writeRecord_quiet s r b).gnt
@[simp] theorem writeRecord_pke : (writeRecord s r b).pke = s.pke := (writeRecord_quiet s r b).pke
@[simp] theorem writeRecord_ent : (writeRecord s r b).ent = s.ent := (writeRecord_quiet s r b).ent
@[simp] theorem writeRecord_loam : (writeRecord s r b).loam = s.loam := (writeRecord_quiet s r b).loam
@[simp] theorem writeRecord_brim : (writeRecord s r b).brim = s.brim := (writeRecord_quiet s r b).brim
@[simp] theorem writeRecord_mit : (writeRecord s r b).mit = s.mit := (writeRecord_quiet s r b).mit
@[simp] theorem writeRecord_bcp : (writeRecord s r b).bcp = s.bcp := (writeRecord_quiet s r b).bcp
@[simp] theorem writeRecord_clk : (writeRecord s r b).clk = s.clk := (writeRecord_quiet s r b).clk
end

section
variable (s : State) (sig qual n : Nat)
@[simp] theorem pmcSignal_fuse : (pmcSignal s sig qual n).fuse = s.fuse := (pmcSignal_quiet s sig qual n).fuse
@[simp] theorem pmcSignal_pending : (pmcSignal s sig qual n).pending = s.pending := (pmcSignal_quiet s sig qual n).pending
@[simp] theorem pmcSignal_stat : (pmcSignal s sig qual n).stat = s.stat := (pmcSignal_quiet s sig qual n).stat
@[simp] theorem pmcSignal_statHi : (pmcSignal s sig qual n).statHi = s.statHi := (pmcSignal_quiet s sig qual n).statHi
@[simp] theorem pmcSignal_glb : (pmcSignal s sig qual n).glb = s.glb := (pmcSignal_quiet s sig qual n).glb
@[simp] theorem pmcSignal_tb : (pmcSignal s sig qual n).tb = s.tb := (pmcSignal_quiet s sig qual n).tb
@[simp] theorem pmcSignal_ttOut : (pmcSignal s sig qual n).ttOut = s.ttOut := (pmcSignal_quiet s sig qual n).ttOut
@[simp] theorem pmcSignal_ttIn : (pmcSignal s sig qual n).ttIn = s.ttIn := (pmcSignal_quiet s sig qual n).ttIn
@[simp] theorem pmcSignal_ref : (pmcSignal s sig qual n).ref = s.ref := (pmcSignal_quiet s sig qual n).ref
@[simp] theorem pmcSignal_dpl : (pmcSignal s sig qual n).dpl = s.dpl := (pmcSignal_quiet s sig qual n).dpl
@[simp] theorem pmcSignal_gn : (pmcSignal s sig qual n).gn = s.gn := (pmcSignal_quiet s sig qual n).gn
@[simp] theorem pmcSignal_lp : (pmcSignal s sig qual n).lp = s.lp := (pmcSignal_quiet s sig qual n).lp
@[simp] theorem pmcSignal_mg : (pmcSignal s sig qual n).mg = s.mg := (pmcSignal_quiet s sig qual n).mg
@[simp] theorem pmcSignal_ts : (pmcSignal s sig qual n).ts = s.ts := (pmcSignal_quiet s sig qual n).ts
@[simp] theorem pmcSignal_rsp : (pmcSignal s sig qual n).rsp = s.rsp := (pmcSignal_quiet s sig qual n).rsp
@[simp] theorem pmcSignal_nts : (pmcSignal s sig qual n).nts = s.nts := (pmcSignal_quiet s sig qual n).nts
@[simp] theorem pmcSignal_gnt : (pmcSignal s sig qual n).gnt = s.gnt := (pmcSignal_quiet s sig qual n).gnt
@[simp] theorem pmcSignal_pke : (pmcSignal s sig qual n).pke = s.pke := (pmcSignal_quiet s sig qual n).pke
@[simp] theorem pmcSignal_ent : (pmcSignal s sig qual n).ent = s.ent := (pmcSignal_quiet s sig qual n).ent
@[simp] theorem pmcSignal_loam : (pmcSignal s sig qual n).loam = s.loam := (pmcSignal_quiet s sig qual n).loam
@[simp] theorem pmcSignal_brim : (pmcSignal s sig qual n).brim = s.brim := (pmcSignal_quiet s sig qual n).brim
@[simp] theorem pmcSignal_mit : (pmcSignal s sig qual n).mit = s.mit := (pmcSignal_quiet s sig qual n).mit
@[simp] theorem pmcSignal_bcp : (pmcSignal s sig qual n).bcp = s.bcp := (pmcSignal_quiet s sig qual n).bcp
@[simp] theorem pmcSignal_clk : (pmcSignal s sig qual n).clk = s.clk := (pmcSignal_quiet s sig qual n).clk
end

section
variable (s : State) (a m : Nat) (v : Word)
@[simp] theorem storeMask_fuse : (storeMask s a m v).fuse = s.fuse := (storeMask_quiet s a m v).fuse
@[simp] theorem storeMask_pending : (storeMask s a m v).pending = s.pending := (storeMask_quiet s a m v).pending
@[simp] theorem storeMask_stat : (storeMask s a m v).stat = s.stat := (storeMask_quiet s a m v).stat
@[simp] theorem storeMask_statHi : (storeMask s a m v).statHi = s.statHi := (storeMask_quiet s a m v).statHi
@[simp] theorem storeMask_glb : (storeMask s a m v).glb = s.glb := (storeMask_quiet s a m v).glb
@[simp] theorem storeMask_tb : (storeMask s a m v).tb = s.tb := (storeMask_quiet s a m v).tb
@[simp] theorem storeMask_ttOut : (storeMask s a m v).ttOut = s.ttOut := (storeMask_quiet s a m v).ttOut
@[simp] theorem storeMask_ttIn : (storeMask s a m v).ttIn = s.ttIn := (storeMask_quiet s a m v).ttIn
@[simp] theorem storeMask_ref : (storeMask s a m v).ref = s.ref := (storeMask_quiet s a m v).ref
@[simp] theorem storeMask_dpl : (storeMask s a m v).dpl = s.dpl := (storeMask_quiet s a m v).dpl
@[simp] theorem storeMask_gn : (storeMask s a m v).gn = s.gn := (storeMask_quiet s a m v).gn
@[simp] theorem storeMask_lp : (storeMask s a m v).lp = s.lp := (storeMask_quiet s a m v).lp
@[simp] theorem storeMask_mg : (storeMask s a m v).mg = s.mg := (storeMask_quiet s a m v).mg
@[simp] theorem storeMask_ts : (storeMask s a m v).ts = s.ts := (storeMask_quiet s a m v).ts
@[simp] theorem storeMask_rsp : (storeMask s a m v).rsp = s.rsp := (storeMask_quiet s a m v).rsp
@[simp] theorem storeMask_nts : (storeMask s a m v).nts = s.nts := (storeMask_quiet s a m v).nts
@[simp] theorem storeMask_gnt : (storeMask s a m v).gnt = s.gnt := (storeMask_quiet s a m v).gnt
@[simp] theorem storeMask_pke : (storeMask s a m v).pke = s.pke := (storeMask_quiet s a m v).pke
@[simp] theorem storeMask_ent : (storeMask s a m v).ent = s.ent := (storeMask_quiet s a m v).ent
@[simp] theorem storeMask_loam : (storeMask s a m v).loam = s.loam := (storeMask_quiet s a m v).loam
@[simp] theorem storeMask_brim : (storeMask s a m v).brim = s.brim := (storeMask_quiet s a m v).brim
@[simp] theorem storeMask_mit : (storeMask s a m v).mit = s.mit := (storeMask_quiet s a m v).mit
@[simp] theorem storeMask_bcp : (storeMask s a m v).bcp = s.bcp := (storeMask_quiet s a m v).bcp
@[simp] theorem storeMask_clk : (storeMask s a m v).clk = s.clk := (storeMask_quiet s a m v).clk
end

section
variable (s : State) (a : Nat) (v : Word)
@[simp] theorem store_fuse : (store s a v).fuse = s.fuse := (store_quiet s a v).fuse
@[simp] theorem store_pending : (store s a v).pending = s.pending := (store_quiet s a v).pending
@[simp] theorem store_stat : (store s a v).stat = s.stat := (store_quiet s a v).stat
@[simp] theorem store_statHi : (store s a v).statHi = s.statHi := (store_quiet s a v).statHi
@[simp] theorem store_glb : (store s a v).glb = s.glb := (store_quiet s a v).glb
@[simp] theorem store_tb : (store s a v).tb = s.tb := (store_quiet s a v).tb
@[simp] theorem store_ttOut : (store s a v).ttOut = s.ttOut := (store_quiet s a v).ttOut
@[simp] theorem store_ttIn : (store s a v).ttIn = s.ttIn := (store_quiet s a v).ttIn
@[simp] theorem store_ref : (store s a v).ref = s.ref := (store_quiet s a v).ref
@[simp] theorem store_dpl : (store s a v).dpl = s.dpl := (store_quiet s a v).dpl
@[simp] theorem store_gn : (store s a v).gn = s.gn := (store_quiet s a v).gn
@[simp] theorem store_lp : (store s a v).lp = s.lp := (store_quiet s a v).lp
@[simp] theorem store_mg : (store s a v).mg = s.mg := (store_quiet s a v).mg
@[simp] theorem store_ts : (store s a v).ts = s.ts := (store_quiet s a v).ts
@[simp] theorem store_rsp : (store s a v).rsp = s.rsp := (store_quiet s a v).rsp
@[simp] theorem store_nts : (store s a v).nts = s.nts := (store_quiet s a v).nts
@[simp] theorem store_gnt : (store s a v).gnt = s.gnt := (store_quiet s a v).gnt
@[simp] theorem store_pke : (store s a v).pke = s.pke := (store_quiet s a v).pke
@[simp] theorem store_ent : (store s a v).ent = s.ent := (store_quiet s a v).ent
@[simp] theorem store_loam : (store s a v).loam = s.loam := (store_quiet s a v).loam
@[simp] theorem store_brim : (store s a v).brim = s.brim := (store_quiet s a v).brim
@[simp] theorem store_mit : (store s a v).mit = s.mit := (store_quiet s a v).mit
@[simp] theorem store_bcp : (store s a v).bcp = s.bcp := (store_quiet s a v).bcp
@[simp] theorem store_clk : (store s a v).clk = s.clk := (store_quiet s a v).clk
end

section
variable (s : State) (r : Nat)
@[simp] theorem dmaError_fuse : (dmaError s r).fuse = s.fuse := (dmaError_quiet s r).fuse
@[simp] theorem dmaError_pending : (dmaError s r).pending = s.pending := (dmaError_quiet s r).pending
@[simp] theorem dmaError_stat : (dmaError s r).stat = s.stat := (dmaError_quiet s r).stat
@[simp] theorem dmaError_statHi : (dmaError s r).statHi = s.statHi := (dmaError_quiet s r).statHi
@[simp] theorem dmaError_glb : (dmaError s r).glb = s.glb := (dmaError_quiet s r).glb
@[simp] theorem dmaError_tb : (dmaError s r).tb = s.tb := (dmaError_quiet s r).tb
@[simp] theorem dmaError_ttOut : (dmaError s r).ttOut = s.ttOut := (dmaError_quiet s r).ttOut
@[simp] theorem dmaError_ttIn : (dmaError s r).ttIn = s.ttIn := (dmaError_quiet s r).ttIn
@[simp] theorem dmaError_ref : (dmaError s r).ref = s.ref := (dmaError_quiet s r).ref
@[simp] theorem dmaError_dpl : (dmaError s r).dpl = s.dpl := (dmaError_quiet s r).dpl
@[simp] theorem dmaError_gn : (dmaError s r).gn = s.gn := (dmaError_quiet s r).gn
@[simp] theorem dmaError_lp : (dmaError s r).lp = s.lp := (dmaError_quiet s r).lp
@[simp] theorem dmaError_mg : (dmaError s r).mg = s.mg := (dmaError_quiet s r).mg
@[simp] theorem dmaError_ts : (dmaError s r).ts = s.ts := (dmaError_quiet s r).ts
@[simp] theorem dmaError_rsp : (dmaError s r).rsp = s.rsp := (dmaError_quiet s r).rsp
@[simp] theorem dmaError_nts : (dmaError s r).nts = s.nts := (dmaError_quiet s r).nts
@[simp] theorem dmaError_gnt : (dmaError s r).gnt = s.gnt := (dmaError_quiet s r).gnt
@[simp] theorem dmaError_pke : (dmaError s r).pke = s.pke := (dmaError_quiet s r).pke
@[simp] theorem dmaError_ent : (dmaError s r).ent = s.ent := (dmaError_quiet s r).ent
@[simp] theorem dmaError_loam : (dmaError s r).loam = s.loam := (dmaError_quiet s r).loam
@[simp] theorem dmaError_brim : (dmaError s r).brim = s.brim := (dmaError_quiet s r).brim
@[simp] theorem dmaError_mit : (dmaError s r).mit = s.mit := (dmaError_quiet s r).mit
@[simp] theorem dmaError_bcp : (dmaError s r).bcp = s.bcp := (dmaError_quiet s r).bcp
@[simp] theorem dmaError_clk : (dmaError s r).clk = s.clk := (dmaError_quiet s r).clk
end

section
variable (s : State) 
@[simp] theorem accessError_fuse : (accessError s).fuse = s.fuse := (accessError_quiet s).fuse
@[simp] theorem accessError_pending : (accessError s).pending = s.pending := (accessError_quiet s).pending
@[simp] theorem accessError_stat : (accessError s).stat = s.stat := (accessError_quiet s).stat
@[simp] theorem accessError_statHi : (accessError s).statHi = s.statHi := (accessError_quiet s).statHi
@[simp] theorem accessError_glb : (accessError s).glb = s.glb := (accessError_quiet s).glb
@[simp] theorem accessError_tb : (accessError s).tb = s.tb := (accessError_quiet s).tb
@[simp] theorem accessError_ttOut : (accessError s).ttOut = s.ttOut := (accessError_quiet s).ttOut
@[simp] theorem accessError_ttIn : (accessError s).ttIn = s.ttIn := (accessError_quiet s).ttIn
@[simp] theorem accessError_ref : (accessError s).ref = s.ref := (accessError_quiet s).ref
@[simp] theorem accessError_dpl : (accessError s).dpl = s.dpl := (accessError_quiet s).dpl
@[simp] theorem accessError_gn : (accessError s).gn = s.gn := (accessError_quiet s).gn
@[simp] theorem accessError_lp : (accessError s).lp = s.lp := (accessError_quiet s).lp
@[simp] theorem accessError_mg : (accessError s).mg = s.mg := (accessError_quiet s).mg
@[simp] theorem accessError_ts : (accessError s).ts = s.ts := (accessError_quiet s).ts
@[simp] theorem accessError_rsp : (accessError s).rsp = s.rsp := (accessError_quiet s).rsp
@[simp] theorem accessError_nts : (accessError s).nts = s.nts := (accessError_quiet s).nts
@[simp] theorem accessError_gnt : (accessError s).gnt = s.gnt := (accessError_quiet s).gnt
@[simp] theorem accessError_pke : (accessError s).pke = s.pke := (accessError_quiet s).pke
@[simp] theorem accessError_ent : (accessError s).ent = s.ent := (accessError_quiet s).ent
@[simp] theorem accessError_loam : (accessError s).loam = s.loam := (accessError_quiet s).loam
@[simp] theorem accessError_brim : (accessError s).brim = s.brim := (accessError_quiet s).brim
@[simp] theorem accessError_mit : (accessError s).mit = s.mit := (accessError_quiet s).mit
@[simp] theorem accessError_bcp : (accessError s).bcp = s.bcp := (accessError_quiet s).bcp
@[simp] theorem accessError_clk : (accessError s).clk = s.clk := (accessError_quiet s).clk
end

/-! ## Reading back what was placed -/

@[simp] theorem portOf_setPort (s : State) (k : Nat) (x : LpPort) : portOf (setPort s k x) k = x := by
  simp [portOf, setPort]

theorem portOf_setPort_ne (s : State) {k j : Nat} (x : LpPort) (h : j ≠ k) : portOf (setPort s k x) j = portOf s j := by
  simp [portOf, setPort, tget_tset_ne _ _ _ h]

@[simp] theorem candOf_setCand (s : State) (k : Nat) (x : Cand) : candOf (setCand s k x) k = x := by
  simp [candOf, setCand]

theorem candOf_setCand_ne (s : State) {k j : Nat} (x : Cand) (h : j ≠ k) : candOf (setCand s k x) j = candOf s j := by
  simp [candOf, setCand, tget_tset_ne _ _ _ h]

@[simp] theorem ppsOf_setPps (s : State) (k : Nat) (x : PpsIn) : ppsOf (setPps s k x) k = x := by
  simp [ppsOf, setPps]

theorem ppsOf_setPps_ne (s : State) {k j : Nat} (x : PpsIn) (h : j ≠ k) : ppsOf (setPps s k x) j = ppsOf s j := by
  simp [ppsOf, setPps, tget_tset_ne _ _ _ h]

@[simp] theorem dpllOf_setDpll (s : State) (k : Nat) (x : Dpll) : dpllOf (setDpll s k x) k = x := by
  simp [dpllOf, setDpll]

theorem dpllOf_setDpll_ne (s : State) {k j : Nat} (x : Dpll) (h : j ≠ k) : dpllOf (setDpll s k x) j = dpllOf s j := by
  simp [dpllOf, setDpll, tget_tset_ne _ _ _ h]

@[simp] theorem chanOf_setChan (s : State) (k : Nat) (x : Chan) : chanOf (setChan s k x) k = x := by
  simp [chanOf, setChan]

theorem chanOf_setChan_ne (s : State) {k j : Nat} (x : Chan) (h : j ≠ k) : chanOf (setChan s k x) j = chanOf s j := by
  simp [chanOf, setChan, tget_tset_ne _ _ _ h]

@[simp] theorem bandOf_setBand (s : State) (k : Nat) (x : Band) : bandOf (setBand s k x) k = x := by
  simp [bandOf, setBand]

theorem bandOf_setBand_ne (s : State) {k j : Nat} (x : Band) (h : j ≠ k) : bandOf (setBand s k x) j = bandOf s j := by
  simp [bandOf, setBand, tget_tset_ne _ _ _ h]

@[simp] theorem laneOf_setLane (s : State) (k : Nat) (x : Lane) : laneOf (setLane s k x) k = x := by
  simp [laneOf, setLane]

theorem laneOf_setLane_ne (s : State) {k j : Nat} (x : Lane) (h : j ≠ k) : laneOf (setLane s k x) j = laneOf s j := by
  simp [laneOf, setLane, tget_tset_ne _ _ _ h]

@[simp] theorem tsPort_setTsPort (s : State) (k : Nat) (x : TsPort) : tsPort (setTsPort s k x) k = x := by
  simp [tsPort, setTsPort]

theorem tsPort_setTsPort_ne (s : State) {k j : Nat} (x : TsPort) (h : j ≠ k) : tsPort (setTsPort s k x) j = tsPort s j := by
  simp [tsPort, setTsPort, tget_tset_ne _ _ _ h]

@[simp] theorem grantOf_setGrant (s : State) (k : Nat) (x : Grant) : grantOf (setGrant s k x) k = x := by
  simp [grantOf, setGrant]

theorem grantOf_setGrant_ne (s : State) {k j : Nat} (x : Grant) (h : j ≠ k) : grantOf (setGrant s k x) j = grantOf s j := by
  simp [grantOf, setGrant, tget_tset_ne _ _ _ h]

@[simp] theorem ttOutOf_setTtOut (s : State) (k : Nat) (x : TtOut) : ttOutOf (setTtOut s k x) k = x := by
  simp [ttOutOf, setTtOut]

theorem ttOutOf_setTtOut_ne (s : State) {k j : Nat} (x : TtOut) (h : j ≠ k) : ttOutOf (setTtOut s k x) j = ttOutOf s j := by
  simp [ttOutOf, setTtOut, tget_tset_ne _ _ _ h]

@[simp] theorem ttInOf_setTtIn (s : State) (k : Nat) (x : TtIn) : ttInOf (setTtIn s k x) k = x := by
  simp [ttInOf, setTtIn]

theorem ttInOf_setTtIn_ne (s : State) {k j : Nat} (x : TtIn) (h : j ≠ k) : ttInOf (setTtIn s k x) j = ttInOf s j := by
  simp [ttInOf, setTtIn, tget_tset_ne _ _ _ h]

@[simp] theorem ringOf_setRing (s : State) (k : Nat) (x : Ring) : ringOf (setRing s k x) k = x := by
  simp [ringOf, setRing]

theorem ringOf_setRing_ne (s : State) {k j : Nat} (x : Ring) (h : j ≠ k) : ringOf (setRing s k x) j = ringOf s j := by
  simp [ringOf, setRing, tget_tset_ne _ _ _ h]

@[simp] theorem vecOf_setVec (s : State) (k : Nat) (x : Vec) : vecOf (setVec s k x) k = x := by
  simp [vecOf, setVec]

theorem vecOf_setVec_ne (s : State) {k j : Nat} (x : Vec) (h : j ≠ k) : vecOf (setVec s k x) j = vecOf s j := by
  simp [vecOf, setVec, tget_tset_ne _ _ _ h]

@[simp] theorem pmcOf_setPmc (s : State) (k : Nat) (x : PmcCnt) : pmcOf (setPmc s k x) k = x := by
  simp [pmcOf, setPmc]

theorem pmcOf_setPmc_ne (s : State) {k j : Nat} (x : PmcCnt) (h : j ≠ k) : pmcOf (setPmc s k x) j = pmcOf s j := by
  simp [pmcOf, setPmc, tget_tset_ne _ _ _ h]

@[simp] theorem coreOf_setCore (s : State) (k : Nat) (x : Core) : coreOf (setCore s k x) k = x := by
  simp [coreOf, setCore]

theorem coreOf_setCore_ne (s : State) {k j : Nat} (x : Core) (h : j ≠ k) : coreOf (setCore s k x) j = coreOf s j := by
  simp [coreOf, setCore, tget_tset_ne _ _ _ h]

@[simp] theorem siltOf_setSilt (s : State) (k : Nat) (x : Silt) : siltOf (setSilt s k x) k = x := by
  simp [siltOf, setSilt]

theorem siltOf_setSilt_ne (s : State) {k j : Nat} (x : Silt) (h : j ≠ k) : siltOf (setSilt s k x) j = siltOf s j := by
  simp [siltOf, setSilt, tget_tset_ne _ _ _ h]

@[simp] theorem i2cOf_setI2c (s : State) (k : Nat) (x : I2c) : i2cOf (setI2c s k x) k = x := by
  simp [i2cOf, setI2c]

theorem i2cOf_setI2c_ne (s : State) {k j : Nat} (x : I2c) (h : j ≠ k) : i2cOf (setI2c s k x) j = i2cOf s j := by
  simp [i2cOf, setI2c, tget_tset_ne _ _ _ h]

@[simp] theorem slotKeyOf_setSlotKey (s : State) (k : Nat) (x : Bytes) : slotKeyOf (setSlotKey s k x) k = x := by
  simp [slotKeyOf, setSlotKey]

theorem slotKeyOf_setSlotKey_ne (s : State) {k j : Nat} (x : Bytes) (h : j ≠ k) : slotKeyOf (setSlotKey s k x) j = slotKeyOf s j := by
  simp [slotKeyOf, setSlotKey, tget_tset_ne _ _ _ h]

@[simp] theorem portFused_setUnit (s : State) (k x j : Nat) : portFused (setUnit s k x) j = portFused s j := rfl

@[simp] theorem unitState_setUnit (s : State) (k : Nat) (x : Nat) :
    unitState (setUnit s k x) k = if 45 ≤ k ∧ k < 61 ∧ portFused s (k - 45) = true then 3 else x := by
  unfold unitState
  rw [portFused_setUnit]
  simp [setUnit]

theorem unitState_setUnit_ne (s : State) {k j : Nat} (x : Nat) (h : j ≠ k) : unitState (setUnit s k x) j = unitState s j := by
  unfold unitState
  rw [portFused_setUnit]
  simp [setUnit, tget_tset_ne _ _ _ h]

@[simp] theorem creditOf_setCredit (s : State) (k : Nat) (x : Nat) : creditOf (setCredit s k x) k = x := by
  simp [creditOf, setCredit]

theorem creditOf_setCredit_ne (s : State) {k j : Nat} (x : Nat) (h : j ≠ k) : creditOf (setCredit s k x) j = creditOf s j := by
  simp [creditOf, setCredit, tget_tset_ne _ _ _ h]

end Sys2Proof.Machine
end

