-- ==== Sys2Proof/WellFormed.lean ====
section
/-! DEFINITION. Which commands are well formed: the addresses and lengths that the operand types do not bound. -/

namespace Sys2Proof

/-- An aligned word address of the 32 MiB BAR0 window (R9, R301). -/
def bar0Word (a : Nat) : Bool := decide (a < 0x2000000) && decide (a % 4 = 0)

/-- A descriptor is 32 bytes (R304). -/
def descLength (d : Bytes) : Bool := decide (d.length = 32)

/-- An exchange-RAM access has at least one byte and starts inside the 64 KiB window (R301); what R440 does not allow is an
access all the same, and is counted (R9). -/
def xramOk (o w : Nat) : Bool := decide (1 ≤ w) && decide (o < 65536)

/-- Well-formedness of a command. -/
def Instr.wf : Instr → Bool
  | .registerWrite b a _ => decide (b = .bar2) || bar0Word a
  | .dropCounterClear a => bar0Word a
  | .statCounterRead b a => decide (b = .bar2) || bar0Word a
  | .hifDescFetch _ d _ => descLength d
  | .xramAccess o w _ => xramOk o w
  | .frameReceived _ f _ _ => decide (1 ≤ f.length)
  | .gnFeTransferDone b => decide (b.length ≤ 8)
  | .i2ctWrite _ a _ _ => decide (a.length ≤ 3)
  | .brimMsgReceive _ _ d _ => decide (d.length ≤ 4096)
  | .mitMsgReceive _ d _ => decide (d.length ≤ 4096)
  | _ => true

end Sys2Proof
end

