-- ==== Sys2Proof/Tests/Slice0.lean ====
section
/-! SUPPORT. The tests: commands that are not well-formed are refused, words and examples written out in the spec come
out of the model, and every statement for the provers with hypotheses has, clause by clause, a state and operands that
meet them. -/

namespace Sys2Proof.Tests

open Sys2Proof Sys2Proof.Machine

set_option Elab.async false

def inTb (s : State) (f : Tb → Tb) : State := { s with tb := f s.tb }
def inRef (s : State) (f : Ref → Ref) : State := { s with ref := f s.ref }
def inDpl (s : State) (f : Dpl → Dpl) : State := { s with dpl := f s.dpl }
def inGn (s : State) (f : Gn → Gn) : State := { s with gn := f s.gn }
def inMg (s : State) (f : Mg → Mg) : State := { s with mg := f s.mg }
def inTs (s : State) (f : Ts → Ts) : State := { s with ts := f s.ts }
def inRsp (s : State) (f : Rsp → Rsp) : State := { s with rsp := f s.rsp }
def inNts (s : State) (f : Nts → Nts) : State := { s with nts := f s.nts }
def inGnt (s : State) (f : Gnt → Gnt) : State := { s with gnt := f s.gnt }
def inPke (s : State) (f : Pke → Pke) : State := { s with pke := f s.pke }
def inEnt (s : State) (f : Ent → Ent) : State := { s with ent := f s.ent }
def inLoam (s : State) (f : Loam → Loam) : State := { s with loam := f s.loam }
def inBrim (s : State) (f : Brim → Brim) : State := { s with brim := f s.brim }
def inMit (s : State) (f : Mit → Mit) : State := { s with mit := f s.mit }
def inBcp (s : State) (f : Bcp → Bcp) : State := { s with bcp := f s.bcp }
def inClk (s : State) (f : Clk → Clk) : State := { s with clk := f s.clk }
def inGlb (s : State) (f : Glb → Glb) : State := { s with glb := f s.glb }

/-- The state after reset, and the same with its settings restored. -/
def z : State := State.reset
def live : State := inLoam z fun l => { l with restored := true }

/-- Logical port 0 enabled and up. -/
def port0 : State := setPort (wr live 0x800100 0x3FA01) 0 { LpPort.cold with up := true }

/-- A descriptor from its eight words, and the same fetched. -/
def desc (ws : List Nat) : Bytes := ws.flatMap (leBytes 4)
def got (ws : List Nat) : Fetched := { idx := 0, desc := desc ws, data := none, tick := 0, token := false }

/-- A running ring with fetched descriptors. -/
def ringWith (s : State) (r : Nat) (fs : List Fetched) : State :=
  setRing (wr s (ringA r + 0x10) 0xD) r { Ring.cold with st := .running, p := 1, f := 1, fetched := fs }

/-- A PKE job from its length, opcode and input words, on core 0. -/
def job (inLen outLen op : Nat) (input : Bytes) : PkeJob :=
  { ring := 128, idx := 0, desc := desc [0, 0, 0, 0, inLen + outLen * 65536, op, 0, 0], input := some input,
    stage := .running 0, yielded := false, abort := false, slotKey := [], rand := 0, result := notRun, output := [],
    faulty := false, core := 0xFF, time := 0, waited := false }
def withJob (j : PkeJob) : State := inPke live fun p => { p with jobs := [j] }

/-- A number as a 32-byte operand. -/
def op32 (n : Nat) : Bytes := beBytes 32 n

def solution (ok : Bool) : Solution :=
  { solved := ok, chans := [], assigns := [], maxResidual := 0, timeUnc := 0, ionoUnc := 0,
    posErr := 0, posX := 0, posY := 0, posZ := 0, meanStd := 0, svinSecs := 0, posUnc := 0, eph := [], almanac := none,
    iono := none, utc := none, startUnc := 0, keys := [], tags := [], isto := [] }
def ppsMeas : PpsMeas :=
  { taiSec := 0, edge0 := 0, edge1 := 0, utcOfs := 37, leapAt := none, leapBack := false, late := false, sinceStart := 0 }
def kroot : Kroot :=
  { p521 := false, keyId := 0x11, qx := 1, qy := 2, leaf := 0, path := [], header := [1], root := [7], gst := 0, alpha := [],
    sha3 := false, cmac := false, tagBits := 40, r := 1, s := 1 }
/-- An image whose vendor signature verifies, without a countersignature. -/
def goodImage : ImageCheck := { vendor := true, counter := none }
def startEnv : StartEnv :=
  { loSel := 0, qspi4b := false, image0 := goodImage, image1 := goodImage, pfailLow := false, failRows := [], convertFail := [], temp := 2500,
    restoreMs := 40, katOk := true, srcRct := 0, srcApt := 0 }
def txItem (src : TxSrc) : TxItem :=
  { cls := 0, frame := List.replicate 60 0, src := src, launch := none, tol := 0, ins := .none, req := 0, stamp := 0 }
def request : Req := { j := 0, cls := 0, prof := 0, frame := List.replicate 90 0, stamp := 0, kod := false }
def laneJob : Job := { req := request, tv := true, prof := profOf z 0, hdr := [], nts := .plain }
def hist : HistModel :=
  { f0 := 0, age := 0, tc1 := 0, tc2 := 0, t0 := 0, sigF := 0, sigA := 0, sigT := 0, th := 0 }
def mirrorRec (cls : Fin 16) : MirrorRec := { cls := cls, seg := 0, words := [], keys := [], csig := none }
def copyOf (k gen : Nat) : Copy :=
  { cls := 3, seg := 0, copy := k, gen := gen, schema := 1, line := 1, flags := 0, written := 0, page := k, intact := true,
    payload := .words [] }

/-- A frame with its FCS: a destination, a type and its payload, padded to 60 bytes. -/
def framed (dst : Bytes) (rest : Bytes) : Bytes :=
  let f := subPad (dst ++ List.replicate 6 0 ++ rest) 0 60
  f ++ fcs f

/-- An NTS request whose cookie is too short, and a state whose first lane takes it. -/
def ntsRequest : Req :=
  { request with frame := subPad [] 0 12 ++ [0x08, 0, 0x45, 0, 0, 168, 0, 0, 0, 0, 64, 17, 0, 0] ++ List.replicate 8 1 ++
      [1, 0, 0, 123, 0, 148, 0, 0] ++ (0x23 :: List.replicate 47 0) ++ ([1, 4, 0, 36] ++ List.replicate 32 5) ++
      ([2, 4, 0, 16] ++ List.replicate 12 6) ++ ([4, 4, 0, 40, 0, 16, 0, 16] ++ List.replicate 32 7) }
def ntsLane : State :=
  inEnt (inNts (inTb (inRsp (wr (wr (wr live 0xB00008 0xFFFF) 0xB02000 3) 0xC00000 3) fun r => { r with waiting := [ntsRequest] })
    fun t => { t with timeValid := true }) fun n => { n with slots := [(0, { st := .current, id := 1, key := [], born := 0 })] })
    fun e => { e with started := true, ready := true }
def ntsStarted : State × Option NtsJob :=
  startNts (pmcSignal { ntsLane with rsp := { ntsLane.rsp with waiting := ntsLane.rsp.waiting.erase ntsRequest } } 0x200
    ntsRequest.j 1) ntsRequest

/-- A number mod 1 raised to a power is 0. -/
theorem powBits_one (a e : Nat) : ∀ n acc, acc = 0 → powBits a e 1 n acc = 0
  | 0, _, h => h
  | n + 1, _, _ => powBits_one a e n _ (by split <;> exact Nat.mod_one _)

theorem powMod_one (a e : Nat) : powMod a e 1 = 0 := powBits_one _ _ _ _ (Nat.mod_one _)

/-- With the modulus 1 the result is 0, whatever the random numbers. -/
theorem rsaPrivate_one (k : RsaKey) (r k1 k2 c : Nat) (h : k.n = 1) : rsaPrivate k r k1 k2 c = some 0 := by
  simp [rsaPrivate, rsaInput, rsaChecks, h, powMod_one, Nat.mod_one]

/-- 2 is no square mod 3. -/
theorem powMod_square (m : Nat) : powMod m 2 3 ≠ 2 := by
  have h : m % 3 < 3 := Nat.mod_lt _ (by decide)
  have : ∀ x, x < 3 → powBits x 2 3 2 1 ≠ 2 := by decide
  exact this _ h

/-- A key of modulus 3 and exponent 2 fails on the input 2, whatever the random numbers. -/
theorem rsaPrivate_square (k : RsaKey) (b : Bytes) (k1 k2 : Nat) (hn : k.n = 3) (he : k.e = 2) :
    rsaPrivate k (rsaBlind k b) k1 k2 2 = none := by
  have hr : ∀ x, x < 3 → 2 * powMod (if (modInv x 3).isSome then x else 1) 2 3 % 3 = 2 := by decide
  have hx : rsaInput k (rsaBlind k b) 2 = 2 := by
    unfold rsaInput rsaBlind
    rw [hn, he]
    exact hr _ (Nat.mod_lt _ (by decide))
  simp only [rsaPrivate, hx, rsaChecks, hn, he]
  rw [if_neg (by simpa using powMod_square _)]

/-- RSA jobs of the moduli 1 and 3, from the first prime, the second, the exponent and the input. -/
def rsaJob (p q e c : Nat) : PkeJob :=
  job 904 256 0x215 (beBytes 256 c ++ beBytes 128 p ++ beBytes 128 q ++ List.replicate 384 0 ++ beBytes 8 e)

theorem rsaWorks : rsaOfJob (rsaJob 1 1 3 0) = some 0 := by
  unfold rsaOfJob
  exact rsaPrivate_one _ _ _ _ _ (by decide +kernel)

theorem rsaFails : rsaOfJob (rsaJob 1 3 2 2) = none := by
  have hc : beNat (operand (rsaJob 1 3 2 2).desc (jobInput (rsaJob 1 3 2 2))) = 2 := by decide +kernel
  unfold rsaOfJob
  rw [hc]
  exact rsaPrivate_square _ _ _ _ (by decide +kernel) (by decide +kernel)

/-! ## Commands that are not well formed are refused -/

theorem test_illformed_write_address : Instr.wf (.registerWrite .bar0 0x300041 0) = false := by decide +kernel
theorem test_illformed_write_outside : Instr.wf (.registerWrite .bar0 0x2000000 0) = false := by decide +kernel
theorem test_illformed_clear_address : Instr.wf (.dropCounterClear 0x801021) = false := by decide +kernel
theorem test_illformed_counter_address : Instr.wf (.statCounterRead .bar0 0x2000000) = false := by decide +kernel
theorem test_illformed_descriptor : Instr.wf (.hifDescFetch 0 [0] none) = false := by decide +kernel
theorem test_illformed_exchange_width : Instr.wf (.xramAccess 0 0 none) = false := by decide +kernel
theorem test_illformed_exchange_end : Instr.wf (.xramAccess 65536 4 none) = false := by decide +kernel
theorem test_illformed_empty_frame : Instr.wf (.frameReceived 0 [] 0 true) = false := by decide +kernel
theorem test_illformed_front_end_bytes : Instr.wf (.gnFeTransferDone (List.replicate 9 0)) = false := by decide +kernel
theorem test_illformed_target_bytes : Instr.wf (.i2ctWrite 0 [0, 0, 0, 0] [] .whole) = false := by decide +kernel
theorem test_illformed_ring_message : Instr.wf (.brimMsgReceive 0 0 (List.replicate 4097 0) true) = false := by decide +kernel
theorem test_illformed_pair_message : Instr.wf (.mitMsgReceive 0 (List.replicate 4097 0) true) = false := by decide +kernel
theorem test_wellformed_write : Instr.wf (.registerWrite .bar0 0x300040 5) = true := by decide +kernel

/-! ## The interface -/

theorem test_no_word_spells_a_command : decodeTableWord 32 0x12345678 = none := rfl
theorem test_placed_word_changes_nothing : State.withFetchWord z 32 0x12345678 = z := rfl

/-- R2. -/
theorem test_identification : readView z 0 = 0x4D5A4880 := by decide +kernel

/-- R47: the cold gains are KP = 0.5 and KI = 0.0625. -/
theorem test_servo_gain_after_reset : rd z 0x300040 = 0x8000 ∧ rd z 0x300044 = 0x1000 := by decide +kernel

/-! ## Worked examples of the spec, and check values of the standards it names -/

/-- The example below R47: the first update measures +400 ns with KP = 0.5 and KI = 0.0625. -/
theorem test_servo_first_update :
    (match execServoUpdate (setCand (inTb (inRef z fun r => { r with tsel := 0 }) fun t => { t with timeValid := true }) 0
        { Cand.cold with sum := 6400, cnt := 1 }) with
      | .next t => t.tb.dcoNext
      | _ => none) = some (-225000000) := by decide +kernel

/-- The example below R228: 40,000 ns of holdover error are 3 units of 2⁻¹⁶ s. -/
theorem test_served_dispersion :
    rootDisp (inDpl z fun d => { d with hoErr := 40000 }) { profOf z 0 with rdisp := 0 } = 3 := by decide +kernel

/-- The example below R64: 21,600 s into a positive leap's window the smear is 250 ms. -/
theorem test_smear_after_a_quarter_day :
    (let s := inTb (wr z 0x300080 37) fun t => { t with flagLeap := some { at_ := 1000000, old := 37, new := 38 } }
     let t : Nat := (1000000 + 38 - 86400 + 21600) * fineSec
     (t : Int) - 37 * fineSec - utcFine s true t) = 2 ^ 16 * 250000000 := by decide +kernel

/-- CRC-16/CCITT of the nine digits. -/
theorem test_crc16 : crc16 [0x31, 0x32, 0x33, 0x34, 0x35, 0x36, 0x37, 0x38, 0x39] = 0x29B1 := by decide +kernel

/-- The Ethernet check sequence of the nine digits. -/
theorem test_frame_check : fcs [0x31, 0x32, 0x33, 0x34, 0x35, 0x36, 0x37, 0x38, 0x39] = [0x26, 0x39, 0xF4, 0xCB] := by
  decide +kernel

/-- FIPS 197, the 128-bit example. -/
theorem test_aes :
    aesEnc (aesKeys ((List.range 16).map fun i => i)) ((List.range 16).map fun i => i * 17)
      = [0x69, 0xC4, 0xE0, 0xD8, 0x6A, 0x7B, 0x04, 0x30, 0xD8, 0xCD, 0xB7, 0x80, 0x70, 0xB4, 0xC5, 0x5A] := by
  decide +kernel

/-- FIPS 180-4: SHA-512 of "abc" begins so. -/
theorem test_hash : (sha512 [0x61, 0x62, 0x63]).take 8 = [0xDD, 0xAF, 0x35, 0xA1, 0x93, 0x61, 0x7A, 0xBA] := by
  decide +kernel

/-- FIPS 180-4: SHA-256 of "abc" begins so. -/
theorem test_hash_256 : (sha256 [0x61, 0x62, 0x63]).take 8 = [0xBA, 0x78, 0x16, 0xBF, 0x8F, 0x01, 0xCF, 0xEA] := by
  decide +kernel

/-- FIPS 202: SHA3-256 of the empty message begins so. -/
theorem test_hash_sha3 : (sha3 []).take 8 = [0xA7, 0xFF, 0xC6, 0xF8, 0xBF, 0x1E, 0xD7, 0x66] := by decide +kernel

/-- RFC 4231, test case 2: the key "Jefe". -/
theorem test_hmac :
    (hmac256 [0x4A, 0x65, 0x66, 0x65] [0x77, 0x68, 0x61, 0x74, 0x20, 0x64, 0x6F, 0x20, 0x79, 0x61, 0x20, 0x77, 0x61,
      0x6E, 0x74, 0x20, 0x66, 0x6F, 0x72, 0x20, 0x6E, 0x6F, 0x74, 0x68, 0x69, 0x6E, 0x67, 0x3F]).take 4
      = [0x5B, 0xDC, 0xC1, 0x46] := by decide +kernel

/-- R128: the pin code 0b1000 reads as -7 in two's complement and as 0 in sign and magnitude. -/
theorem test_if_sample : ifValue false 8 = -7 ∧ ifValue true 8 = 0 ∧ ifValue true 15 = -7 := by decide +kernel

/-- R125, R126: the outermost GLONASS edges, 1597.5515 MHz and 1605.886 MHz, in half kHz. -/
theorem test_glonass_edges : signalRange 6 = (3195103, 3211772) := by decide +kernel

/-! ## One step each -/

/-- R489: a full counter stays full and sets its block's bit. -/
theorem test_counter_saturates :
    rd (bump (wr live 0x801020 0xFFFFFFFF) 0x801020 1) 0x801020 = 0xFFFFFFFF ∧
      (rd (bump (wr live 0x801020 0xFFFFFFFF) 0x801020 1) 0x1500040).getLsbD 8 = true := by decide +kernel

/-- R508: GLB_RST_CTL acts only with its key. -/
theorem test_reset_needs_its_key :
    (match step { live with pending := [.registerWrite .bar0 0x14 1] } with | .next t => decide (t = live) | _ => false) = true := by
  decide +kernel

/-- A byte written to the exchange RAM reads back, and writing the value of an empty cell removes it. -/
theorem test_exchange_ram_is_canonical :
    (match execXramAccess 8 1 (some 0x5A) live with | .next t => t.bcp.xram | _ => []) = [(8, 0x5A)] ∧
    (match execXramAccess 8 1 (some 0) (inBcp live fun b => { b with xram := [(8, 0x5A)] }) with
      | .next t => t.bcp.xram | _ => [(0, 0)]) = [] := by decide +kernel

/-! ## The hypotheses of the statements are met -/

theorem witness_StepRunsFrontCommand :
    ∃ (s : State), s.pending = [] :=
  ⟨z, by decide +kernel⟩

theorem witness_ExchangeRamStaysCanonical :
    ∃ s t : State, XramOk s ∧ step s = .next t :=
  ⟨z, idleTick z, by unfold XramOk; decide +kernel, rfl⟩

theorem witness_FusesAndQueueKept :
    (∃ (c : Instr) (s t : State), exec c s = .next t) ∧
    (∃ c : Instr, inWindow c = true) :=
  ⟨⟨.tbNowRead, z, _, rfl⟩,
   ⟨.tbNowRead, rfl⟩⟩

theorem witness_TimebaseWordsTakeEffect :
    (∃ (s : State), tbMode s = 0) ∧
    (∃ (s : State) (w : Word), tbMode s = 0 ∧ s.tb.dcoLo = some w) ∧
    (∃ (s : State), tbMode s ≠ 0) :=
  ⟨⟨wr z 0x300000 0, by decide +kernel⟩,
   ⟨inTb (wr z 0x300000 0) fun t => { t with dcoLo := some 7 }, 7, by decide +kernel⟩,
   ⟨z, by decide +kernel⟩⟩

theorem witness_SetTimeStepNowAndForceInvalidAct :
    (∃ (s : State), setRefusable s = false ∧ (rd s 0x300070).toNat < 10 ^ 9 ∧ clkRuns s.clk.tbclk = true) ∧
    (∃ (s : State), setRefusable s = false ∧ clkRuns s.clk.tbclk = true) ∧
    (∃ (s : State), setRefusable s = true) ∧
    (∃ (s : State), timeReference s = true ∧ tbMode s ≠ 2 ∧ rf s 0x300000 8 4 ≤ s.tb.good) :=
  ⟨⟨z, by decide +kernel⟩,
   ⟨z, by decide +kernel⟩,
   ⟨wr z 0x300000 0, by decide +kernel⟩,
   ⟨inTb (setCand z 0 { Cand.cold with stT := .qualified }) fun t => { t with good := 20 }, by decide +kernel⟩⟩

theorem witness_SecondsAndLeapsAreApplied :
    (∃ (s : State), clkRuns s.clk.tbclk = true) ∧
    (∃ (s : State), clkRuns s.clk.tbclk = true ∧ s.tb.anchorSec < nowSec s ∧ s.tb.timeValid = true ∧ rb s 0x1100114 0 = true) ∧
    (∃ (s : State) (a : Nat) (n : Int), nextChange s = some (a, n) ∧ (nowSec s : Int) = applySec a (utcOfs s) n ∧ ((n = utcOfs s + 1 ∨ n = utcOfs s - 1))) ∧
    (∃ (s : State), ((rd s 0x300084).toNat : Int) ≤ utcSec s ∧ s.tb.leapExpired = false) :=
  ⟨⟨z, by decide +kernel⟩,
   ⟨wr (inTb live fun t => { t with counter := ofWords 0 100 0, timeValid := true }) 0x1100114 1, by decide +kernel⟩,
   ⟨inTb (wr z 0x300080 37) fun t => { t with counter := ofWords 0 137 0, flagLeap := some { at_ := 100, old := 37, new := 38 } }, 100, 38, by decide +kernel⟩,
   ⟨inTb (wr z 0x300084 10) fun t => { t with counter := ofWords 0 137 0 }, by decide +kernel⟩⟩

theorem witness_ServoTakesTheMeanOffset :
    (∃ (s : State) (e : Int), servoSource s < 6 ∧ servoOffset s = some e) ∧
    (∃ (s : State), servoSource s = 7) :=
  ⟨⟨setCand (inRef z fun r => { r with tsel := 0 }) 0 { Cand.cold with sum := 320, cnt := 2 }, 160, by decide +kernel⟩,
   ⟨z, by decide +kernel⟩⟩

theorem witness_TriggersFireAndCapture :
    (∃ (s : State) (n : Fin 16) (ctl : Word), rb s (ttOutA n) 0 = false ∧ (ttOutOf s n).startKept = [] ∧ ttBad (storeMask s (ttOutA n) 0xFE ctl) n = false ∧ (nowT16 s : Int) + 32000 ≤ fireInstant (storeMask s (ttOutA n) 0xFE ctl) n (ttStart (storeMask s (ttOutA n) 0xFE ctl) n)) ∧
    (∃ (s : State) (n : Fin 16), rb s (ttOutA n) 0 = false) ∧
    (∃ (s : State) (n : Fin 16), rb s (ttOutA n) 0 = true) ∧
    (∃ (s : State) (n : Fin 16), ttBad (ttApply n (ttOutOf s n).staged (ttApply n (ttOutOf s n).startKept s)) n = false ∧ (ttOutOf s n).running = true ∧ ((∀ e ∈ (ttOutOf s n).staged, e.1 ≠ .count))) ∧
    (∃ (s : State) (n : Fin 16), (ttOutOf s n).running = true ∧ s.tb.timeValid = true) ∧
    (∃ (s : State) (m : Fin 16) (rising : Bool) (sub : Fin 32), ttEdgeSelected s m rising = true ∧ ((∀ l, (ttInOf s m).last = some l → l + 256 ≤ s.tb.ticks * 32 + sub.val))) :=
  ⟨⟨wr (wr (wr (wr z 0x600004 100000) 0x600018 1000) 0x600010 100000) 0x60001C 0, 0, 0x1, by decide +kernel⟩,
   ⟨wr (wr (wr (wr z 0x600004 100000) 0x600018 1000) 0x600010 100000) 0x60001C 0, 0, by decide +kernel⟩,
   ⟨wr (wr (wr (wr (wr z 0x600004 100000) 0x600018 1000) 0x600010 100000) 0x60001C 0) 0x600000 1, 0, by decide +kernel⟩,
   ⟨setTtOut (wr (wr (wr (wr (wr z 0x600004 100000) 0x600018 1000) 0x600010 100000) 0x60001C 0) 0x600000 1) 0 { TtOut.cold with running := true, staged := [(.width, 2000)] }, 0, by decide +kernel⟩,
   ⟨inTb (setTtOut (wr (wr (wr (wr (wr z 0x600004 100000) 0x600018 1000) 0x600010 100000) 0x60001C 0) 0x600000 1) 0 { TtOut.cold with running := true }) fun t => { t with timeValid := true }, 0, by decide +kernel⟩,
   ⟨wr z 0x600400 3, 0, true, 31, by decide +kernel⟩⟩

theorem witness_LorternoMessagesAreTakenOrCounted :
    (∃ (s : State) (p : Fin 2) (m : Bytes), todUsed s p = true ∧ (ppsOf s p).rx = [] ∧ lorternoOk m = true) ∧
    (∃ (s : State) (p : Fin 2) (m : Bytes), todUsed s p = true ∧ (ppsOf s p).rx = [] ∧ be16 m 0 = 0x4C54 ∧ m.length = 6 + byteAt m 3 ∧ lorternoOk m = false) ∧
    (∃ (s : State) (p : Fin 2), todUsed s p = true ∧ 2 ≤ (ppsOf s p).rx.length) ∧
    (∃ (s : State) (p : Fin 2), (ppsOf s p).rx.length < 2) ∧
    (∃ (s : State) (p : Fin 2) (m : LorMsg) (ms : List LorMsg), (ppsOf s p).msgs = m :: ms) :=
  ⟨⟨z, 0, (let m : Bytes := [0x4C, 0x54, 1, 12, 0, 0, 0, 0, 0, 1, 0, 37, 0, 1, 0, 0]; m ++ beBytes 2 (crc16 (sub m 2 14))), by decide +kernel⟩,
   ⟨z, 0, [0x4C, 0x54, 1, 2, 0, 0, 0, 0], by decide +kernel⟩,
   ⟨setPps z 0 { PpsIn.cold with rx := [0x4C, 0x54, 1] }, 0, by decide +kernel⟩,
   ⟨z, 1, by decide +kernel⟩,
   ⟨setPps z 0 { PpsIn.cold with msgs := [{ fin := 3, bytes := [] }] }, 0, { fin := 3, bytes := [] }, [], by decide +kernel⟩⟩

theorem witness_PpsEdgesAreAccepted :
    (∃ (s : State) (p : Fin 2) (sub : Fin 32), (ppsOf s p).expected = none ∧ ((∀ f ∈ (ppsOf s p).recent, secondApart f (nowT16 s + sub.val) = false))) ∧
    (∃ (s : State) (p : Fin 2) (sub : Fin 32), (ppsOf s p).expected = none ∧ ((∃ f ∈ (ppsOf s p).recent, secondApart f (nowT16 s + sub.val) = true))) ∧
    (∃ (s : State) (p : Fin 2) (sub : Fin 32) (e : Nat), (ppsOf s p).expected = some e ∧ (((nowT16 s + sub.val : Nat) : Int) - e).natAbs ≤ winOf s p) ∧
    (∃ (s : State) (i : Fin 3), i ≠ 2 ∧ paired s = false) ∧
    (∃ (s : State) (a : Nat) (b : Nat), paired s = true ∧ (ppsOf s (primary s)).accepted = some a ∧ (ppsOf s (1 - primary s)).accepted = some b ∧ (((b : Int) - delayOf s (1 - primary s)) - ((a : Int) - delayOf s (primary s))).natAbs ≤ rf s 0x400028 16 14 * 16) :=
  ⟨⟨z, 1, 0, by decide +kernel⟩,
   ⟨inTb (setPps z 0 { PpsIn.cold with recent := [5, 3] }) fun t => { t with counter := ofWords 0 1 0 }, 0, 5, by decide +kernel⟩,
   ⟨setPps z 0 { PpsIn.cold with expected := some 0 }, 0, 0, 0, by decide +kernel⟩,
   ⟨setPps z 1 { PpsIn.cold with expected := some 5 }, 1, by decide +kernel⟩,
   ⟨setPps (setPps (wr z 0x400028 0x00640001) 0 { PpsIn.cold with accepted := some 1000 }) 1 { PpsIn.cold with accepted := some 1000 }, 1000, 1000, by decide +kernel⟩⟩

theorem witness_ReferenceInputsReachTheirCandidates :
    (∃ (f : Int), f.natAbs ≤ 100000) ∧
    (∃ (s : State), s.rsp.fsel = none) :=
  ⟨⟨5, by decide +kernel⟩,
   ⟨z, by decide +kernel⟩⟩

theorem witness_KaolinFollowsItsStates :
    (∃ (s : State) (d : Fin 3), (dpllOf s d).st = .acquire) ∧
    (∃ (s : State) (d : Fin 3), (dpllOf s d).st = .narrow) ∧
    (∃ (s : State) (d : Fin 3), ((dpllOf s d).st = .narrow ∨ (dpllOf s d).st = .track)) ∧
    (∃ (s : State) (m : HistModel), (dpllOf s 0).st = .holdover ∧ s.dpl.model = some m) ∧
    (∃ (s : State), s.ref.everSel = false) ∧
    (∃ (s : State), s.ref.everSel = true ∧ s.tb.holdover = true) ∧
    (∃ (s : State), (dpllOf s 0).st = .track ∧ s.ref.tsel < 6 ∧ eql s s.ref.tsel ≤ 3) ∧
    (∃ (s : State) (m : HistModel), s.dpl.model = some m ∧ CommitFits s clsHist) :=
  ⟨⟨setDpll z 1 { Dpll.cold with st := .acquire, sel := 0 }, 1, by decide +kernel⟩,
   ⟨setDpll z 1 { Dpll.cold with st := .narrow, sel := 0 }, 1, by decide +kernel⟩,
   ⟨setDpll z 1 { Dpll.cold with st := .track, sel := 0 }, 1, by decide +kernel⟩,
   ⟨inDpl (setDpll z 0 { Dpll.cold with st := .holdover }) fun d => { d with model := some hist }, hist, by decide +kernel⟩,
   ⟨z, by decide +kernel⟩,
   ⟨inTb (inRef z fun r => { r with everSel := true }) fun t => { t with holdover := true }, by decide +kernel⟩,
   ⟨setCand (inRef (setDpll z 0 { Dpll.cold with st := .track }) fun r => { r with tsel := 0 }) 0 { Cand.cold with rxql := 1 }, by decide +kernel⟩,
   ⟨inDpl z fun d => { d with model := some hist }, hist, by unfold CommitFits; decide +kernel⟩⟩

theorem witness_GnssFrontEndTakesEffect :
    (∃ (s : State) (b : Fin 2), bandOn s b = true) ∧
    (∃ (s : State) (b : Fin 2), bandOn s b = true ∧ (bandOf s b).lost = true) ∧
    (∃ (s : State), s.fuse.gnssAbsent = false ∧ s.gn.feBusy = false ∧ s.gn.feHeld = false ∧ s.gn.feScript = none) ∧
    (∃ (s : State), s.fuse.gnssAbsent = false) :=
  ⟨⟨z, 0, by decide +kernel⟩,
   ⟨setBand z 0 { lost := true, meas := 0 }, 0, by decide +kernel⟩,
   ⟨z, by decide +kernel⟩,
   ⟨z, by decide +kernel⟩⟩

theorem witness_GnssChannelsAndEpochsTakeEffect :
    (∃ (s : State) (c : Fin 128) (hz : Int), (chanOf s c).st = .search ∧ hz.natAbs ≤ searchSpan s) ∧
    (∃ (s : State) (hz : Int), searchSpan s < hz.natAbs) ∧
    (∃ (s : State) (c : Fin 128), (chanOf s c).st = .pullIn) ∧
    (∃ (s : State) (c : Fin 128), (chanOf s c).st = .lost) ∧
    (∃ (s : State) (bits : List Bool), gnRuns s = true ∧ rb s 0x500000 4 = true ∧ 0 < bits.length ∧ bits.length ≤ 96 ∧ recordFits s 157 = true) ∧
    (∃ (s : State) (sol : Solution), gnRuns s = true ∧ s.gn.sleeping = false ∧ sol.solved = false) ∧
    (∃ (s : State) (sol : Solution), gnRuns s = true ∧ s.gn.sleeping = false ∧ sol.solved = true ∧ sol.assigns = [] ∧ sol.chans = [] ∧ sol.isto = [] ∧ satsNeeded (noteUsed (manualStarts (osnmaEpoch s sol))) ≤ (satsUsed (noteUsed (manualStarts (osnmaEpoch s sol)))).length) ∧
    (∃ (s : State), gnRuns s = true ∧ (ringOf s 158).st = .running ∧ (ringOf s 158).q = (ringOf s 158).c ∧ 64 ≤ ringSize s 158) ∧
    (∃ (s : State), gnRuns s = true ∧ s.gn.valid = true ∧ s.gn.sleeping = false) ∧
    (∃ (s : State) (sub : Fin 32) (sec : Nat) (e : Nat) (q : Int), gnRuns s = true ∧ s.gn.valid = true ∧ s.gn.sleeping = false ∧ s.gn.msg = some (sec, q) ∧ (ppsOf s 2).expected = some e ∧ (((((nowT16 s + sub.val : Nat) : Int) + q).toNat : Int) - e).natAbs ≤ winOf s 2) :=
  ⟨⟨setChan z 3 { Chan.cold with st := .search }, 3, 6000, by decide +kernel⟩,
   ⟨z, 6001, by decide +kernel⟩,
   ⟨setChan z 3 { Chan.cold with st := .pullIn }, 3, by decide +kernel⟩,
   ⟨setChan z 3 { Chan.cold with st := .lost }, 3, by decide +kernel⟩,
   ⟨ringWith (wr z 0x500000 0x11) 157 [], [true, false], by decide +kernel⟩,
   ⟨wr z 0x500000 0x11, solution false, by decide +kernel⟩,
   ⟨setChan (setChan (setChan (setChan (wr z 0x500000 0x111) 0 { Chan.cold with st := .track, cn0 := 255, elev := 90, sv := 1 }) 1 { Chan.cold with st := .track, cn0 := 255, elev := 90, sv := 2 }) 2 { Chan.cold with st := .track, cn0 := 255, elev := 90, sv := 3 }) 3 { Chan.cold with st := .track, cn0 := 255, elev := 90, sv := 4 }, solution true, by decide +kernel⟩,
   ⟨ringWith (wr z 0x500000 0x11) 158 [], by decide +kernel⟩,
   ⟨inGn (wr z 0x500000 0x11) fun g => { g with valid := true }, by decide +kernel⟩,
   ⟨setPps (inGn (wr z 0x500000 0x11) fun g => { g with valid := true, msg := some (5, 0) }) 2 { PpsIn.cold with expected := some 0 }, 0, 5, 0, 0, by decide +kernel⟩⟩

theorem witness_GnssReceiverStatesTakeEffect :
    (∃ (s : State) (k : Kroot), gnRuns s = true ∧ s.gn.osnma = .auth ∧ k.p521 = true) ∧
    (∃ (s : State) (k : Kroot), gnRuns s = true ∧ s.gn.osnma = .auth ∧ k.p521 = false ∧ krootQueued s = false ∧ s.gn.kept.rootKey ≠ k.root ∧ merkleOk s k = true) ∧
    (∃ (s : State) (k : Kroot), gnRuns s = true ∧ s.gn.osnma = .auth ∧ k.p521 = false ∧ krootQueued s = false ∧ s.gn.kept.rootKey ≠ k.root ∧ merkleOk s k = false) ∧
    (∃ (s : State) (k : Kroot), gnRuns s = true ∧ (s.gn.osnma = .krootWait ∨ s.gn.osnma = .fail) ∧ s.gn.kroot = some k ∧ s.gn.krootResult = some 0) ∧
    (∃ (s : State) (k : Kroot), gnRuns s = true ∧ (s.gn.osnma = .krootWait ∨ s.gn.osnma = .fail) ∧ s.gn.kroot = some k ∧ s.gn.krootResult = some 3) ∧
    (∃ (s : State), gnRuns s = true ∧ recordFits s 158 = true) ∧
    (∃ (s : State), gnRuns s = true) ∧
    (∃ (s : State), gnRuns s = true ∧ s.gn.sleeping = false ∧ maySleep s = true) ∧
    (∃ (s : State), gnRuns s = true ∧ s.gn.sleeping = true ∧ maySleep s = false) ∧
    (∃ (s : State), gnRuns s = true ∧ s.gn.sleeping = true) ∧
    (∃ (s : State), s.gn.refreshing = true) ∧
    (∃ (s : State), s.gn.ephChanged = true ∧ gnCommitDue s = true ∧ s.gn.almanac = [] ∧ CommitFits s clsGnss) :=
  ⟨⟨inGn (wr z 0x500000 0x11) fun g => { g with osnma := .auth }, { kroot with p521 := true }, by decide +kernel⟩,
   ⟨(let s := inGn (wr z 0x500000 0x11) fun g => { g with osnma := .auth }; (List.range 8).foldl (fun t i => wr t (0x5000C0 + 4 * i) (BitVec.ofNat 32 (beNat (sub (sha256 (krootLeaf kroot)) (4 * i) 4)))) s), kroot, by decide +kernel⟩,
   ⟨inGn (wr z 0x500000 0x11) fun g => { g with osnma := .auth }, kroot, by decide +kernel⟩,
   ⟨inGn (wr z 0x500000 0x11) fun g => { g with osnma := .krootWait, kroot := some kroot, krootResult := some 0 }, kroot, by decide +kernel⟩,
   ⟨inGn (wr z 0x500000 0x11) fun g => { g with osnma := .krootWait, kroot := some kroot, krootResult := some 3 }, kroot, by decide +kernel⟩,
   ⟨ringWith (wr z 0x500000 0x11) 158 [], by decide +kernel⟩,
   ⟨wr z 0x500000 0x11, by decide +kernel⟩,
   ⟨inTb (setCand (inRef (wr (wr z 0x500000 0x11) 0x500070 0xF1) fun r => { r with tsel := 0 }) 0 { Cand.cold with rxql := 1 }) fun t => { t with timeValid := true }, by decide +kernel⟩,
   ⟨inGn (wr z 0x500000 0x11) fun g => { g with sleeping := true }, by decide +kernel⟩,
   ⟨inGn (wr z 0x500000 0x11) fun g => { g with sleeping := true }, by decide +kernel⟩,
   ⟨inGn (wr z 0x500000 0x11) fun g => { g with refreshing := true }, by decide +kernel⟩,
   ⟨inGn (wr z 0x500000 0x11) fun g => { g with ephChanged := true }, by unfold CommitFits; decide +kernel⟩⟩

theorem witness_LinePortsFollowTheirLinks :
    (∃ (s : State) (j : Fin 16), portEnabled s j = true ∧ (portOf s j).up = false) ∧
    (∃ (s : State) (j : Fin 16), portEnabled s j = true) ∧
    (∃ (s : State) (j : Fin 16), (portOf s j).holding = true) ∧
    (∃ (s : State) (j : Fin 16), portEnabled s j = true ∧ rf s (lpA j) 4 2 = 0 ∧ (portOf s j).up = false ∧ backplane s j = false ∧ (portOf s j).fecKept = false) ∧
    (∃ (s : State) (j : Fin 16), portEnabled s j = true ∧ rf s (lpA j) 4 2 = 0) ∧
    (∃ (s : State) (n : Fin 4), portFused s (4 * n.val) = false ∧ ((∀ k, k < 4 → rb s (lpA (4 * n.val + k)) 0 = false))) ∧
    (∃ (s : State) (j : Fin 16), portExists s j = true ∧ rb s (lpA j) 0 = false) ∧
    (∃ (s : State) (j : Fin 16), rb s (lpA j) 0 = true ∧ portExists s j = true ∧ (portOf s j).queue = [] ∧ syncePort s 0 ≠ j ∧ syncePort s 1 ≠ j) ∧
    (∃ (s : State) (j : Fin 16), rb s (lpA j) 0 = false ∧ portExists s j = true) ∧
    (∃ (s : State) (j : Fin 16), portFused s j = false) ∧
    (∃ (s : State) (j : Fin 16), portFused s j = true) :=
  ⟨⟨setPort (wr live 0x800100 0x3FA01) 0 LpPort.cold, 0, by decide +kernel⟩,
   ⟨port0, 0, by decide +kernel⟩,
   ⟨setPort port0 0 { LpPort.cold with holding := true, queue := [txItem .device] }, 0, by decide +kernel⟩,
   ⟨setPort (wr live 0x800100 0x1) 0 LpPort.cold, 0, by decide +kernel⟩,
   ⟨wr live 0x800100 0x1, 0, by decide +kernel⟩,
   ⟨wr (wr (wr (wr live 0x800100 0x3FA00) 0x800200 0x3FA00) 0x800300 0x3FA00) 0x800400 0x3FA00, 0, by decide +kernel⟩,
   ⟨wr live 0x800100 0x3FA00, 0, by decide +kernel⟩,
   ⟨wr (setPort (wr live 0x840100 0x3FA01) 4 { LpPort.cold with up := true }) 0x400204 1, 4, by decide +kernel⟩,
   ⟨wr live 0x800100 0x3FA00, 0, by decide +kernel⟩,
   ⟨z, 0, by decide +kernel⟩,
   ⟨{ live with fuse := { live.fuse with port23Absent := true } }, 8, by decide +kernel⟩⟩

theorem witness_LinePortsReceiveFrames :
    (∃ (s : State) (j : Fin 16) (f : Bytes), portEnabled s j = true ∧ (portOf s j).up = true ∧ f.length < 64) ∧
    (∃ (s : State) (j : Fin 16) (f : Bytes), portEnabled s j = true ∧ (portOf s j).up = true ∧ 64 ≤ f.length ∧ f.length < 16384 ∧ fcsGood f = false) ∧
    (∃ (s : State) (j : Fin 16) (f : Bytes), portEnabled s j = true ∧ (portOf s j).up = true ∧ 64 ≤ f.length ∧ f.length < 16384 ∧ fcsGood f = true ∧ pauseOpcode? (f.take (f.length - 4)) = some 1 ∧ rb s (lpA j) 8 = false ∧ rb s (lpA j) 9 = true ∧ (portOf s j).stormPort = false) ∧
    (∃ (s : State) (j : Fin 16) (f : Bytes), portEnabled s j = true ∧ (portOf s j).up = true ∧ 64 ≤ f.length ∧ f.length < 16384 ∧ f.length ≤ (rd s (lpA j + 4)).toNat ∧ fcsGood f = true ∧ pauseOpcode? (f.take (f.length - 4)) = none ∧ isInband s j (f.take (f.length - 4)) = true) :=
  ⟨⟨port0, 0, [1, 2, 3], by decide +kernel⟩,
   ⟨port0, 0, List.replicate 64 0, by decide +kernel⟩,
   ⟨setPort (wr live 0x800100 0x3FA01 |> fun s => wr s 0x800100 0x201) 0 { LpPort.cold with up := true }, 0, framed [1, 0x80, 0xC2, 0, 0, 1] ([0x88, 0x08, 0, 1] ++ beBytes 2 100), by decide +kernel⟩,
   ⟨setPort (wr (wr (wr live 0x800100 0x3FA01) 0x1300014 0x1) 0x800104 1522) 0 { LpPort.cold with up := true }, 0, framed (List.replicate 6 0xFF) (beBytes 2 0x8100 ++ beBytes 2 0 ++ beBytes 2 0x88B6), by decide +kernel⟩⟩

theorem witness_LinePortsSendFrames :
    (∃ (s : State) (j : Fin 16) (i : TxItem), portEnabled (purgeHeads s j) j = true ∧ (portOf (purgeHeads s j) j).up = true ∧ (portOf (purgeHeads s j) j).sending = none ∧ pickTx (purgeHeads s j) j 0 = some i) ∧
    (∃ (s : State) (j : Fin 16) (i : TxItem), portEnabled (purgeHeads s j) j = true ∧ (portOf (purgeHeads s j) j).up = true ∧ (portOf (purgeHeads s j) j).sending = none ∧ pickTx (purgeHeads s j) j 32 = some i) ∧
    (∃ (s : State) (j : Fin 16) (i : TxItem), (portOf s j).sending = some i) ∧
    (∃ (s : State) (j : Fin 16) (sc : PauseScope), rd s (lpA j + 0x0C) ≠ 0 ∧ scopePaused (portOf s j) sc = true) ∧
    (∃ (s : State) (j : Fin 16), portFused s j = false) ∧
    (∃ (s : State) (j : Fin 16) (c : Fin 8), sendsPfc s j c = true ∧ (portOf s j).xoff.getLsbD c = true ∧ (rd s (lpA j + 0x2C)).toNat * 1024 < occOf s j c) :=
  ⟨⟨setPort port0 0 { LpPort.cold with up := true, queue := [txItem .device] }, 0, txItem .device, by decide +kernel⟩,
   ⟨setPort port0 0 { LpPort.cold with up := true, queue := [txItem .device] }, 0, txItem .device, by decide +kernel⟩,
   ⟨setPort port0 0 { LpPort.cold with up := true, sending := some (txItem .device) }, 0, txItem .device, by decide +kernel⟩,
   ⟨setPort port0 0 { LpPort.cold with up := true, pausePort := true }, 0, .port, by decide +kernel⟩,
   ⟨port0, 0, by decide +kernel⟩,
   ⟨setPort (wr live 0x800100 0xBFA01) 0 { LpPort.cold with up := true, xoff := 32, occ := [(5, 1000000)] }, 0, 5, by decide +kernel⟩⟩

theorem witness_ManagementPortTakesEffect :
    (∃ (s : State) (f : Bytes), mgUp s = true ∧ 64 ≤ f.length ∧ f.length < 16384 ∧ fcsGood f = false) ∧
    (∃ (s : State) (f : Bytes), mgUp s = true ∧ 64 ≤ f.length ∧ f.length < 16384 ∧ fcsGood f = true ∧ pauseOpcode? f = some 1 ∧ s.mg.storm = false ∧ be16 f 16 ≠ 0) ∧
    (∃ (s : State) (up : Bool) (sp : BitVec 2), rb s 0x900000 0 = true ∧ ¬(s.mg.up = up ∧ s.mg.speed = sp.toNat)) ∧
    (∃ (s : State), rd s 0x900014 ≠ 0 ∧ mgPaused s = true) ∧
    (∃ (s : State) (bits : Nat), rb s 0x900000 1 = false ∧ s.mg.lowered = true ∧ 50000000 < bits) :=
  ⟨⟨inMg (wr live 0x900000 0xFD) fun m => { m with up := true }, List.replicate 64 0, by decide +kernel⟩,
   ⟨inMg (wr live 0x900000 0xFD) fun m => { m with up := true }, framed [1, 0x80, 0xC2, 0, 0, 1] ([0x88, 0x08, 0, 1] ++ beBytes 2 100), by decide +kernel⟩,
   ⟨inMg (wr live 0x900000 0xFD) fun m => { m with up := true }, false, 1, by decide +kernel⟩,
   ⟨inMg (wr live 0x900000 0xFD) fun m => { m with up := true, paused := true, pauseEnd := 5 }, by decide +kernel⟩,
   ⟨inMg (wr live 0x900000 1) fun m => { m with up := true, lowered := true }, 50000001, by decide +kernel⟩⟩

theorem witness_TimestampUnitsTakeEffect :
    (∃ (s : State) (j : Fin 16), (tsPort s j).degraded = true ∧ outOfLimits s (j.val / 4) = false) ∧
    (∃ (s : State) (q : BitVec 16) (e : Nat × Nat), s.ts.cal.find? (fun e => decide (e.1 = q.toNat)) = some e) :=
  ⟨⟨inTs z fun t => { t with ports := [(0, { TsPort.cold with degraded := true })] }, 0, by decide +kernel⟩,
   ⟨inTs z fun t => { t with cal := [(5, 9)], calSum := 9, calCount := 1 }, 5, (5, 9), by decide +kernel⟩⟩

theorem witness_RulesAndProfilesAreStagedThenApplied :
    (∃ (s : State) (r : Fin 256) (k : Word), s.rsp.ruleStage.lookup (2 * r.val) = some k) ∧
    (∃ (s : State) (p : Fin 64) (v : Word), ((∀ e ∈ s.rsp.profStage, e.1 / 8 ≠ p)) ∧ profRefused (profOf (storeMask (profStaged s p) (profA p) 0x7FFF v) p) = false) ∧
    (∃ (s : State) (p : Fin 64) (w : ProfWord) (x : Word) (v : Word), w ≠ .ntp ∧ s.rsp.profStage = [(8 * p.val + profOffset w / 4, (profOffset w, x))] ∧ profRefused (profOf (storeMask (profStaged s p) (profA p) 0x7FFF v) p) = false) ∧
    (∃ (s : State) (p : Fin 64) (v : Word), profRefused (profOf (storeMask (profStaged s p) (profA p) 0x7FFF v) p) = true) :=
  ⟨⟨inRsp z fun r => { r with ruleStage := [(6, 0x123)] }, 3, 0x123, by decide +kernel⟩,
   ⟨z, 3, 7, by decide +kernel⟩,
   ⟨inRsp z fun r => { r with profStage := [(28, (0x10, 9))] }, 3, .ip, 9, 7, by decide +kernel⟩,
   ⟨z, 3, 2, by decide +kernel⟩⟩

theorem witness_ResponderLanesTakeEffect :
    (∃ (s : State) (k : Fin 16) (r : Req), laneHealthy s k = true ∧ laneAwake s k = true ∧ (laneOf s k).jobs.length < 8 ∧ nextReq s k = some r ∧ fellSilent s (profOf s r.prof) r = none ∧ (profOf s r.prof).proto ≠ 1) ∧
    (∃ (s : State) (k : Fin 16) (r : Req) (c : Option Nat), laneHealthy s k = true ∧ laneAwake s k = true ∧ (laneOf s k).jobs.length < 8 ∧ nextReq s k = some r ∧ fellSilent s (profOf s r.prof) r = some c) ∧
    (∃ (s : State) (k : Fin 16) (r : Req) (u : State) (n : NtsJob), laneHealthy s k = true ∧ laneAwake s k = true ∧ (laneOf s k).jobs.length < 8 ∧ nextReq s k = some r ∧ fellSilent s (profOf s r.prof) r = none ∧ (profOf s r.prof).proto = 1 ∧ startNts (pmcSignal { s with rsp := { s.rsp with waiting := s.rsp.waiting.erase r } } 0x200 r.j 1) r = (u, some n)) ∧
    (∃ (s : State) (k : Fin 16) (jb : Job) (rest : List Job), (laneOf s k).jobs = jb :: rest) ∧
    (∃ (s : State) (k : Fin 16), (laneOf s k).faulty = false) ∧
    (∃ (k : Nat), k < 16) ∧
    (∃ (s : State) (k : Fin 16), (laneOf s k).testing = true) :=
  ⟨⟨inTb (inRsp (wr live 0xB00008 0xFFFF) fun r => { r with waiting := [request] }) fun t => { t with timeValid := true }, 0, request, by decide +kernel⟩,
   ⟨inRsp (wr (wr live 0xB00008 0xFFFF) 0xB02000 3) fun r => { r with waiting := [request] }, 0, request, some (rspCtr 0), by decide +kernel⟩,
   ⟨ntsLane, 0, ntsRequest, ntsStarted.1, ntsStarted.2.getD .plain, by decide +kernel⟩,
   ⟨setLane live 0 { Lane.cold with jobs := [laneJob] }, 0, laneJob, [], by decide +kernel⟩,
   ⟨z, 0, by decide +kernel⟩,
   ⟨0, by decide +kernel⟩,
   ⟨setLane z 0 { Lane.cold with testing := true }, 0, by decide +kernel⟩⟩

theorem witness_ScheduledSlotsSendFrames :
    (∃ (s : State) (p : Fin 64) (r : Nat) (j : Fin 16), (profOf s p).bcast = true ∧ s.tb.timeValid = true ∧ ((List.range 256).find? fun r => flag (rd s (ruleA r)) 0 && decide (fld (rd s (ruleA r)) 1 2 = 1) && decide (fld (rd s (ruleA r)) 10 6 = p)) = some r ∧ flag (rd s (ruleA r)) (16 + j.val) = true ∧ flag (ruleAddr s (j.val / 4) (fld (rd s (ruleA r)) 3 7)).2 4 = true ∧ flag (ruleAddr s (j.val / 4) (fld (rd s (ruleA r)) 3 7)).2 (j.val % 4) = true ∧ slotOpen s j = true ∧ isTimeRx s j p = false) ∧
    (∃ (s : State) (p : Fin 64) (j : Fin 16), schedules s p j = true ∧ (profOf s p).unicast = false ∧ s.tb.timeValid = true) ∧
    (∃ (s : State) (p : Fin 64) (j : Fin 16), schedules s p j = true ∧ (profOf s p).unicast = false ∧ announces s p = true) ∧
    (∃ (s : State) (j : Fin 16) (p : Nat) (k : Nat) (q : Nat) (x : Nat), s.rsp.syncSent.find? (fun e => decide (e.1 = j.val)) = some (j.val, p, k, q, x) ∧ 4096 ≤ k ∧ slotOpen s j = true ∧ s.tb.timeValid = true) ∧
    (∃ (s : State) (j : Fin 16) (f : Bytes) (a : Nat) (b : Nat) (p : Nat), s.rsp.pdelaySent.find? (fun e => decide (e.1 = j.val)) = some (j.val, f, a, b, p) ∧ portEnabled s j = true ∧ (portOf s j).up = true) ∧
    (∃ (s : State) (g : Fin 4096), (grantOf s g).live = true ∧ (grantOf s g).typ = 0 ∧ s.tb.timeValid = true ∧ slotOpen s (grantOf s g).j = true ∧ (profOf s (grantOf s g).prof).en = true ∧ (profOf s (grantOf s g).prof).proto = 2 ∧ isTimeRx s (grantOf s g).j (grantOf s g).prof = false) ∧
    (∃ (s : State) (g : Fin 4096), (grantOf s g).expiry ≤ nowSec s) ∧
    (∃ (s : State), rb s 0x400210 0 = true ∧ portEnabled s (timeRxPort s) = true ∧ (portOf s (timeRxPort s)).up = true) ∧
    (∃ (s : State) (j : Fin 16), portEnabled s j = true ∧ (portOf s j).up = true) :=
  ⟨⟨inTb (wr (wr (wr (wr port0 0xB00000 1) 0xB02000 0x101) 0xB01000 0x10003) 0xB04004 0x11) fun t => { t with timeValid := true }, 0, 0, 0, by decide +kernel⟩,
   ⟨inTb (wr (wr (wr (wr port0 0xB00000 1) 0xB02000 5) 0xB01000 0x10001) 0xB04004 0x11) fun t => { t with timeValid := true }, 0, 0, by decide +kernel⟩,
   ⟨inTb (wr (wr (wr (wr port0 0xB00000 1) 0xB02000 5) 0xB01000 0x10001) 0xB04004 0x11) fun t => { t with timeValid := true }, 0, 0, by decide +kernel⟩,
   ⟨inRsp (inTb (wr (wr (wr (wr port0 0xB00000 1) 0xB02000 5) 0xB01000 0x10001) 0xB04004 0x11) fun t => { t with timeValid := true }) fun r => { r with syncSent := [(0, 0, 10000, 5, 9)] }, 0, 0, 10000, 5, 9, by decide +kernel⟩,
   ⟨inRsp (inTb (wr (wr (wr (wr port0 0xB00000 1) 0xB02000 5) 0xB01000 0x10001) 0xB04004 0x11) fun t => { t with timeValid := true }) fun r => { r with pdelaySent := [(0, List.replicate 90 0, 1, 2, 0)] }, 0, List.replicate 90 0, 1, 2, 0, by decide +kernel⟩,
   ⟨setGrant (inTb (wr (wr (wr (wr port0 0xB00000 1) 0xB02000 5) 0xB01000 0x10001) 0xB04004 0x11) fun t => { t with timeValid := true }) 3 { Grant.cold with live := true, peer := List.replicate 10 0, expiry := 10 }, 3, by decide +kernel⟩,
   ⟨z, 3, by decide +kernel⟩,
   ⟨wr port0 0x400210 1, by decide +kernel⟩,
   ⟨port0, 0, by decide +kernel⟩⟩

theorem witness_NtsRotationsRunTheirSteps :
    (∃ (s : State) (k : Nat), curSlot? s = some k ∧ s.nts.conflict = false ∧ (slotOf s k).born + (rd s 0xC00010).toNat ≤ nowSec s ∧ s.tb.timeValid = true ∧ s.nts.phase = .idle ∧ mitStandby s = false) ∧
    (∃ (s : State), s.nts.phase = .draw ∧ entDelivering s = true ∧ CommitFits s clsKeys) ∧
    (∃ (s : State), s.nts.phase = .commit ∧ keysQueued s = false ∧ (inPair s = false ∨ fromPeer s = true) ∧ s.nts.held = []) ∧
    (∃ (s : State), s.nts.phase = .commit ∧ keysQueued s = false ∧ inPair s = true ∧ fromPeer s = false) ∧
    (∃ (s : State), s.nts.phase = .commit ∧ keysQueued s = false ∧ s.nts.held = [] ∧ s.nts.cmd = none) ∧
    (∃ (s : State) (e : MirrorOut), s.nts.phase = .mirror ∧ s.nts.held = [] ∧ s.mit.toMirror.find? (fun x => !x.late) = some e ∧ e.serial = s.nts.waitSerial ∧ e.cls = clsKeys) ∧
    (∃ (s : State), s.nts.phase = .mirror ∧ s.nts.held = [] ∧ s.mit.toMirror.find? (fun x => !x.late) = none) ∧
    (∃ (s : State) (e : MirrorOut), s.mit.toMirror.find? (fun x => !x.late) = some e ∧ (s.nts.phase ≠ .mirror ∨ e.serial ≠ s.nts.waitSerial)) ∧
    (∃ (s : State), s.nts.retry = true ∧ s.nts.phase = .idle ∧ mitStandby s = false) :=
  ⟨⟨inTb (inNts live fun n => { n with slots := [(0, { st := .current, id := 1, key := [], born := 0 })], phase := .idle }) fun t => { t with timeValid := true, counter := ofWords 0 0x2000000 0 }, 0, by decide +kernel⟩,
   ⟨inEnt (inNts live fun n => { n with phase := .draw }) fun e => { e with started := true, ready := true }, by unfold CommitFits; decide +kernel⟩,
   ⟨inNts live fun n => { n with phase := .commit }, by decide +kernel⟩,
   ⟨inMit (inNts live fun n => { n with phase := .commit }) fun m => { m with en := true, linkUp := true, st := .active, paired := true }, by decide +kernel⟩,
   ⟨inNts live fun n => { n with phase := .commit }, by decide +kernel⟩,
   ⟨inMit (inNts live fun n => { n with phase := .mirror, waitSerial := 4 }) fun m => { m with toMirror := [{ cls := 2, seg := 0, serial := 4, late := false }] }, { cls := 2, seg := 0, serial := 4, late := false }, by decide +kernel⟩,
   ⟨inNts live fun n => { n with phase := .mirror }, by decide +kernel⟩,
   ⟨inMit (live) fun m => { m with toMirror := [{ cls := 3, seg := 1, serial := 4, late := false }] }, { cls := 3, seg := 1, serial := 4, late := false }, by decide +kernel⟩,
   ⟨inNts live fun n => { n with retry := true }, by decide +kernel⟩⟩

theorem witness_NtsKeyCommandsTakeEffect :
    (∃ (s : State), s.nts.phase = .idle ∧ (curSlot? s).isSome = true ∧ s.nts.conflict = false) ∧
    (∃ (s : State), s.nts.phase = .idle) ∧
    (∃ (s : State) (sl : Tab KeySlot) (c : Option Bytes), s.nts.phase = .idle ∧ s.nts.conflict = true ∧ s.loam.prevKeys = some (.keys sl c) ∧ CommitFits s clsKeys) ∧
    (∃ (s : State), s.nts.phase = .idle ∧ paired2 s = true ∧ CommitFits s clsKeys) ∧
    (∃ (s : State), s.nts.phase ≠ .idle) ∧
    (∃ (s : State), s.nts.phase = .idle ∧ s.nts.held = []) :=
  ⟨⟨inTb (inNts live fun n => { n with slots := [(0, { st := .current, id := 1, key := [], born := 0 })], phase := .idle }) fun t => { t with timeValid := true, counter := ofWords 0 0x2000000 0 }, by decide +kernel⟩,
   ⟨live, by decide +kernel⟩,
   ⟨inLoam (inNts live fun n => { n with conflict := true }) fun l => { l with prevKeys := some (.keys [] none) }, [], none, by unfold CommitFits; decide +kernel⟩,
   ⟨inMit (live) fun m => { m with en := true, linkUp := true, st := .active, paired := true }, by unfold CommitFits; decide +kernel⟩,
   ⟨inNts live fun n => { n with phase := .draw }, by decide +kernel⟩,
   ⟨z, by decide +kernel⟩⟩

theorem witness_MintDeliversCookies :
    ∃ (s : State) (r : Fin 256) (x : Fetched) (rest : List Fetched) (k : Nat), 144 ≤ r.val ∧ r.val ≤ 151 ∧ (ringOf s r).fetched = x :: rest ∧ le16 x.desc 14 = 0 ∧ leNat (sub x.desc 20 12) = 0 ∧ byteAt x.desc 10 = 1 ∧ 1 ≤ byteAt x.desc 11 ∧ byteAt x.desc 11 ≤ 8 ∧ le16 x.desc 12 = 15 ∧ 64 + 104 * byteAt x.desc 11 ≤ le16 x.desc 8 ∧ s.ent.ready = true ∧ byteAt x.desc 11 ≤ poolLevel s ∧ curSlot? s = some k ∧ s.nts.conflict = false :=
  ⟨inEnt (ringWith (inTb (inNts live fun n => { n with slots := [(0, { st := .current, id := 1, key := [], born := 0 })], phase := .idle }) fun t => { t with timeValid := true, counter := ofWords 0 0x2000000 0 }) 144 [got [0, 0, 0x10100A8, 15, 0, 0, 0, 0]]) fun e => { e with started := true, ready := true }, 144, got [0, 0, 0x10100A8, 15, 0, 0, 0, 0], [], 0, by decide +kernel⟩

theorem witness_GauntletTakesEffect :
    (∃ (s : State), entDelivering s = true ∧ s.gnt.rekey = true) ∧
    (∃ (s : State) (k : Nat) (idx : Nat), k < 64 ∧ polEn s k = true ∧ polBase s k ≤ idx ∧ idx < polBase s k + 2 ^ polSize s k ∧ ((∃ e ∈ s.gnt.fill, e.1 ≤ idx ∧ idx < e.2.1)) ∧ ((∀ q < 64, q ≠ k → polEn s q = true → idx < polBase s q ∨ polBase s q + 2 ^ polSize s q ≤ idx))) ∧
    (∃ (v : Word), flag v 0 = false ∧ fld v 1 2 ≠ 3) ∧
    (∃ (s : State) (k : Fin 64) (v : Word), fld v 1 2 ≠ 3 ∧ (flag v 0 = false ∨ regionBad (storeMask s (polA k) 0xFFFFFCFF v) k = false) ∧ ¬(polSize (storeMask s (polA k) 0xFFFFFCFF v) k = polSize s k ∧ polBase (storeMask s (polA k) 0xFFFFFCFF v) k = polBase s k)) ∧
    (∃ (s : State) (k : Fin 64) (v : Word), flag v 0 = true ∧ fld v 1 2 ≠ 3 ∧ regionBad (storeMask s (polA k) 0xFFFFFCFF v) k = true) ∧
    (∃ (s : State) (k : Fin 64) (v : Word), flag v 0 = true ∧ fld v 1 2 ≠ 3 ∧ regionBad (storeMask s (polA k) 0xFFFFFCFF v) k = false ∧ polSize (storeMask s (polA k) 0xFFFFFCFF v) k = polSize s k ∧ polBase (storeMask s (polA k) 0xFFFFFCFF v) k = polBase s k) :=
  ⟨⟨inEnt (inGnt live fun g => { g with rekey := true }) fun e => { e with started := true, ready := true }, by decide +kernel⟩,
   ⟨inGnt (wr live 0xD00400 0x51) fun g => { g with fill := [(0, 1024, 0, 0)] }, 0, 3, by decide +kernel⟩,
   ⟨0, by decide +kernel⟩,
   ⟨wr live 0xD00400 0, 1, 0x80000051, by decide +kernel⟩,
   ⟨live, 0, 1, by decide +kernel⟩,
   ⟨wr live 0xD00400 0x51, 0, 0x51, by decide +kernel⟩⟩

theorem witness_RingsTakeEffect :
    (∃ (s : State) (r : Fin 256) (v : Word), fld v 16 16 = 0 ∧ isRecordRing r = false ∧ (ringOf s r).st = .running ∧ (BitVec.ofNat 16 v.toNat - (ringOf s r).q).toNat ≤ ringSize s r - 1) ∧
    (∃ (s : State) (r : Fin 256) (v : Word), fld v 16 16 = 0 ∧ isRecordRing r = false ∧ (ringOf s r).st = .running ∧ ringSize s r - 1 < (BitVec.ofNat 16 v.toNat - (ringOf s r).q).toNat) ∧
    (∃ (s : State) (r : Fin 256) (v : Word), fld v 16 15 = 0 ∧ (ringOf s r).st = .running ∧ (BitVec.ofNat 16 v.toNat - (ringOf s r).c).toNat ≤ ((ringOf s r).q - (ringOf s r).c).toNat) ∧
    (∃ (s : State) (r : Fin 256), mayFetch s r = true) ∧
    (∃ (s : State) (r : Fin 256) (cfg : Word), (ringOf s r).st = .disabled ∧ enableBad (storeMask s (ringA r + 0x10) 0xFFE cfg) r = false) ∧
    (∃ (s : State) (r : Fin 256), (ringOf s r).st = .running) ∧
    (∃ (s : State) (r : Fin 256), (ringOf s r).st = .error) ∧
    (∃ (s : State) (r : Fin 256), (ringOf s r).st = .stopping ∧ (isRecordRing r = true ∨ (ringOf s r).q = (ringOf s r).p)) :=
  ⟨⟨setRing (wr live (ringA 0 + 0x10) 0xD) 0 { Ring.cold with st := .running }, 0, 5, by decide +kernel⟩,
   ⟨setRing (wr live (ringA 0 + 0x10) 0xD) 0 { Ring.cold with st := .running }, 0, 64, by decide +kernel⟩,
   ⟨setRing (wr live (ringA 0 + 0x10) 0xD) 0 { Ring.cold with st := .running, q := 5 }, 0, 3, by decide +kernel⟩,
   ⟨setRing (wr live (ringA 128 + 0x10) 0xD) 128 { Ring.cold with st := .running, p := 1 }, 128, by decide +kernel⟩,
   ⟨live, 0, 0xD, by decide +kernel⟩,
   ⟨setRing (wr live (ringA 0 + 0x10) 0xD) 0 { Ring.cold with st := .running }, 0, by decide +kernel⟩,
   ⟨setRing (wr live (ringA 0 + 0x10) 0xD) 0 { Ring.cold with st := .error }, 0, by decide +kernel⟩,
   ⟨setRing (wr live (ringA 0 + 0x10) 0xD) 0 { Ring.cold with st := .stopping, p := 5, q := 5 }, 0, by decide +kernel⟩⟩

theorem witness_VectorsAndLinkTakeEffect :
    (∃ (s : State) (v : Fin 64), (vecOf s v).pending = true ∧ vecDue s v = true ∧ vecMasked s v = false) ∧
    (∃ (s : State) (v : Fin 64), (vecOf s v).pending = true ∧ vecDue s v = true ∧ vecMasked s v = true) ∧
    (∃ (s : State) (v : Fin 64), (vecOf s v).pba = true ∧ s.hif.funcMask = false) ∧
    (∃ (s : State) (v : Fin 64), (vecOf s v).pba = true ∧ s.hif.funcMask = true) ∧
    (∃ (s : State) (v : Fin 64), (vecOf s v).pba = false) :=
  ⟨⟨setVec (wr (setRing (wr live (ringA 0 + 0x10) 0xD) 0 { Ring.cold with st := .running, armed := true, q := 1 }) 0xE0800C 0) 0 { Vec.cold with pending := true, count := 1 }, 0, by decide +kernel⟩,
   ⟨setVec (wr (setRing (wr live (ringA 0 + 0x10) 0xD) 0 { Ring.cold with st := .running, armed := true, q := 1 }) 0xE0800C 1) 0 { Vec.cold with pending := true, count := 1 }, 0, by decide +kernel⟩,
   ⟨setVec (wr live 0xE0800C 1) 0 { Vec.cold with pba := true }, 0, by decide +kernel⟩,
   ⟨(let s := setVec live 0 { Vec.cold with pba := true }; { s with hif := { s.hif with funcMask := true } }), 0, by decide +kernel⟩,
   ⟨live, 0, by decide +kernel⟩⟩

theorem witness_ModularOperationsCompute :
    (∃ (s : State) (c : Fin 12) (j : PkeJob), Runs s c j 0x01) ∧
    (∃ (s : State) (c : Fin 12) (j : PkeJob), Runs s c j 0x02) ∧
    (∃ (s : State) (c : Fin 12) (j : PkeJob), Runs s c j 0x03) ∧
    (∃ (s : State) (c : Fin 12) (j : PkeJob) (v : Nat), Runs s c j 0x04 ∧ modInv (jobField j 0) (jobField j 1) = some v) ∧
    (∃ (s : State) (c : Fin 12) (j : PkeJob), Runs s c j 0x04 ∧ modInv (jobField j 0) (jobField j 1) = none) ∧
    (∃ (s : State) (c : Fin 12) (j : PkeJob), Runs s c j 0x05) :=
  ⟨⟨withJob (job 96 32 1 (op32 5 ++ op32 6 ++ op32 7)), 0, job 96 32 1 (op32 5 ++ op32 6 ++ op32 7), by unfold Runs; decide +kernel⟩,
   ⟨withJob (job 96 32 2 (op32 5 ++ op32 6 ++ op32 7)), 0, job 96 32 2 (op32 5 ++ op32 6 ++ op32 7), by unfold Runs; decide +kernel⟩,
   ⟨withJob (job 96 32 3 (op32 5 ++ op32 6 ++ op32 7)), 0, job 96 32 3 (op32 5 ++ op32 6 ++ op32 7), by unfold Runs; decide +kernel⟩,
   ⟨withJob (job 64 32 4 (op32 3 ++ op32 7)), 0, job 64 32 4 (op32 3 ++ op32 7), 5, by unfold Runs; decide +kernel⟩,
   ⟨withJob (job 64 32 4 (op32 3 ++ op32 9)), 0, job 64 32 4 (op32 3 ++ op32 9), by unfold Runs; decide +kernel⟩,
   ⟨withJob (job 96 32 5 (op32 5 ++ op32 6 ++ op32 7)), 0, job 96 32 5 (op32 5 ++ op32 6 ++ op32 7), by unfold Runs; decide +kernel⟩⟩

theorem witness_SignaturesAndKeyAgreementCompute :
    (∃ (s : State) (c : Fin 12) (j : PkeJob), Runs s c j 0x10) ∧
    (∃ (s : State) (c : Fin 12) (j : PkeJob), Runs s c j 0x11) ∧
    (∃ (s : State) (c : Fin 12) (j : PkeJob), Runs s c j 0x12) ∧
    (∃ (s : State) (c : Fin 12) (j : PkeJob), Runs s c j 0x13) ∧
    (∃ (s : State) (c : Fin 12) (j : PkeJob), Runs s c j 0x14) ∧
    (∃ (s : State) (c : Fin 12) (j : PkeJob) (m : Nat), Runs s c j 0x15 ∧ rsaOfJob j = some m) ∧
    (∃ (s : State) (c : Fin 12) (j : PkeJob), Runs s c j 0x15 ∧ rsaOfJob j = none) ∧
    (∃ (s : State) (c : Fin 12) (j : PkeJob), Runs s c j 0x16) :=
  ⟨⟨withJob (job 64 64 16 (op32 5 ++ op32 6)), 0, job 64 64 16 (op32 5 ++ op32 6), by unfold Runs; decide +kernel⟩,
   ⟨withJob (job 160 0 17 (op32 5 ++ op32 p256.gx ++ op32 p256.gy ++ op32 1 ++ op32 1)), 0, job 160 0 17 (op32 5 ++ op32 p256.gx ++ op32 p256.gy ++ op32 1 ++ op32 1), by unfold Runs; decide +kernel⟩,
   ⟨withJob (job 33 64 18 (op32 5 ++ [1])), 0, job 33 64 18 (op32 5 ++ [1]), by unfold Runs; decide +kernel⟩,
   ⟨withJob (job 97 0 19 ((0x58 :: List.replicate 31 0x66) ++ (0x58 :: List.replicate 31 0x66) ++ (1 :: List.replicate 31 0) ++ [1])), 0, job 97 0 19 ((0x58 :: List.replicate 31 0x66) ++ (0x58 :: List.replicate 31 0x66) ++ (1 :: List.replicate 31 0) ++ [1]), by unfold Runs; decide +kernel⟩,
   ⟨withJob (job 64 32 20 (op32 5 ++ (9 :: List.replicate 31 0))), 0, job 64 32 20 (op32 5 ++ (9 :: List.replicate 31 0)), by unfold Runs; decide +kernel⟩,
   ⟨withJob (rsaJob 1 1 3 0), 0, rsaJob 1 1 3 0, 0, by unfold Runs; decide +kernel, rsaWorks⟩,
   ⟨withJob (rsaJob 1 3 2 2), 0, rsaJob 1 3 2 2, by unfold Runs; decide +kernel, rsaFails⟩,
   ⟨withJob (job 520 256 534 (beBytes 256 5 ++ beBytes 256 7 ++ beBytes 8 3)), 0, job 520 256 534 (beBytes 256 5 ++ beBytes 256 7 ++ beBytes 8 3), by unfold Runs; decide +kernel⟩⟩

theorem witness_KeyOperationsMoveKeys :
    (∃ (s : State) (c : Fin 12) (j : PkeJob) (p : Bytes), Runs s c j 0x18 ∧ keyUnwrap (deviceKey s) (jobInput j) = some p ∧ headerOk (p.take 8) = true ∧ plainLen (keyType p) = p.length) ∧
    (∃ (s : State) (c : Fin 12) (j : PkeJob), Runs s c j 0x18 ∧ keyUnwrap (deviceKey s) (jobInput j) = none) ∧
    (∃ (s : State) (c : Fin 12) (j : PkeJob), Runs s c j 0x19) ∧
    (∃ (s : State) (c : Fin 12) (j : PkeJob), Runs s c j 0x1A) ∧
    (∃ (s : State) (c : Fin 12) (j : PkeJob), Runs s c j 0x1B) :=
  ⟨⟨withJob (job 48 0 2072 (keyWrap (deviceKey z) ((3 :: List.replicate 7 0) ++ op32 5))), 0, job 48 0 2072 (keyWrap (deviceKey z) ((3 :: List.replicate 7 0) ++ op32 5)), (3 :: List.replicate 7 0) ++ op32 5, by unfold Runs; decide +kernel⟩,
   ⟨withJob (job 48 0 2072 (List.replicate 48 0)), 0, job 48 0 2072 (List.replicate 48 0), by unfold Runs; decide +kernel⟩,
   ⟨withJob (job 40 48 25 ((3 :: List.replicate 7 0) ++ op32 5)), 0, job 40 48 25 ((3 :: List.replicate 7 0) ++ op32 5), by unfold Runs; decide +kernel⟩,
   ⟨withJob (job 8 80 2074 (3 :: List.replicate 7 0)), 0, job 8 80 2074 (3 :: List.replicate 7 0), by unfold Runs; decide +kernel⟩,
   ⟨withJob (job 0 0 2075 ([])), 0, job 0 0 2075 ([]), by unfold Runs; decide +kernel⟩⟩

theorem witness_PkeJobsAreRun :
    (∃ (s : State) (c : Nat) (j : PkeJob), s.pke.held = false ∧ s.clk.noPke = false ∧ clkRuns s.clk.pke = true ∧ idleCore? s = some c ∧ nextInteractive s = some j) ∧
    (∃ (s : State) (c : Nat) (j : PkeJob), s.pke.held = false ∧ s.clk.noPke = false ∧ clkRuns s.clk.pke = true ∧ idleCore? s = some c ∧ nextInteractive s = none ∧ bulkRunning s < 12 - rf s 0xF00000 4 4 ∧ nextBulk s = some j) ∧
    (∃ (s : State) (r : Fin 256) (j : PkeJob), s.pke.jobs.find? (fun j => decide (j.ring = r.val) && decide (j.stage = .draw)) = some j ∧ (earlier s j).any (fun x => isKeyOp (pkeOp x.desc)) = false ∧ validate s.pke.wrapLock j.desc j.input (if pkeUseSlot j.desc then slotKeyOf s (pkeSlot j.desc) else []) = 0 ∧ entDelivering s = true) ∧
    (∃ (s : State) (c : Fin 12) (j : PkeJob), jobOn s c = some j ∧ isInteractive j = false ∧ j.abort = false ∧ (nextInteractive s).isSome = true ∧ idleCore? s = none) ∧
    (∃ (s : State) (c : Fin 12) (j : PkeJob), clkRuns s.clk.pke = true ∧ jobOn s c = some j ∧ j.abort = false ∧ j.result ≠ notRun) ∧
    (∃ (s : State) (c : Fin 12) (j : PkeJob), clkRuns s.clk.pke = true ∧ jobOn s c = some j) ∧
    (∃ (s : State) (r : Fin 256) (j : PkeJob), waitingRandom s r = some j ∧ validate s.pke.wrapLock j.desc j.input [] = 0 ∧ entDelivering s = true) ∧
    (∃ (s : State) (r : Fin 256) (j : PkeJob), oldestRandom s r = some j ∧ entDelivering s = false) ∧
    (∃ (s : State) (c : Fin 12) (j : PkeJob), jobOn s c = some j ∧ j.result = notRun ∧ sizeOk (pkeOp j.desc) (pkeSize j.desc) = false) :=
  ⟨⟨wr (withJob ({ job 96 32 1 (op32 5 ++ op32 6 ++ op32 7) with ring := 128, stage := .ready })) 0xF00008 0xFFF, 0, { job 96 32 1 (op32 5 ++ op32 6 ++ op32 7) with ring := 128, stage := .ready }, by decide +kernel⟩,
   ⟨wr (withJob ({ job 96 32 1 (op32 5 ++ op32 6 ++ op32 7) with ring := 140, stage := .ready })) 0xF00008 0xFFF, 0, { job 96 32 1 (op32 5 ++ op32 6 ++ op32 7) with ring := 140, stage := .ready }, by decide +kernel⟩,
   ⟨inEnt (withJob ({ job 96 32 1 (op32 5 ++ op32 6 ++ op32 7) with ring := 128, stage := .draw })) fun e => { e with started := true, ready := true }, 128, { job 96 32 1 (op32 5 ++ op32 6 ++ op32 7) with ring := 128, stage := .draw }, by decide +kernel⟩,
   ⟨inPke (wr live 0xF00008 1) fun p => { p with jobs := [{ job 96 32 1 (op32 5 ++ op32 6 ++ op32 7) with ring := 140, stage := .running 0 }, { job 96 32 1 (op32 5 ++ op32 6 ++ op32 7) with ring := 128, stage := .ready }] }, 0, { job 96 32 1 (op32 5 ++ op32 6 ++ op32 7) with ring := 140, stage := .running 0 }, by decide +kernel⟩,
   ⟨withJob ({ job 96 32 1 (op32 5 ++ op32 6 ++ op32 7) with ring := 128, stage := .running 0, result := 0 }), 0, { job 96 32 1 (op32 5 ++ op32 6 ++ op32 7) with ring := 128, stage := .running 0, result := 0 }, by decide +kernel⟩,
   ⟨withJob ({ job 96 32 1 (op32 5 ++ op32 6 ++ op32 7) with ring := 128, stage := .running 0 }), 0, { job 96 32 1 (op32 5 ++ op32 6 ++ op32 7) with ring := 128, stage := .running 0 }, by decide +kernel⟩,
   ⟨inEnt (withJob { job 0 16 0x20 [] with stage := .ready }) fun e => { e with started := true, ready := true }, 128, { job 0 16 0x20 [] with stage := .ready }, by decide +kernel⟩,
   ⟨withJob { job 0 16 0x20 [] with stage := .ready }, 128, { job 0 16 0x20 [] with stage := .ready }, by decide +kernel⟩,
   ⟨withJob (job 0 0 0x77 []), 0, job 0 0 0x77 [], by decide +kernel⟩⟩

theorem witness_CoreTestsAndAbortsAreExact :
    (∃ (k : Nat), k < 12) ∧
    (∃ (s : State) (c : Fin 12), (coreOf s c).testing = true) :=
  ⟨⟨0, by decide +kernel⟩,
   ⟨inPke live fun p => { p with cores := [(0, { faulty := false, testing := true })] }, 0, by decide +kernel⟩⟩

theorem witness_EntropyTakesEffect :
    (∃ (s : State), s.ent.started = true ∧ s.ent.ready = false ∧ s.ent.katFail = false ∧ cannotReseed s = false) ∧
    (∃ (rct : Bool) (apt : Bool), (rct = true ∨ apt = true)) ∧
    (∃ (s : State), s.ent.ready = true ∧ s.ent.reseeding = false ∧ reseedIsDue s = true ∧ cannotReseed s = false) ∧
    (∃ (s : State), s.ent.ready = true ∧ s.ent.reseeding = false ∧ reseedIsDue s = true ∧ cannotReseed s = true) ∧
    (∃ (s : State), reseedIsDue s = false) ∧
    (∃ (s : State), s.ent.ready = true ∧ cannotReseed s = false) ∧
    (∃ (s : State), s.ent.reseeding = true) ∧
    (∃ (s : State), s.ent.servingOld = true ∧ s.ent.blocked = false ∧ seedTooOld s = true) :=
  ⟨⟨inEnt live fun e => { e with started := true }, by decide +kernel⟩,
   ⟨true, true, by decide +kernel⟩,
   ⟨inEnt live fun e => { e with ready := true, reqs := 1048576 }, by decide +kernel⟩,
   ⟨inEnt live fun e => { e with ready := true, failing := 3, reqs := 1048576 }, by decide +kernel⟩,
   ⟨live, by decide +kernel⟩,
   ⟨inEnt live fun e => { e with ready := true }, by decide +kernel⟩,
   ⟨inEnt live fun e => { e with reseeding := true }, by decide +kernel⟩,
   ⟨inEnt live fun e => { e with servingOld := true, reqs := 1048576 }, by decide +kernel⟩⟩

theorem witness_LoamCommandsTakeEffect :
    (∃ (s : State) (r : Fin 256) (x : Fetched), LoamCmd s r x 0x01 ∧ ((loamCls x.desc = clsCfg ∨ loamCls x.desc = clsTime)) ∧ CommitFits s (loamCls x.desc)) ∧
    (∃ (s : State) (r : Fin 256) (x : Fetched) (p : Payload) (c : Copy), LoamCmd s r x 0x02 ∧ s.nts.conflict = false ∧ recOf s (loamCls x.desc) (loamSeg x.desc) = some p ∧ copyInUse s (loamCls x.desc) (loamSeg x.desc) = some c ∧ (copyHeader c ++ payloadBytes c.payload).length ≤ loamLen x.desc ∧ (ringOf s r).st = .running) ∧
    (∃ (s : State) (r : Fin 256) (x : Fetched), LoamCmd s r x 0x20 ∧ s.loam.csig = none ∧ loamLen x.desc = 32 ∧ CommitFits s clsKeys) ∧
    (∃ (s : State) (r : Fin 256) (x : Fetched), LoamCmd s r x 0x30 ∧ CommitFits s clsKeys) ∧
    (∃ (s : State) (r : Fin 256) (x : Fetched) (op : Nat), LoamCmd s r x op ∧ loamOpcodes.contains op = false ∧ (ringOf s r).st = .running) :=
  ⟨⟨ringWith (live) 152 [got [0, 0, 0, 769, 0, 0, 0, 0]], 152, got [0, 0, 0, 769, 0, 0, 0, 0], by unfold CommitFits LoamCmd; decide +kernel⟩,
   ⟨ringWith (inLoam live fun l => { l with copies := [copyOf 1 0], recUse := [(96, .words [])], lineUse := [(96, 1)] }) 152 [got [0, 0, 4096, 770, 0, 0, 0, 0]], 152, got [0, 0, 4096, 770, 0, 0, 0, 0], .words [], copyOf 1 0, by unfold LoamCmd; decide +kernel⟩,
   ⟨ringWith (live) 152 [got [0, 0, 32, 32, 0, 0, 0, 0]], 152, got [0, 0, 32, 32, 0, 0, 0, 0], by unfold CommitFits LoamCmd; decide +kernel⟩,
   ⟨ringWith (live) 152 [got [0, 0, 0, 48, 0, 0, 0, 0]], 152, got [0, 0, 0, 48, 0, 0, 0, 0], by unfold CommitFits LoamCmd; decide +kernel⟩,
   ⟨ringWith (live) 152 [got [0, 0, 0, 119, 0, 0, 0, 0]], 152, got [0, 0, 0, 119, 0, 0, 0, 0], 0x77, by unfold LoamCmd; decide +kernel⟩⟩

theorem witness_FirmwareSlotsTakeEffect :
    (∃ (s : State) (r : Fin 256) (x : Fetched), LoamCmd s r x 0x10 ∧ fwSlot x ≠ s.loam.runSlot ∧ slotState s (fwSlot x) = .empty ∧ loamOffset x.desc + loamLen x.desc ≤ 0x800000) ∧
    (∃ (s : State) (r : Fin 256) (x : Fetched) (im : ImageCheck), LoamCmd s r x 0x11 ∧ s.nts.conflict = false ∧ fwSlot x ≠ s.loam.runSlot ∧ trialRunning s = false ∧ powerFailing s = false ∧ noSpace s clsFwmeta = false ∧ slotState s (fwSlot x) = .valid ∧ imageAccepted s.loam.csig im = true) ∧
    (∃ (s : State) (r : Fin 256) (x : Fetched) (im : ImageCheck), LoamCmd s r x 0x11 ∧ s.nts.conflict = false ∧ fwSlot x ≠ s.loam.runSlot ∧ trialRunning s = false ∧ powerFailing s = false ∧ noSpace s clsFwmeta = false ∧ slotState s (fwSlot x) = .empty ∧ imageAccepted s.loam.csig im = true) ∧
    (∃ (s : State) (r : Fin 256) (x : Fetched) (im : ImageCheck), LoamCmd s r x 0x11 ∧ s.nts.conflict = false ∧ fwSlot x ≠ s.loam.runSlot ∧ trialRunning s = false ∧ powerFailing s = false ∧ noSpace s clsFwmeta = false ∧ (slotState s (fwSlot x) = .empty ∨ slotState s (fwSlot x) = .valid) ∧ imageAccepted s.loam.csig im = false) ∧
    (∃ (s : State) (r : Fin 256) (x : Fetched), LoamCmd s r x 0x12 ∧ trialRunning s = true ∧ CommitFits s clsFwmeta) ∧
    (∃ (s : State), trialRunning s = true) ∧
    (∃ (s : State) (r : Fin 256) (x : Fetched), LoamCmd s r x 0x13 ∧ trialRunning s = true ∧ s.loam.cur = none) ∧
    (∃ (s : State) (r : Fin 256) (x : Fetched), LoamCmd s r x 0x13 ∧ trialRunning s = true ∧ s.loam.cur.isSome = true ∧ s.glb.deferred = none) :=
  ⟨⟨ringWith (inLoam live fun l => { l with slot0 := .committed }) 152 [got [0, 0, 4, 65552, 0, 0, 0, 0]], 152, got [0, 0, 4, 65552, 0, 0, 0, 0], by unfold LoamCmd; decide +kernel⟩,
   ⟨ringWith (inLoam live fun l => { l with slot0 := .committed, slot1 := .valid }) 152 [got [0, 0, 0, 65553, 0, 0, 0, 0]], 152, got [0, 0, 0, 65553, 0, 0, 0, 0], goodImage, by unfold LoamCmd; decide +kernel⟩,
   ⟨ringWith (inLoam live fun l => { l with slot0 := .committed, slot1 := .empty }) 152 [got [0, 0, 0, 65553, 0, 0, 0, 0]], 152, got [0, 0, 0, 65553, 0, 0, 0, 0], goodImage, by unfold LoamCmd; decide +kernel⟩,
   ⟨ringWith (inLoam live fun l => { l with slot0 := .committed, slot1 := .valid }) 152 [got [0, 0, 0, 65553, 0, 0, 0, 0]], 152, got [0, 0, 0, 65553, 0, 0, 0, 0], { vendor := false, counter := none }, by unfold LoamCmd; decide +kernel⟩,
   ⟨ringWith (inLoam live fun l => { l with runSlot := 0, slot0 := .trial }) 152 [got [0, 0, 0, 18, 0, 0, 0, 0]], 152, got [0, 0, 0, 18, 0, 0, 0, 0], by unfold CommitFits LoamCmd; decide +kernel⟩,
   ⟨inLoam live fun l => { l with runSlot := 0, slot0 := .trial }, by decide +kernel⟩,
   ⟨ringWith (inLoam live fun l => { l with runSlot := 0, slot0 := .trial }) 152 [got [0, 0, 0, 19, 0, 0, 0, 0]], 152, got [0, 0, 0, 19, 0, 0, 0, 0], by unfold LoamCmd; decide +kernel⟩,
   ⟨ringWith (inLoam live fun l => { l with runSlot := 0, slot0 := .trial, cur := some { req := { by_ := .firmware, cls := 3, segs := [0], payload := none }, seg := 0, gen := 1, payload := .words [], rest := [], written := 0, lastGen := 0 } }) 152 [got [0, 0, 0, 19, 0, 0, 0, 0]], 152, got [0, 0, 0, 19, 0, 0, 0, 0], by unfold LoamCmd; decide +kernel⟩⟩

theorem witness_CommitsAndPowerFailuresTakeEffect :
    (∃ (s : State) (c : Commit) (rest : List Commit) (k : Nat) (p : Payload) (more : List (Nat × Payload)), s.loam.cur = none ∧ s.loam.queue = c :: rest ∧ powerFailing s = false ∧ noSpace s c.cls = false ∧ csigTooLate s c = false ∧ commitSegs { s with loam := { s.loam with queue := rest } } c = (k, p) :: more) ∧
    (∃ (s : State) (c : CurCommit), s.loam.cur = some c ∧ c.rest = [] ∧ s.loam.evicted.contains c.req.cls = false) ∧
    (∃ (s : State), s.loam.queue = [] ∧ s.loam.cur = none ∧ s.loam.restored = true ∧ powerFailing s = false ∧ s.loam.st ≠ 3) ∧
    (∃ (s : State), s.loam.pfail = false) ∧
    (∃ (s : State), s.loam.pfail = true) ∧
    (∃ (s : State) (sid : SegId) (b : Bytes), sid.seg.val < segCount sid.cls.val ∧ sid.cls.val ≠ clsCfg ∧ sid.cls.val ≠ clsTime ∧ sid.cls.val ≠ clsKeys ∧ b ≠ [] ∧ CommitFits s sid.cls.val) ∧
    (∃ (s : State), s.glb.powered = false) ∧
    (∃ (s : State), s.glb.powered = true) :=
  ⟨⟨inLoam live fun l => { l with queue := [{ by_ := .firmware, cls := 3, segs := [0], payload := some (.words []) }] }, { by_ := .firmware, cls := 3, segs := [0], payload := some (.words []) }, [], 0, .words [], [], by decide +kernel⟩,
   ⟨inLoam live fun l => { l with cur := some { req := { by_ := .firmware, cls := 3, segs := [0], payload := none }, seg := 0, gen := 1, payload := .words [], rest := [], written := 0, lastGen := 0 } }, { req := { by_ := .firmware, cls := 3, segs := [0], payload := none }, seg := 0, gen := 1, payload := .words [], rest := [], written := 0, lastGen := 0 }, by decide +kernel⟩,
   ⟨live, by decide +kernel⟩,
   ⟨live, by decide +kernel⟩,
   ⟨inLoam live fun l => { l with pfail := true }, by decide +kernel⟩,
   ⟨live, { cls := 6, seg := 0 }, [1], by unfold CommitFits; decide +kernel⟩,
   ⟨inGlb (live) fun g => { g with powered := false }, by decide +kernel⟩,
   ⟨inGlb (live) fun g => { g with powered := true }, by decide +kernel⟩⟩

theorem witness_BrimSearchTakesEffect :
    (∃ (s : State), s.brim.en = false) ∧
    (∃ (s : State), s.brim.en = true) ∧
    (∃ (s : State), s.brim.en = true ∧ s.brim.discPulse = false) ∧
    (∃ (s : State) (o : DiscPulls), s.brim.searching = true ∧ (s.brim.found.contains s.fuse.brimId = false ∨ o.start = true)) ∧
    (∃ (s : State) (o : DiscPulls), s.brim.searching = true ∧ s.brim.found.contains s.fuse.brimId = true ∧ o.start = false) :=
  ⟨⟨live, by decide +kernel⟩,
   ⟨inBrim live fun b => { b with en := true }, by decide +kernel⟩,
   ⟨inBrim live fun b => { b with en := true }, by decide +kernel⟩,
   ⟨inBrim live fun b => { b with searching := true }, { start := false, bits := 0, verify := false }, by decide +kernel⟩,
   ⟨inBrim live fun b => { b with searching := true, upE := true, upW := true, found := [3, 0, 9] }, { start := false, bits := 0, verify := false }, by decide +kernel⟩⟩

theorem witness_BrimLanesExchange :
    (∃ (s : State), s.brim.en = true) ∧
    (∃ (s : State) (i : BitVec 64) (rest : List (BitVec 64)), inRing s.brim = true ∧ s.brim.east = i :: rest ∧ i ≠ s.fuse.brimId) ∧
    (∃ (s : State) (i : BitVec 64) (rest : List (BitVec 64)), inRing s.brim = true ∧ s.brim.west = i :: rest ∧ i ≠ s.fuse.brimId) ∧
    (∃ (s : State), s.mit.linkUp = true) ∧
    (∃ (s : State), s.brim.upE = true) ∧
    (∃ (s : State), s.brim.upW = true) ∧
    (∃ (s : State) (l : Nat) (n : Nat), s.brim.upE = true ∧ brimMember s = true ∧ s.brim.leader = some l ∧ s.brim.leadNew = false ∧ pathTo s.brim (s.brim.members.getD l 0) = some (n, false)) ∧
    (∃ (s : State), brimMember s = true) :=
  ⟨⟨inBrim live fun b => { b with en := true }, by decide +kernel⟩,
   ⟨inBrim live fun b => { b with st := .ring, en := true, members := [0, 3, 9], upE := true, upW := true, east := [3, 9], west := [9, 3] }, 3, [9], by decide +kernel⟩,
   ⟨inBrim live fun b => { b with st := .ring, en := true, members := [0, 3, 9], upE := true, upW := true, east := [3, 9], west := [9, 3] }, 9, [3], by decide +kernel⟩,
   ⟨inMit live fun m => { m with linkUp := true }, by decide +kernel⟩,
   ⟨inBrim live fun b => { b with st := .ring, en := true, members := [0, 3, 9], upE := true, upW := true }, by decide +kernel⟩,
   ⟨inBrim live fun b => { b with st := .ring, en := true, members := [0, 3, 9], upE := true, upW := true }, by decide +kernel⟩,
   ⟨inBrim live fun b => { b with st := .ring, en := true, members := [0, 3, 9], upE := true, upW := true, east := [3, 9], west := [9, 3], leader := some 1 }, 1, 1, by decide +kernel⟩,
   ⟨inBrim live fun b => { b with st := .ring, en := true, members := [0, 3, 9], upE := true, upW := true, east := [3, 9], west := [9, 3], leader := some 1 }, by decide +kernel⟩⟩

theorem witness_BrimLeaderAndToken :
    (∃ (s : State), inRing s.brim = true ∧ leaderGone s = true) ∧
    (∃ (s : State) (q : List (Fin 16)) (el : List Bool) (w : Nat), inRing s.brim = true ∧ leaderGone s = false ∧ bestMember s (electionQls s q) el = some w ∧ s.brim.leader ≠ some w ∧ s.brim.winner = some w ∧ 2 ≤ s.brim.streak) ∧
    (∃ (s : State) (q : List (Fin 16)) (el : List Bool) (w : Nat), inRing s.brim = true ∧ leaderGone s = false ∧ bestMember s (electionQls s q) el = some w ∧ s.brim.leader ≠ some w ∧ s.brim.winner = some w ∧ s.brim.streak < 2) ∧
    (∃ (s : State) (q : List (Fin 16)) (el : List Bool) (w : Nat), inRing s.brim = true ∧ leaderGone s = false ∧ bestMember s (electionQls s q) el = some w ∧ s.brim.leader ≠ some w ∧ s.brim.winner ≠ some w) ∧
    (∃ (s : State), inRing s.brim = true) ∧
    (∃ (s : State) (seq : BitVec 16), inRing s.brim = true ∧ ¬(leads s = true ∧ 0 < (s.brim.tokenSeq - seq).toNat ∧ (s.brim.tokenSeq - seq).toNat < 0x8000)) ∧
    (∃ (s : State) (m : BrimTx) (ms : List BrimTx), inRing s.brim = true ∧ leads s = false ∧ s.brim.txq = m :: ms ∧ ((∀ n ∈ s.brim.txq, ∃ x ∈ (ringOf s n.ring).fetched, x.idx = n.idx))) ∧
    (∃ (s : State) (seq : BitVec 16), leads s = true ∧ 0 < (s.brim.tokenSeq - seq).toNat ∧ (s.brim.tokenSeq - seq).toNat < 0x8000) ∧
    (∃ (s : State), leads s = true) :=
  ⟨⟨wr (inBrim live fun b => { b with st := .ring, en := true, members := [0, 3, 9], upE := true, upW := true, east := [3, 9], west := [9, 3] }) 0x1200000 3, by decide +kernel⟩,
   ⟨wr (inBrim live fun b => { b with st := .ring, en := true, members := [0, 3, 9], upE := true, upW := true, east := [3, 9], west := [9, 3], leader := some 1, winner := some 2, streak := 2 }) 0x1200000 3, [4, 3, 2], [true, true, true], 2, by decide +kernel⟩,
   ⟨wr (inBrim live fun b => { b with st := .ring, en := true, members := [0, 3, 9], upE := true, upW := true, east := [3, 9], west := [9, 3], leader := some 1, winner := some 2, streak := 1 }) 0x1200000 3, [4, 3, 2], [true, true, true], 2, by decide +kernel⟩,
   ⟨wr (inBrim live fun b => { b with st := .ring, en := true, members := [0, 3, 9], upE := true, upW := true, east := [3, 9], west := [9, 3], leader := some 1 }) 0x1200000 3, [4, 3, 2], [true, true, true], 2, by decide +kernel⟩,
   ⟨wr (inBrim live fun b => { b with st := .ring, en := true, members := [0, 3, 9], upE := true, upW := true, east := [3, 9], west := [9, 3], leader := some 1 }) 0x1200000 3, by decide +kernel⟩,
   ⟨wr (inBrim live fun b => { b with st := .ring, en := true, members := [0, 3, 9], upE := true, upW := true, east := [3, 9], west := [9, 3], leader := some 0 }) 0x1200000 3, 5, by decide +kernel⟩,
   ⟨ringWith (wr (inBrim live fun b => { b with st := .ring, en := true, members := [0, 3, 9], upE := true, upW := true, east := [3, 9], west := [9, 3], leader := some 1, txq := [{ ring := 176, idx := 0, dest := 15, body := [], data := [1, 2] }] }) 0x1200000 3) 176 [got [0, 0, 16 + 0xF0000, 0, 0, 9, 0, 0]], { ring := 176, idx := 0, dest := 15, body := [], data := [1, 2] }, [], by decide +kernel⟩,
   ⟨wr (inBrim live fun b => { b with st := .ring, en := true, members := [0, 3, 9], upE := true, upW := true, east := [3, 9], west := [9, 3], leader := some 0, tokenSeq := 5 }) 0x1200000 3, 4, by decide +kernel⟩,
   ⟨wr (inBrim live fun b => { b with st := .ring, en := true, members := [0, 3, 9], upE := true, upW := true, east := [3, 9], west := [9, 3], leader := some 0 }) 0x1200000 3, by decide +kernel⟩⟩

theorem witness_MessagesAreSentAndTaken :
    (∃ (s : State) (r : Fin 256) (x : Fetched), 176 ≤ r.val ∧ r.val ≤ 183 ∧ r.val % 2 = 0 ∧ nextSend s r = some x ∧ 1 ≤ fld (descWord x.desc 2) 0 16 ∧ fld (descWord x.desc 2) 0 16 ≤ 240 ∧ destOk s.brim (fld (descWord x.desc 2) 16 4) = true) ∧
    (∃ (s : State) (r : Fin 256) (x : Fetched), 176 ≤ r.val ∧ r.val ≤ 183 ∧ r.val % 2 = 0 ∧ nextSend s r = some x ∧ 1 ≤ fld (descWord x.desc 2) 0 16 ∧ fld (descWord x.desc 2) 0 16 ≤ 240 ∧ destOk s.brim (fld (descWord x.desc 2) 16 4) = false ∧ (ringOf s r).st = .running) ∧
    (∃ (s : State) (r : Fin 256) (x : Fetched), 176 ≤ r.val ∧ r.val ≤ 183 ∧ r.val % 2 = 0 ∧ nextSend s r = some x ∧ (fld (descWord x.desc 2) 0 16 = 0 ∨ 240 < fld (descWord x.desc 2) 0 16) ∧ (ringOf s r).st = .running) ∧
    (∃ (s : State) (r : Fin 256) (x : Fetched) (rest : List Fetched), 184 ≤ r.val ∧ r.val ≤ 191 ∧ r.val % 2 = 0 ∧ (ringOf s r).st = .running ∧ (ringOf s r).fetched = x :: rest ∧ 1 ≤ fld (descWord x.desc 2) 0 16 ∧ fld (descWord x.desc 2) 0 16 ≤ 240 ∧ s.mit.en = true ∧ s.mit.linkUp = true) ∧
    (∃ (s : State) (r : Fin 256) (x : Fetched) (rest : List Fetched), 176 ≤ r.val ∧ r.val ≤ 183 ∧ r.val % 2 = 1 ∧ (ringOf s r).st = .running ∧ (ringOf s r).fetched = x :: rest) ∧
    (∃ (s : State) (r : Fin 256) (x : Fetched) (rest : List Fetched), 184 ≤ r.val ∧ r.val ≤ 191 ∧ r.val % 2 = 1 ∧ (ringOf s r).st = .running ∧ (ringOf s r).fetched = x :: rest) ∧
    (∃ (s : State) (r : Fin 256), 184 ≤ r.val ∧ r.val ≤ 191 ∧ r.val % 2 = 1 ∧ (ringOf s r).fetched = []) :=
  ⟨⟨ringWith (inBrim live fun b => { b with st := .ring, en := true, members := [0, 3, 9], upE := true, upW := true, east := [3, 9], west := [9, 3] }) 176 [got [0, 0, 16 + 0xF0000, 0, 0, 9, 0, 0]], 176, got [0, 0, 16 + 0xF0000, 0, 0, 9, 0, 0], by decide +kernel⟩,
   ⟨ringWith (live) 176 [got [0, 0, 0x20010, 0, 0, 9, 0, 0]], 176, got [0, 0, 0x20010, 0, 0, 9, 0, 0], by decide +kernel⟩,
   ⟨ringWith (inBrim live fun b => { b with st := .ring, en := true, members := [0, 3, 9], upE := true, upW := true, east := [3, 9], west := [9, 3] }) 176 [got [0, 0, 0, 0, 0, 9, 0, 0]], 176, got [0, 0, 0, 0, 0, 9, 0, 0], by decide +kernel⟩,
   ⟨ringWith (inMit (live) fun m => { m with en := true, linkUp := true, st := .active, paired := true }) 184 [got [0, 0, 16 + 0xF0000, 0, 0, 9, 0, 0]], 184, got [0, 0, 16 + 0xF0000, 0, 0, 9, 0, 0], [], by decide +kernel⟩,
   ⟨ringWith (inBrim live fun b => { b with st := .ring, en := true, members := [0, 3, 9], upE := true, upW := true, east := [3, 9], west := [9, 3] }) 177 [got [0, 0, 16 + 0xF0000, 0, 0, 9, 0, 0]], 177, got [0, 0, 16 + 0xF0000, 0, 0, 9, 0, 0], [], by decide +kernel⟩,
   ⟨ringWith (inMit (live) fun m => { m with en := true, linkUp := true, st := .active, paired := true }) 185 [got [0, 0, 16 + 0xF0000, 0, 0, 9, 0, 0]], 185, got [0, 0, 16 + 0xF0000, 0, 0, 9, 0, 0], [], by decide +kernel⟩,
   ⟨live, 185, by decide +kernel⟩⟩

theorem witness_MittenPairs :
    (∃ (s : State), s.mit.en = false) ∧
    (∃ (s : State), s.mit.en = true ∧ s.mit.linkUp = false) ∧
    (∃ (s : State), mitWanted s = true ∧ s.mit.linkUp = false) ∧
    (∃ (s : State), s.mit.linkUp = true ∧ s.mit.inbandUp = false ∧ s.mit.st = .active) ∧
    (∃ (s : State), s.mit.linkUp = true ∧ s.mit.inbandUp = false ∧ (s.mit.st = .ready ∨ s.mit.st = .standby) ∧ witnessed s = true) ∧
    (∃ (s : State), s.mit.linkUp = true ∧ s.mit.inbandUp = false ∧ s.mit.st = .standby ∧ witnessed s = false) ∧
    (∃ (s : State), s.mit.linkUp = true ∧ s.mit.inbandUp = false ∧ s.mit.st = .ready ∧ witnessed s = false) ∧
    (∃ (s : State) (m : PairMsg), mitWanted s = true ∧ s.mit.linkUp = true ∧ (m.pairId ≠ rd s 0x1300008 ∨ m.signed = false)) ∧
    (∃ (s : State) (m : PairMsg), mitWanted s = true ∧ s.mit.linkUp = true ∧ m.pairId = rd s 0x1300008 ∧ m.signed = true) ∧
    (∃ (s : State) (m : PairMsg), mitWanted s = true ∧ s.mit.linkUp = true ∧ m.pairId = rd s 0x1300008 ∧ m.signed = true ∧ mitActive s = false ∧ mitServes s = true ∧ m.active = false ∧ m.serving = false) ∧
    (∃ (s : State) (m : PairMsg), mitWanted s = true ∧ s.mit.linkUp = true ∧ m.pairId = rd s 0x1300008 ∧ m.signed = true ∧ s.mit.st = .pairing ∧ mitServes s = false ∧ m.serving = true) ∧
    (∃ (s : State) (m : PairMsg), mitWanted s = true ∧ s.mit.linkUp = true ∧ m.pairId = rd s 0x1300008 ∧ m.signed = true ∧ mitActive s = true ∧ m.active = false) ∧
    (∃ (s : State) (m : PairMsg), mitWanted s = true ∧ s.mit.linkUp = true ∧ m.pairId = rd s 0x1300008 ∧ m.signed = true ∧ mitActive s = false ∧ mitStandby s = false ∧ m.active = true) ∧
    (∃ (s : State) (m : PairMsg), mitWanted s = true ∧ s.mit.linkUp = true ∧ m.pairId = rd s 0x1300008 ∧ m.signed = true ∧ mitActive s = true ∧ m.active = true ∧ s.mit.since < m.since) ∧
    (∃ (s : State) (m : PairMsg), mitWanted s = true ∧ s.mit.linkUp = true ∧ m.pairId = rd s 0x1300008 ∧ m.signed = true ∧ mitActive s = true ∧ m.active = true ∧ m.since < s.mit.since) ∧
    (∃ (s : State) (m : PairMsg), mitWanted s = true ∧ s.mit.linkUp = true ∧ m.pairId = rd s 0x1300008 ∧ m.signed = true ∧ s.mit.st = .pairing ∧ mitServes s = m.serving ∧ m.active = false ∧ rb s 0x1300000 1 ≠ m.preferActive) ∧
    (∃ (s : State), (s.mit.st = .pairing ∨ (s.mit.st = .solo ∧ mitWanted s = true))) :=
  ⟨⟨live, by decide +kernel⟩,
   ⟨inMit (live) fun m => { m with en := true }, by decide +kernel⟩,
   ⟨inMit (wr live 0x1300008 7) fun m => { m with en := true }, by decide +kernel⟩,
   ⟨inMit (wr live 0x1300008 7) fun m => { m with en := true, linkUp := true, st := .active }, by decide +kernel⟩,
   ⟨inMit (wr live 0x1300000 4) fun m => { m with en := true, linkUp := true, st := .ready, witness := true }, by decide +kernel⟩,
   ⟨inMit (wr live 0x1300008 7) fun m => { m with en := true, linkUp := true, st := .standby }, by decide +kernel⟩,
   ⟨inMit (wr live 0x1300008 7) fun m => { m with en := true, linkUp := true, st := .ready }, by decide +kernel⟩,
   ⟨inMit (wr live 0x1300008 7) fun m => { m with en := true, linkUp := true, st := .pairing }, { pairId := 8, active := false, serving := false, since := 4, preferActive := false, brimId := 5, pub := [], signed := true }, by decide +kernel⟩,
   ⟨inMit (wr live 0x1300008 7) fun m => { m with en := true, linkUp := true, st := .pairing }, { pairId := 7, active := false, serving := false, since := 4, preferActive := false, brimId := 5, pub := [], signed := true }, by decide +kernel⟩,
   ⟨inMit (wr live 0x1300008 7) fun m => { m with en := true, linkUp := true, st := .pairing, serving := true }, { pairId := 7, active := false, serving := false, since := 4, preferActive := false, brimId := 5, pub := [], signed := true }, by decide +kernel⟩,
   ⟨inMit (wr live 0x1300008 7) fun m => { m with en := true, linkUp := true, st := .pairing }, { pairId := 7, active := false, serving := true, since := 4, preferActive := false, brimId := 5, pub := [], signed := true }, by decide +kernel⟩,
   ⟨inMit (wr live 0x1300008 7) fun m => { m with en := true, linkUp := true, st := .active, serving := true }, { pairId := 7, active := false, serving := false, since := 4, preferActive := false, brimId := 5, pub := [], signed := true }, by decide +kernel⟩,
   ⟨inMit (wr live 0x1300008 7) fun m => { m with en := true, linkUp := true, st := .pairing }, { pairId := 7, active := true, serving := true, since := 4, preferActive := false, brimId := 5, pub := [], signed := true }, by decide +kernel⟩,
   ⟨inMit (wr live 0x1300008 7) fun m => { m with en := true, linkUp := true, st := .active, since := 3 }, { pairId := 7, active := true, serving := false, since := 4, preferActive := false, brimId := 5, pub := [], signed := true }, by decide +kernel⟩,
   ⟨inMit (wr live 0x1300008 7) fun m => { m with en := true, linkUp := true, st := .active, since := 5 }, { pairId := 7, active := true, serving := false, since := 4, preferActive := false, brimId := 5, pub := [], signed := true }, by decide +kernel⟩,
   ⟨inMit (wr live 0x1300008 7) fun m => { m with en := true, linkUp := true, st := .pairing }, { pairId := 7, active := false, serving := false, since := 4, preferActive := true, brimId := 5, pub := [], signed := true }, by decide +kernel⟩,
   ⟨inMit (wr live 0x1300008 7) fun m => { m with en := true, linkUp := true, st := .pairing }, by decide +kernel⟩⟩

theorem witness_MittenWatchesItsPeer :
    (∃ (s : State), s.mit.en = true ∧ s.mit.linkUp = true) ∧
    (∃ (s : State), s.mit.en = true ∧ rb s 0x1300014 0 = true ∧ portEnabled s (rf s 0x1300014 1 4) = true ∧ (portOf s (rf s 0x1300014 1 4)).up = true) ∧
    (∃ (s : State), s.mit.en = true) ∧
    (∃ (s : State) (n : Nat), mitWanted s = true ∧ mitServes s = true ∧ n < s.mit.since) ∧
    (∃ (s : State) (n : Nat), mitWanted s = true ∧ mitServes s = true ∧ s.mit.since < n) ∧
    (∃ (s : State), s.mit.en = true ∧ (s.mit.st = .ready ∨ s.mit.st = .standby) ∧ s.mit.linkUp = false) ∧
    (∃ (s : State), s.mit.en = true ∧ s.mit.st = .ready) ∧
    (∃ (s : State), s.mit.witness = true) ∧
    (∃ (s : State), s.mit.st = .active) ∧
    (∃ (s : State), s.mit.relinquish = true) :=
  ⟨⟨inMit (live) fun m => { m with en := true, linkUp := true, st := .active, since := 50 }, by decide +kernel⟩,
   ⟨inMit (wr port0 0x1300014 1) fun m => { m with en := true, linkUp := true, st := .active, since := 50 }, by decide +kernel⟩,
   ⟨inMit (live) fun m => { m with en := true, linkUp := true, st := .active, since := 50 }, by decide +kernel⟩,
   ⟨inMit (wr live 0x1300008 7) fun m => { m with en := true, linkUp := true, st := .active, since := 50 }, 9, by decide +kernel⟩,
   ⟨inMit (wr live 0x1300008 7) fun m => { m with en := true, linkUp := true, st := .active, since := 50 }, 90, by decide +kernel⟩,
   ⟨inMit (live) fun m => { m with en := true, st := .ready }, by decide +kernel⟩,
   ⟨inMit (live) fun m => { m with en := true, linkUp := true, st := .ready }, by decide +kernel⟩,
   ⟨inMit (live) fun m => { m with witness := true }, by decide +kernel⟩,
   ⟨inMit (live) fun m => { m with en := true, linkUp := true, st := .active, since := 50 }, by decide +kernel⟩,
   ⟨inMit (live) fun m => { m with en := true, linkUp := true, st := .active, since := 50, relinquish := true }, by decide +kernel⟩⟩

theorem witness_MittenMirrors :
    (∃ (s : State) (rec : MirrorRec) (n : Nat) (tag : Bytes), s.mit.linkUp = true ∧ mitServes s = false ∧ mirrorSealed s rec n tag = true ∧ rec.cls.val = clsKeys ∧ rec.seg.val = 0 ∧ powerFailing s = false ∧ noSpace s clsKeys = false) ∧
    (∃ (s : State) (rec : MirrorRec) (n : Nat) (tag : Bytes), s.mit.linkUp = true ∧ mitServes s = false ∧ mirrorSealed s rec n tag = true ∧ rec.cls.val = clsKeys ∧ rec.seg.val = 0 ∧ (powerFailing s = true ∨ noSpace s clsKeys = true)) ∧
    (∃ (s : State) (rec : MirrorRec) (n : Nat) (tag : Bytes), (s.mit.linkUp = false ∨ mitServes s = true ∨ mirrorSealed s rec n tag = false)) ∧
    (∃ (s : State) (c : CurCommit) (n : Nat) (sl : Tab KeySlot) (k : Option Bytes), s.loam.cur = some c ∧ c.rest = [] ∧ s.loam.evicted.contains c.req.cls = false ∧ c.req.by_ = .mirror n ∧ c.req.payload = some (.keys sl k) ∧ c.req.segs = [0]) ∧
    (∃ (s : State) (sid : SegId) (n : Nat) (e : MirrorOut), s.mit.toMirror.find? (fun x => decide (x.serial = n ∧ x.cls = sid.cls.val ∧ x.seg = sid.seg.val)) = some e ∧ ¬(s.nts.phase = .mirror ∧ n = s.nts.waitSerial)) ∧
    (∃ (s : State) (sid : SegId) (n : Nat) (e : MirrorOut), s.mit.toMirror.find? (fun x => decide (x.serial = n ∧ x.cls = sid.cls.val ∧ x.seg = sid.seg.val)) = some e ∧ s.nts.phase = .mirror ∧ n = s.nts.waitSerial ∧ s.nts.held = []) ∧
    (∃ (s : State) (sid : SegId) (n : Nat), s.mit.toMirror.find? (fun x => decide (x.serial = n ∧ x.cls = sid.cls.val ∧ x.seg = sid.seg.val)) = none) :=
  ⟨⟨inMit (live) fun m => { m with en := true, linkUp := true, st := .standby, pairKey := some (List.replicate 32 7) }, mirrorRec 2, 4, mirrorTag (List.replicate 32 7) 4 (mirrorRec 2), by decide +kernel⟩,
   ⟨inLoam (inMit (live) fun m => { m with en := true, linkUp := true, st := .standby, pairKey := some (List.replicate 32 7) }) fun l => { l with pfail := true }, mirrorRec 2, 4, mirrorTag (List.replicate 32 7) 4 (mirrorRec 2), by decide +kernel⟩,
   ⟨live, mirrorRec 3, 4, [], by decide +kernel⟩,
   ⟨inLoam live fun l => { l with cur := some { req := { by_ := .mirror 4, cls := 2, segs := [0], payload := some (.keys [] none) }, seg := 0, gen := 1, payload := .keys [] none, rest := [], written := 0, lastGen := 0 } }, { req := { by_ := .mirror 4, cls := 2, segs := [0], payload := some (.keys [] none) }, seg := 0, gen := 1, payload := .keys [] none, rest := [], written := 0, lastGen := 0 }, 4, [], none, by decide +kernel⟩,
   ⟨inMit (live) fun m => { m with toMirror := [{ cls := 3, seg := 1, serial := 4, late := false }] }, { cls := 3, seg := 1 }, 4, { cls := 3, seg := 1, serial := 4, late := false }, by decide +kernel⟩,
   ⟨inMit (inNts live fun n => { n with phase := .mirror, waitSerial := 4 }) fun m => { m with toMirror := [{ cls := 3, seg := 1, serial := 4, late := false }] }, { cls := 3, seg := 1 }, 4, { cls := 3, seg := 1, serial := 4, late := false }, by decide +kernel⟩,
   ⟨live, { cls := 3, seg := 1 }, 4, by decide +kernel⟩⟩

theorem witness_ExchangeRamIsReadAndWritten :
    (∃ (s : State) (off : Nat) (width : Nat), off < 65536 ∧ ((∀ x ∈ s.bcp.lastBc, x.tick ≠ s.tb.ticks)) ∧ (((width = 4 ∧ off % 4 = 0) ∨ ((width = 1 ∨ width = 2) ∧ off % 4 + width ≤ 4 ∧ rf s 0x1400000 0 2 = 0)))) ∧
    (∃ (s : State) (off : Nat) (width : Nat), off < 65536 ∧ ((∀ x ∈ s.bcp.lastBc, x.tick + 6 < s.tb.ticks)) ∧ (((width = 4 ∧ off % 4 = 0) ∨ ((width = 1 ∨ width = 2) ∧ off % 4 + width ≤ 4 ∧ rf s 0x1400000 0 2 = 0)))) ∧
    (∃ (s : State) (off : Nat) (width : Nat), off < 65536 ∧ ¬(width = 4 ∧ off % 4 = 0) ∧ (¬((width = 1 ∨ width = 2) ∧ off % 4 + width ≤ 4 ∧ rf s 0x1400000 0 2 = 0))) ∧
    (∃ (off : Nat), 65536 ≤ off) :=
  ⟨⟨wr live 0x1400000 3, 65532, 4, by decide +kernel⟩,
   ⟨live, 65532, 4, by decide +kernel⟩,
   ⟨live, 3, 2, by decide +kernel⟩,
   ⟨65536, by decide +kernel⟩⟩

theorem witness_BoardControllerReachesItsSpace :
    (∃ (i : Byte) (a : BitVec 24), i.toNat / 16 = 2 ∧ a.toNat % 4 = 0 ∧ a.toNat < 65536) ∧
    (∃ (i : Byte) (a : BitVec 24), a.toNat % 4 ≠ 0 ∧ i.toNat / 16 = 2) ∧
    (∃ (i : Byte) (a : BitVec 24), a.toNat % 4 ≠ 0 ∧ i.toNat / 16 = 3) ∧
    (∃ (i : Byte) (a : BitVec 24), i.toNat / 16 = 3 ∧ a.toNat % 4 = 0) ∧
    (∃ (i : Byte), i.toNat / 16 ≠ 2 ∧ i.toNat / 16 ≠ 3) ∧
    (∃ (s : State) (g : BitVec 7), i2ctAnswers s g = true ∧ s.bcp.outFull = false) ∧
    (∃ (s : State) (g : BitVec 7), i2ctAnswers s g = true ∧ s.bcp.outFull = true) ∧
    (∃ (s : State) (g : BitVec 7) (addr : Bytes), i2ctAnswers s g = true ∧ addr.length < 3) ∧
    (∃ (s : State) (g : BitVec 7), i2ctAnswers s g = true) ∧
    (∃ (s : State) (g : BitVec 7), rf s 0x1400010 0 7 ≠ g.toNat) :=
  ⟨⟨0x20, 65532, by decide +kernel⟩,
   ⟨0x20, 1, by decide +kernel⟩,
   ⟨0x30, 1, by decide +kernel⟩,
   ⟨0x30, 4, by decide +kernel⟩,
   ⟨0x10, by decide +kernel⟩,
   ⟨wr live 0x1400010 5, 5, by decide +kernel⟩,
   ⟨inBcp (wr live 0x1400010 5) fun b => { b with outFull := true }, 5, by decide +kernel⟩,
   ⟨wr live 0x1400010 5, 5, [1, 2], by decide +kernel⟩,
   ⟨wr live 0x1400010 5, 5, by decide +kernel⟩,
   ⟨wr live 0x1400010 5, 6, by decide +kernel⟩⟩

theorem witness_BoardTransfersRun :
    (∃ (s : State) (c : Fin 2), (i2cOf s c).busy = true) ∧
    (∃ (s : State) (c : Fin 2), (i2cOf s c).busy = false) ∧
    (∃ (s : State) (c : Fin 2), (i2cOf s c).busy = true ∧ (i2cOf s c).tries < rf s (i2cA c) 2 4) ∧
    (∃ (s : State) (c : Fin 2), (i2cOf s c).busy = true ∧ rf s (i2cA c) 2 4 ≤ (i2cOf s c).tries) ∧
    (∃ (s : State) (c : Fin 2), (i2cOf s c).busy = true ∧ (i2cOf s c).waiting = true) :=
  ⟨⟨setI2c (wr live 0x1400100 0xC) 0 { I2c.cold with busy := true }, 0, by decide +kernel⟩,
   ⟨live, 0, by decide +kernel⟩,
   ⟨setI2c (wr live 0x1400100 0xC) 0 { I2c.cold with busy := true }, 0, by decide +kernel⟩,
   ⟨setI2c (wr live 0x1400100 0xC) 0 { I2c.cold with busy := true, tries := 3 }, 0, by decide +kernel⟩,
   ⟨setI2c (wr live 0x1400100 0xC) 0 { I2c.cold with busy := true, waiting := true }, 0, by decide +kernel⟩⟩

theorem witness_ClockInputsAndDomainsFollow :
    (∃ (s : State), s.clk.xtal = true ∧ s.clk.unified = false ∧ s.clk.loin = true ∧ rb s 0x100000 3 = true) ∧
    (∃ (s : State), s.clk.xtal = true ∧ s.clk.unified = false ∧ s.clk.loin = true ∧ rb s 0x100000 3 = false ∧ s.glb.recovery ≠ 2) ∧
    (∃ (s : State), s.clk.loin = true) ∧
    (∃ (lo : Int) (xtal : Int) (sds : Int), 200 < (lo - xtal).natAbs ∧ 200 < (lo - sds).natAbs ∧ 200 < (xtal - sds).natAbs) ∧
    (∃ (lo : Int) (xtal : Int) (sds : Int), (lo - xtal).natAbs ≤ 200 ∧ (lo - sds).natAbs ≤ 200 ∧ (xtal - sds).natAbs ≤ 200) ∧
    (∃ (lo : Int) (xtal : Int) (sds : Int), 1000 < (xtal - lo).natAbs ∧ 1000 < (xtal - sds).natAbs ∧ (lo - sds).natAbs ≤ 200) ∧
    (∃ (lo : Int) (xtal : Int) (sds : Int), 1000 < (lo - xtal).natAbs ∧ 1000 < (lo - sds).natAbs ∧ (xtal - sds).natAbs ≤ 200) ∧
    (∃ (s : State), s.clk.unified = false ∧ s.clk.loin = true) ∧
    (∃ (s : State), s.clk.unified = false ∧ s.clk.loin = false) ∧
    (∃ (s : State), s.clk.unified = true ∧ rb s 0x100000 2 = false ∧ s.clk.xtal = true ∧ s.clk.xtalTick + ticksPerSec ≤ s.tb.ticks) ∧
    (∃ (s : State), s.tb.ticks < s.clk.xtalTick + ticksPerSec) ∧
    (∃ (s : State) (d : Domain) (x : ClkSrc), hungFor (domainSrc s.clk d) = some x ∧ rb s 0x100000 4 = true) ∧
    (∃ (s : State) (d : Domain) (x : ClkSrc), hungFor (domainSrc s.clk d) = some x ∧ rb s 0x100000 4 = false) ∧
    (∃ (s : State) (d : Domain), hungFor (domainSrc s.clk d) = none) :=
  ⟨⟨wr live 0x100000 8, by decide +kernel⟩,
   ⟨wr live 0x100000 0, by decide +kernel⟩,
   ⟨live, by decide +kernel⟩,
   ⟨0, 300, 600, by decide +kernel⟩,
   ⟨0, 100, -100, by decide +kernel⟩,
   ⟨0, 2000, -200, by decide +kernel⟩,
   ⟨2000, 0, -200, by decide +kernel⟩,
   ⟨live, by decide +kernel⟩,
   ⟨inClk (live) fun c => { c with loin := false }, by decide +kernel⟩,
   ⟨inTb (inClk (wr live 0x100000 0) fun c => { c with unified := true }) fun t => { t with ticks := 600000000 }, by decide +kernel⟩,
   ⟨live, by decide +kernel⟩,
   ⟨inClk (wr live 0x100000 0x10) fun c => { c with pke := .hungMain }, .pke, .main, by decide +kernel⟩,
   ⟨inClk (wr live 0x100000 0) fun c => { c with pke := .hungMain }, .pke, .main, by decide +kernel⟩,
   ⟨live, .pke, by decide +kernel⟩⟩

theorem witness_PlannerParksAndWakesAndTestsMemory :
    (∃ (s : State) (u : PwrUnit), rb s 0x200000 0 = true ∧ mustServe s u = false) ∧
    (∃ (s : State) (u : PwrUnit), unitState s (unitKey u) ≠ 0 ∧ ¬(45 ≤ unitKey u ∧ unitKey u < 61 ∧ portFused s (unitKey u - 45) = true)) ∧
    (∃ (k : Nat), k < 16) ∧
    (∃ (s : State) (k : Nat), k < 16 ∧ rb s 0x200000 0 = true ∧ (laneOf s k).jobs = [] ∧ unitState s k = 0) ∧
    (∃ (s : State) (m : Bool) (alg : BitVec 2), s.clk.mbtRun = false ∧ alg ≠ 3 ∧ ((m = false ∨ alg = 2))) ∧
    (∃ (s : State) (alg : BitVec 2), s.clk.mbtRun = false ∧ alg ≠ 3 ∧ alg ≠ 2) ∧
    (∃ (s : State), s.clk.mbtRun = true ∧ s.pke.jobs.any isRunning = false) :=
  ⟨⟨wr live 0x200000 1, .nts 7, by decide +kernel⟩,
   ⟨inClk (live) fun c => { c with units := [(36, 2)] }, .sched, by decide +kernel⟩,
   ⟨3, by decide +kernel⟩,
   ⟨wr live 0x200000 0x21, 5, by decide +kernel⟩,
   ⟨live, false, 0, by decide +kernel⟩,
   ⟨live, 1, by decide +kernel⟩,
   ⟨inClk (live) fun c => { c with mbtRun := true, mbtMode := false }, by decide +kernel⟩⟩

theorem witness_WindowsAlarmsAndCountersFollowTheirCommands :
    (∃ (s : State) (a : Nat), a < 0x2000000 ∧ a % 4 = 0 ∧ isDropCounter a = true ∧ readable s a = true) ∧
    (∃ (s : State) (a : Nat) (b : Nat), a < 0x2000000 ∧ a % 4 = 0 ∧ statLow a = true ∧ readable s a = true ∧ latchOf a = some b) ∧
    (∃ (a : Nat), a < 0x2000000 ∧ a % 4 = 0 ∧ statLow a = false ∧ a ≠ 0xA0090C ∧ a ≠ 0x140000C ∧ ¬(0x1600108 ≤ a ∧ a < 0x1600500 ∧ a % 16 = 8)) ∧
    (∃ (s : State) (k : Fin 64), readable s (0x1600108 + 16 * k.val) = true) ∧
    (∃ (s : State), readable s 0x140000C = true) ∧
    (∃ (s : State), readable s 0xA0090C = true) ∧
    (∃ (a : Nat), 0x2000000 ≤ a) ∧
    (∃ (v : Word), pmcMode (fld v 0 10) (flag v 10) = true) ∧
    (∃ (v : Word), pmcMode (fld v 0 10) (flag v 10) = false) ∧
    (∃ (s : State) (k : Fin 64) (n : Nat), rb s 0x1600000 0 = false ∧ rb s (pmcA k) 11 = true ∧ 2 ^ 48 ≤ (pmcOf s k).val.toNat + n) ∧
    (∃ (s : State) (i : Fin 384), (siltOf s i).summary = false) ∧
    (∃ (s : State) (i : Fin 384), (siltOf s i).summary = true ∧ (siltOf s i).raises = 0) ∧
    (∃ (s : State) (i : Fin 384), (siltOf s i).summary = true ∧ 0 < (siltOf s i).raises ∧ (ringOf s (srcRing s i)).st ≠ .running) :=
  ⟨⟨wr live 0x801020 5, 0x801020, by decide +kernel⟩,
   ⟨live, 0xF00100, 0xF00000, by decide +kernel⟩,
   ⟨0x10, by decide +kernel⟩,
   ⟨live, 3, by decide +kernel⟩,
   ⟨live, by decide +kernel⟩,
   ⟨live, by decide +kernel⟩,
   ⟨0x2000000, by decide +kernel⟩,
   ⟨0x10, by decide +kernel⟩,
   ⟨0x201, by decide +kernel⟩,
   ⟨setPmc (wr live 0x1600150 0x810) 5 { PmcCnt.cold with val := 0xFFFFFFFFFFFF }, 5, 1, by decide +kernel⟩,
   ⟨live, 16, by decide +kernel⟩,
   ⟨setSilt live 16 { Silt.cold with summary := true }, 16, by decide +kernel⟩,
   ⟨setSilt live 16 { Silt.cold with summary := true, raises := 3 }, 16, by decide +kernel⟩⟩

theorem witness_RegisterWritesStoreTheirFields :
    (∃ (s : State) (a : Nat) (i : Nat) (r : RegDef), plainAddr a = true ∧ readable s a = true ∧ regAt a = some (r, i) ∧ r.count32 = false) ∧
    (∃ (s : State), readable s 0x208000 = true) ∧
    (∃ (s : State) (a : Nat) (r : Nat), a < 0x2000000 ∧ a % 4 = 0 ∧ ringRegAt a = some r ∧ (ringOf s r).st ≠ .disabled) ∧
    (∃ (s : State) (a : Nat), a % 4 = 0 ∧ ttWordAt a = true ∧ rb s (a - a % 0x40) 0 = true) ∧
    (∃ (s : State) (a : Nat), lpXonAt a = true ∧ a % 4 = 0 ∧ readable s a = true) ∧
    (∃ (s : State) (a : Nat), denyCtlAt a = true ∧ readable s a = true) ∧
    (∃ (s : State) (a : Nat), chanCtlAt a = true ∧ readable s a = true) ∧
    (∃ (s : State) (a : Nat), a < 0x2000000 ∧ a % 4 = 0 ∧ readable s a = false) :=
  ⟨⟨live, 0x300048, 0, regL 0x048 500000 [.clamp 0 32 0 500000], ⟨by decide +kernel, by decide +kernel, rfl, by decide +kernel⟩⟩,
   ⟨live, by decide +kernel⟩,
   ⟨setRing (wr live (ringA 0 + 0x10) 0xD) 0 { Ring.cold with st := .running }, 0xE01000, 0, by decide +kernel⟩,
   ⟨wr live 0x600000 1, 0x600018, by decide +kernel⟩,
   ⟨live, 0x80012C, by decide +kernel⟩,
   ⟨live, 0xD00110, by decide +kernel⟩,
   ⟨live, 0x501000, by decide +kernel⟩,
   ⟨z, 0x800100, by decide +kernel⟩⟩

theorem witness_GapsAndBadAccessesReachNothing :
    (∃ (a : Nat), inGap a = true ∧ a % 4 = 0) ∧
    (∃ (a : Nat), a < 0x2000000 ∧ a % 4 ≠ 0) ∧
    (∃ (o : Nat), o % 4 ≠ 0) ∧
    (∃ (o : Nat), o % 4 = 0 ∧ ((0x100000 ≤ o ∨ (o % 0x1000 ≠ 0 ∧ o % 0x1000 ≠ 4)))) ∧
    (∃ (o : Nat), o % 4 = 0 ∧ ((0x301000 ≤ o ∨ (0x100000 ≤ o ∧ o < 0x300000) ∨ (o < 0x100000 ∧ o % 0x1000 ≠ 0 ∧ o % 0x1000 ≠ 4)))) ∧
    (∃ (o : Nat), o % 4 = 0 ∧ o < 0x1000) ∧
    (∃ (a : Nat), 0x2000000 ≤ a) :=
  ⟨⟨0x700000, by decide +kernel⟩,
   ⟨0x300041, by decide +kernel⟩,
   ⟨6, by decide +kernel⟩,
   ⟨8, by decide +kernel⟩,
   ⟨0x301000, by decide +kernel⟩,
   ⟨0xFFC, by decide +kernel⟩,
   ⟨0x2000000, by decide +kernel⟩⟩

theorem witness_ResetsReachTheirBlocks :
    (∃ (s : State), s.glb.resetHeld = false) ∧
    (∃ (s : State), s.glb.resetHeld = true) ∧
    (∃ (s : State), s.glb.resetHeld = true ∧ s.glb.powered = true) ∧
    (∃ (s : State), s.glb.resetHeld = true ∧ s.glb.powered = false) ∧
    (∃ (s : State), resetRuns s = true) ∧
    (∃ (s : State), resetRuns s = false ∧ s.loam.cur = none) ∧
    (∃ (s : State), resetRuns s = false ∧ s.loam.cur.isSome = true) ∧
    (∃ (s : State), resetRuns s = false ∧ s.loam.cur.isSome = true ∧ s.glb.deferred = none) ∧
    (∃ (s : State), s.loam.cur = none ∧ s.glb.deferred = some .chip) ∧
    (∃ (s : State), resetRuns s = false ∧ (within s.tb.ticks oneMin s.glb.ctrlTicks).length < 2) ∧
    (∃ (s : State), resetRuns s = false ∧ 2 ≤ (within s.tb.ticks oneMin s.glb.ctrlTicks).length ∧ s.loam.cur = none) :=
  ⟨⟨live, by decide +kernel⟩,
   ⟨inGlb (live) fun g => { g with resetHeld := true }, by decide +kernel⟩,
   ⟨inGlb (live) fun g => { g with resetHeld := true, powered := true }, by decide +kernel⟩,
   ⟨inGlb (live) fun g => { g with resetHeld := true }, by decide +kernel⟩,
   ⟨live, by decide +kernel⟩,
   ⟨inGlb (live) fun g => { g with powered := true }, by decide +kernel⟩,
   ⟨inLoam (inGlb (live) fun g => { g with powered := true }) fun l => { l with cur := some { req := { by_ := .firmware, cls := 3, segs := [0], payload := none }, seg := 0, gen := 1, payload := .words [], rest := [], written := 0, lastGen := 0 } }, by decide +kernel⟩,
   ⟨inLoam (inGlb (live) fun g => { g with powered := true }) fun l => { l with cur := some { req := { by_ := .firmware, cls := 3, segs := [0], payload := none }, seg := 0, gen := 1, payload := .words [], rest := [], written := 0, lastGen := 0 } }, by decide +kernel⟩,
   ⟨inGlb (live) fun g => { g with deferred := some .chip }, by decide +kernel⟩,
   ⟨inGlb (live) fun g => { g with powered := true }, by decide +kernel⟩,
   ⟨inGlb (live) fun g => { g with powered := true, ctrlTicks := [0, 0] }, by decide +kernel⟩⟩

theorem witness_FamiliesKeepTheirFrames :
    ∃ (c : Instr) (s t : State), exec c s = .next t :=
  ⟨.tbNowRead, z, _, rfl⟩

theorem witness_RegistersOfOtherFamiliesAreKept :
    ∃ (c : Instr) (s t : State), exec c s = .next t :=
  ⟨.tbNowRead, z, _, rfl⟩

theorem witness_DropCountersClearAndSaturate :
    (∃ (s : State) (a : Nat), a < 0x2000000 ∧ a % 4 = 0 ∧ isDropCounter a = true ∧ readable s a = true) ∧
    (∃ (s : State) (a : Nat) (v : _), a < 0x2000000 ∧ a % 4 = 0 ∧ isDropCounter a = true ∧ readable s a = true ∧ v ≠ 0) ∧
    (∃ (s : State) (a : Nat) (b : Nat) (n : Nat), blockOf a = some b ∧ a ≠ 0x1500040 ∧ full ≤ (rd s a).toNat + n) ∧
    (∃ (s : State), s.loam.restored = true) :=
  ⟨⟨wr live 0x801020 5, 0x801020, by decide +kernel⟩,
   ⟨wr live 0x801020 5, 0x801020, 9, by decide +kernel⟩,
   ⟨wr live 0x801020 5, 0x801020, 8, 0xFFFFFFFF, by decide +kernel⟩,
   ⟨wr live 0x1500040 7, by decide +kernel⟩⟩

theorem witness_TicksAddTheDcoIncrement :
    (∃ (f : Int), -(2 ^ 39) ≤ f ∧ f < 2 ^ 39) ∧
    (∃ (s : State) (w : Word), s.tb.dcoLo = some w ∧ tbMode s = 0) ∧
    (∃ (s : State), s.pending = [] ∧ clkRuns s.clk.tbclk = true ∧ s.tb.stepNext = none) :=
  ⟨⟨-225000000, by decide +kernel⟩,
   ⟨inTb (wr live 0x300000 0) fun t => { t with dcoLo := some 0xF296C5C0 }, 0xF296C5C0, by decide +kernel⟩,
   ⟨live, by decide +kernel⟩⟩

theorem witness_VotesFollowTheGenerations :
    (∃ (cs : List Copy) (a : Copy) (b : Copy), a ∈ cs ∧ b ∈ cs ∧ a ≠ b ∧ a.gen = b.gen ∧ sameRecord a b = true ∧ ((∀ d ∈ cs, d.gen ≤ a.gen))) ∧
    (∃ (cs : List Copy) (n : Copy) (a : Copy) (b : Copy), a ∈ cs ∧ b ∈ cs ∧ a ≠ b ∧ a.gen = b.gen ∧ sameRecord a b = true ∧ ((∀ d ∈ cs, d.gen ≤ a.gen)) ∧ a.gen < n.gen) :=
  ⟨⟨[copyOf 1 4, copyOf 2 4], copyOf 1 4, copyOf 2 4, by decide +kernel⟩,
   ⟨[copyOf 1 4, copyOf 2 4], copyOf 1 5, copyOf 1 4, copyOf 2 4, by decide +kernel⟩⟩

end Sys2Proof.Tests
end

section
/-! SUPPORT. R45: a TBCLK tick adds 2 ns × (1 + F × 10⁻¹⁵) to the counter, rounded to 2⁻⁶⁴ ns. The rounding, the signed
reading of the DCO word, and what an idle tick does to the timebase beside its other work. -/

namespace Sys2Proof.Machine

/-! ## Rounding to the nearest -/

theorem roundDiv_nonneg {a : Int} (ha : 0 ≤ a) (b : Nat) : 0 ≤ roundDiv a b := by
  rw [roundDiv, if_pos ha]
  exact Int.ediv_nonneg (by omega) (by omega)

/-- The floor of (2a + b) / 2b is the quotient a / b rounded to the nearest. -/
theorem two_mul_natAbs_ediv_sub_le (a : Int) {b : Int} (hb : 0 < b) :
    2 * ((2 * a + b) / (2 * b) * b - a).natAbs ≤ b := by
  have lower := Int.ediv_mul_le (2 * a + b) (b := 2 * b) (by omega)
  have upper := Int.lt_ediv_add_one_mul_self (2 * a + b) (b := 2 * b) (by omega)
  generalize (2 * a + b) / (2 * b) = q at lower upper ⊢
  rw [mul_left_comm] at lower
  rw [add_mul, mul_left_comm] at upper
  omega

/-- A rounded quotient is off by at most half a unit of its last place. -/
theorem two_mul_natAbs_roundDiv_mul_sub_le (a : Int) {b : Nat} (hb : 0 < b) :
    2 * (roundDiv a b * b - a).natAbs ≤ b := by
  unfold roundDiv
  split
  · have near := two_mul_natAbs_ediv_sub_le a (b := b) (by omega)
    omega
  · have near := two_mul_natAbs_ediv_sub_le (-a) (b := b) (by omega)
    rw [neg_mul]
    omega

/-- Down to F = −10¹⁵ the increment is the rounded quotient itself: no truncation at 0. -/
theorem tickInc_eq_roundDiv {f : Int} (hf : -(10 ^ 15) ≤ f) :
    (tickInc f : Int) = roundDiv (2 * 2 ^ 64 * (10 ^ 15 + f)) (10 ^ 15) :=
  Int.toNat_of_nonneg (roundDiv_nonneg (by omega) _)

/-- R45: the increment, in units of 2⁻⁶⁴ ns, is off by at most half a unit. -/
theorem tickInc_nearest {f : Int} (hf : -(10 ^ 15) ≤ f) :
    2 * ((tickInc f : Int) * 10 ^ 15 - 2 * 2 ^ 64 * (10 ^ 15 + f)).natAbs ≤ 10 ^ 15 := by
  rw [tickInc_eq_roundDiv hf]
  exact two_mul_natAbs_roundDiv_mul_sub_le _ (by decide)

/-! ## The DCO word (R45, R46) -/

theorem fld_lt (w : Word) (lo len : Nat) : fld w lo len < 2 ^ len := Nat.mod_lt _ (Nat.two_pow_pos len)

theorem neg_le_signed (n x : Nat) : -(2 ^ n) ≤ signed (n + 1) x := by
  have : (0 : Int) < 2 ^ n := by positivity
  have : (2 : Int) ^ (n + 1) = 2 * 2 ^ n := pow_succ' 2 n
  simp only [signed, Nat.add_sub_cancel]
  split
  · omega
  · have : (2 : Int) ^ n ≤ x := by exact_mod_cast Nat.le_of_not_lt ‹_›
    omega

theorem signed_lt {n x : Nat} (hx : x < 2 ^ (n + 1)) : signed (n + 1) x < 2 ^ n := by
  have : (2 : Int) ^ (n + 1) = 2 * 2 ^ n := pow_succ' 2 n
  have : (x : Int) < 2 ^ (n + 1) := by exact_mod_cast hx
  simp only [signed, Nat.add_sub_cancel]
  split
  · exact_mod_cast ‹x < 2 ^ n›
  · omega

/-- The signed reading has the bits of the number. -/
theorem signed_sub_emod (len x : Nat) : (signed len x - x) % 2 ^ len = 0 := by
  unfold signed
  split <;> simp

/-- R46: in MANUAL mode TB_DCO_HI stages the signed 40-bit word of its low byte over the staged low word. -/
theorem exec_tbDcoHiWrite_manual {s : State} {w : Word} (v : Word) (hlo : s.tb.dcoLo = some w) (hm : tbMode s = 0) :
    exec (.tbDcoHiWrite v) s = .next { s with
      tb := { s.tb with dcoNext := some (signed 40 (fld v 0 8 * 2 ^ 32 + w.toNat)), dcoLo := none } } := by
  simp only [exec, execTbDcoHiWrite, if_pos hm, hlo]

/-! ## What the pace of the counter rests on -/

/-- The timebase, the clocks and the DPLLs are as they were. -/
structure TimingKept (s t : State) : Prop where
  tb : t.tb = s.tb
  clk : t.clk = s.clk
  dpl : t.dpl = s.dpl

theorem TimingKept.refl (s : State) : TimingKept s s := ⟨rfl, rfl, rfl⟩

theorem TimingKept.trans {s t u : State} (h : TimingKept s t) (k : TimingKept t u) : TimingKept s u :=
  ⟨k.tb.trans h.tb, k.clk.trans h.clk, k.dpl.trans h.dpl⟩

theorem Quiet.timingKept {s t : State} (h : Quiet s t) : TimingKept s t := ⟨h.tb, h.clk, h.dpl⟩

theorem TimingKept.foldl {α : Type} {f : State → α → State} (hf : ∀ s a, TimingKept s (f s a)) (l : List α)
    (s : State) : TimingKept s (l.foldl f s) :=
  List.foldlRecOn l f (.refl s) fun t h a _ => h.trans (hf t a)

theorem TimingKept.paceWord {s t : State} (h : TimingKept s t) (f : Int) : paceWord t f = paceWord s f := by
  simp only [Machine.paceWord, h.clk, h.dpl]

theorem setPort_timingKept (s : State) (j : Nat) (p : LpPort) : TimingKept s (setPort s j p) := ⟨rfl, rfl, rfl⟩

theorem occSub_timingKept (s : State) (j c n : Nat) : TimingKept s (occSub s j c n) := by
  unfold occSub
  extract_lets s1 p s2
  have h1 : TimingKept s s1 := setPort_timingKept _ _ _
  have h2 : TimingKept s s2 := h1.trans (setPort_timingKept _ _ _)
  split
  · split
    · exact h2.trans (setPort_timingKept _ _ _)
    · exact h2
  · exact h1

theorem releaseHeld_timingKept (s : State) : TimingKept s (releaseHeld s) := by
  refine TimingKept.foldl (fun t j => ?_) _ s
  have released := TimingKept.foldl fun u (e : Nat × Nat) => occSub_timingKept u j e.1 e.2
  refine .trans ?_ (released _ _)
  split
  · exact .refl t
  · exact setPort_timingKept _ _ _

theorem levelCount_timingKept (n : Nat) (s : State) : TimingKept s (levelCount n s) := by
  refine TimingKept.foldl (fun t c => ?_) _ s
  extract_lets r
  have counted : TimingKept t r.1 := ⟨rfl, rfl, rfl⟩
  split
  · exact counted.trans (raiseN_quiet _ _ _ _).timingKept
  · exact counted

theorem finishItem_timingKept (s : State) (i : TxItem) (st : Nat) (stamp : Option Nat) (len : Nat) :
    TimingKept s (finishItem s i st stamp len) := by
  unfold finishItem
  split
  · exact (complete_quiet _ _ _ _ _).timingKept
  · exact .refl s

theorem mgSend_timingKept (s : State) (i : TxItem) : TimingKept s (mgSend s i) := by
  unfold mgSend
  extract_lets f s1
  have counted : TimingKept s s1 := ⟨rfl, rfl, rfl⟩
  exact counted.trans (finishItem_timingKept _ _ _ _ _)

theorem mgDrain_timingKept (s : State) : TimingKept s (mgDrain s) := by
  unfold mgDrain
  split
  · refine TimingKept.trans ?_ (TimingKept.foldl mgSend_timingKept _ _)
    exact ⟨rfl, rfl, rfl⟩
  · exact .refl s

theorem ctrlBack_timingKept (s : State) : TimingKept s (ctrlBack s) := by
  unfold ctrlBack
  split
  · exact .refl s
  · extract_lets _ s1
    have raised : TimingKept s s1 := ⟨raiseN_tb .., raiseN_clk .., raiseN_dpl ..⟩
    have flushed := TimingKept.foldl fun t k =>
      (flushCompl_quiet (ringOf t (128 + k)).compl.length t (128 + k)).timingKept
    exact raised.trans (flushed _ _)

/-! ## The tick -/

/-- Where TBCLK runs and no load or step waits, a tick takes over the staged word and adds its increment. -/
theorem tick_tb {s : State} (hc : clkRuns s.clk.tbclk = true) (hs : s.tb.stepNext = none) :
    (tick s).tb = { s.tb with
      dco := s.tb.dcoNext.getD s.tb.dco, dcoNext := none, stepNext := none,
      counter := s.tb.counter + tickInc (paceWord s (s.tb.dcoNext.getD s.tb.dco)), ticks := s.tb.ticks + 1 } := by
  simp only [tick, if_pos hc, tickOn, hs]

/-- Log entry 2: of all that an empty queue lets happen, the tick alone moves the timebase. -/
theorem idleTick_tb {s : State} (hc : clkRuns s.clk.tbclk = true) (hs : s.tb.stepNext = none) :
    (idleTick s).tb = (tick s).tb := by
  have before : TimingKept s (levelCount 1 (releaseHeld (raiseOvf s))) :=
    (raiseOvf_quiet s).timingKept.trans ((releaseHeld_timingKept _).trans (levelCount_timingKept 1 _))
  have after (u : State) : TimingKept u (ctrlBack (mgDrain u)) :=
    (mgDrain_timingKept u).trans (ctrlBack_timingKept _)
  calc (idleTick s).tb
      = (tick (levelCount 1 (releaseHeld (raiseOvf s)))).tb := (after _).tb
    _ = (tick s).tb := by
        rw [tick_tb hc hs, tick_tb (before.clk ▸ hc) (before.tb ▸ hs), before.paceWord, before.tb]

theorem step_of_pending_nil {s : State} (h : s.pending = []) : step s = .next (idleTick s) := by
  simp only [step, h]

/-- R454: outside unified clocking the DCO word alone paces the counter. -/
theorem paceWord_of_not_unified {s : State} (h : s.clk.unified = false) (f : Int) : paceWord s f = f := by
  simp [paceWord, h]

/-- Settles O59: the nearest-rounding bound on the increment, the signed reading of the staged word, and the tick of an
empty queue, beside which nothing else touches the timebase. -/
theorem ticksAddTheDcoIncrement : Obligations.TicksAddTheDcoIncrement := by
  unfold Obligations.TicksAddTheDcoIncrement
  refine ⟨fun f hf _ => tickInc_nearest (by omega), fun s w v hlo hm => ?_, fun s hp hc hs => ?_⟩
  · have word : fld v 0 8 * 2 ^ 32 + w.toNat < 2 ^ (39 + 1) := by
      have := fld_lt v 0 8
      have := w.isLt
      omega
    exact ⟨_, exec_tbDcoHiWrite_manual v hlo hm, _, rfl, neg_le_signed 39 _, signed_lt word, signed_sub_emod 40 _⟩
  · have tb := (idleTick_tb hc hs).trans (tick_tb hc hs)
    refine ⟨_, step_of_pending_nil hp, ?_, ?_, ?_, fun hu => paceWord_of_not_unified hu _⟩ <;> simp only [tb]

end Sys2Proof.Machine
end

section
/-! SUPPORT. R440: accesses of BAR4. Which bytes of the exchange RAM a write changes and a read takes, what of R441 an
access meets when no board-controller access is near, and which accesses are malformed. -/

namespace Sys2Proof.Machine

/-! ## Bytes of the exchange RAM -/

theorem xbyte_congr {s t : State} (h : t.bcp.xram = s.bcp.xram) (a : Nat) : xbyte t a = xbyte s a := by
  simp only [xbyte, h]

/-- Addresses wrap at 64 KiB. -/
theorem xbyte_mod_add (s : State) (a i : Nat) : xbyte s (a % 65536 + i) = xbyte s (a + i) := by
  simp only [xbyte, Nat.mod_add_mod]

theorem xread_mod (s : State) (a n : Nat) : xread s (a % 65536) n = xread s a n := by
  simp only [xread, xbyte_mod_add]

theorem xbyte_setXbyte_same (s : State) (a : Nat) (b : Byte) : xbyte (setXbyte s a b) a = b :=
  tget_tset_same _ _ _ _

theorem xbyte_setXbyte_ne (s : State) {a c : Nat} (b : Byte) (h : a % 65536 ≠ c % 65536) :
    xbyte (setXbyte s a b) c = xbyte s c :=
  tget_tset_ne _ _ _ h.symm

theorem xwrite_cons (s : State) (a : Nat) (b : Byte) (bs : Bytes) :
    xwrite s a (b :: bs) = xwrite (setXbyte s a b) (a + 1) bs := rfl

/-- A byte that no written address reaches is kept. -/
theorem xbyte_xwrite_ne {bs : Bytes} {c : Nat} : ∀ {s : State} {a : Nat},
    (∀ i < bs.length, (a + i) % 65536 ≠ c % 65536) → xbyte (xwrite s a bs) c = xbyte s c := by
  induction bs with
  | nil => intro s a _; rfl
  | cons b bs ih =>
    intro s a h
    have rest : xbyte (xwrite (setXbyte s a b) (a + 1) bs) c = xbyte (setXbyte s a b) c := by
      refine ih fun i hi => ?_
      rw [Nat.add_right_comm]
      exact h (i + 1) (Nat.succ_lt_succ hi)
    exact rest.trans (xbyte_setXbyte_ne s b (h 0 (Nat.succ_pos _)))

/-- A string that does not lap the RAM is stored byte by byte. -/
theorem xbyte_xwrite_getElem {bs : Bytes} : ∀ {s : State} {a i : Nat} (hi : i < bs.length), bs.length ≤ 65536 →
    xbyte (xwrite s a bs) (a + i) = bs[i] := by
  induction bs with
  | nil => intro s a i hi; exact absurd hi (Nat.not_lt_zero _)
  | cons b bs ih =>
    intro s a i hi hl
    rw [List.length_cons] at hi hl
    rw [xwrite_cons]
    cases i with
    | zero =>
      rw [xbyte_xwrite_ne fun i hi => by omega]
      exact xbyte_setXbyte_same s a b
    | succ i =>
      rw [← Nat.add_assoc, Nat.add_right_comm]
      exact ih (Nat.lt_of_succ_lt_succ hi) (by omega)

@[simp] theorem length_leBytes (n x : Nat) : (leBytes n x).length = n := by
  induction n generalizing x with
  | zero => rfl
  | succ n ih => simp [leBytes, ih]

theorem getElem_leBytes {n : Nat} : ∀ {x i : Nat} (hi : i < (leBytes n x).length),
    (leBytes n x)[i] = BitVec.ofNat 8 (x / 256 ^ i) := by
  induction n with
  | zero => intro x i hi; exact absurd hi (Nat.not_lt_zero _)
  | succ n ih =>
    intro x i hi
    cases i with
    | zero => simp [leBytes]
    | succ i => simp [leBytes, ih, Nat.div_div_eq_div_mul, Nat.pow_succ']

/-! ## Collisions (R441) -/

theorem Quiet.foldl {α : Type} {f : State → α → State} (hf : ∀ s a, Quiet s (f s a)) (l : List α) (s : State) :
    Quiet s (l.foldl f s) :=
  List.foldlRecOn l f (Quiet.refl s) fun t h a _ => h.trans (hf t a)

theorem Quiet.ite {s t u : State} {p : Prop} [Decidable p] (h : Quiet s t) (k : Quiet s u) :
    Quiet s (if p then t else u) := by
  split
  · exact h
  · exact k

theorem undefRead_quiet (s : State) (x : XAcc) : Quiet s (undefRead s x) := by
  unfold undefRead
  split
  · rfl
  · extract_lets
    split <;> rfl

/-- The warning of the PCIe side leaves the exchange RAM and its record of accesses alone. -/
theorem xwarn_pcie_quiet (s : State) : Quiet s (xwarn s true) :=
  have warned : Quiet s (orReg (bump s 0x1400220 1) 0x1400004 1) :=
    Quiet.trans (t := bump s 0x1400220 1) (Quiet.bump s _ _) rfl
  warned.trans (raiseLim_quiet _ _ _ _ _)

/-- R441: a PCIe access in whose tick the board controller has none changes nothing but the event side, and a write's
bytes stand. -/
theorem xaccess_pcie_of_no_tie {s : State} (h : ∀ x ∈ s.bcp.lastBc, x.tick ≠ s.tb.ticks) (w : Nat) (write : Bool) :
    Quiet s (xaccess s true w write).1 ∧ (xaccess s true w write).2.2 = false := by
  have same : (xhits s true w write).filter (fun x => decide (x.tick = s.tb.ticks)) = [] := by
    refine List.filter_eq_nil_iff.mpr fun x hx => ?_
    simpa using h x (List.mem_filter.mp hx).1
  have read : Quiet s (if write then (xhits s true w write).foldl undefRead s else s) :=
    (Quiet.foldl undefRead_quiet _ s).ite (Quiet.refl s)
  constructor
  · simpa [xaccess, same] using (read.trans (xwarn_pcie_quiet _)).ite read
  · simp [xaccess, same]

/-- Six ticks after the board controller's last access a PCIe access collides with none. -/
theorem xhits_pcie_of_far {s : State} (h : ∀ x ∈ s.bcp.lastBc, x.tick + 6 < s.tb.ticks) (w : Nat) (write : Bool) :
    xhits s true w write = [] := by
  refine List.filter_eq_nil_iff.mpr fun x hx => ?_
  have : near s x = false := decide_eq_false (Nat.not_le.mpr (h x hx))
  simp [this]

theorem xaccess_of_no_hit {s : State} {pcie write : Bool} {w : Nat} (h : xhits s pcie w write = []) :
    xaccess s pcie w write = (s, false, false) := by
  simp [xaccess, h]

@[simp] theorem xnote_xram (s : State) (pcie : Bool) (w : Nat) (d : Option Nat) :
    (xnote s pcie w d).bcp.xram = s.bcp.xram := by
  cases pcie <;> rfl

@[simp] theorem xnote_out (s : State) (pcie : Bool) (w : Nat) (d : Option Nat) : (xnote s pcie w d).out = s.out := rfl

theorem foldl_xnote_xram (s : State) (pcie : Bool) (d : Option Nat) (ws : List Nat) :
    (ws.foldl (fun t w => xnote t pcie w d) s).bcp.xram = s.bcp.xram :=
  List.foldlRecOn (motive := fun t => t.bcp.xram = s.bcp.xram) ws _ rfl fun t h w _ => (xnote_xram t pcie w d).trans h

theorem foldl_xnote_out (s : State) (pcie : Bool) (d : Option Nat) (ws : List Nat) :
    (ws.foldl (fun t w => xnote t pcie w d) s).out = s.out :=
  List.foldlRecOn (motive := fun t => t.out = s.out) ws _ rfl fun t h w _ => (xnote_out t pcie w d).trans h

/-! ## Accepted accesses -/

/-- The RAM words that an access touches, in the order of its bytes. -/
def xwords (a width : Nat) : List Nat :=
  (List.range width).foldl
    (fun l i => if l.contains ((a + i) % 65536 / 4) then l else l ++ [(a + i) % 65536 / 4]) []

/-- A PCIe access meets the board controller's at one more word: the state, whether its data are undefined, and the
words whose bytes do not stand. -/
def meetWord (write : Bool) (acc : State × Bool × List Nat) (w : Nat) : State × Bool × List Nat :=
  let r := xaccess acc.1 true w write
  (r.1, acc.2.1 || r.2.1, if r.2.2 then w :: acc.2.2 else acc.2.2)

/-- A PCIe access meets the board controller's at all its words. -/
def meetWords (s : State) (a width : Nat) (write : Bool) : State × Bool × List Nat :=
  (xwords a width).foldl (meetWord write) (s, false, [])

theorem xramDo_write (s : State) (a width : Nat) (v : Word) :
    xramDo s a width (some v) = (xwords a width).foldl (fun t w => xnote t true w none)
      ((((leBytes width v.toNat).zipIdx a).filter
        fun e => !(meetWords s a width true).2.2.contains (e.2 % 65536 / 4)).foldl
          (fun t e => setXbyte t e.2 e.1) (meetWords s a width true).1) := rfl

theorem xramDo_read (s : State) (a width : Nat) :
    xramDo s a width none = (xwords a width).foldl
      (fun t w => xnote t true w (some (meetWords s a width false).1.out.length))
      (emit (meetWords s a width false).1 (.readData 4 (if (meetWords s a width false).2.1
        then Config.xramUndefined s.tb.ticks
        else BitVec.ofNat 32 (leNat (xread (meetWords s a width false).1 a width))))) := rfl

theorem meetWords_of_no_tie {s : State} (h : ∀ x ∈ s.bcp.lastBc, x.tick ≠ s.tb.ticks) (a width : Nat) (write : Bool) :
    Quiet s (meetWords s a width write).1 ∧ (meetWords s a width write).2.2 = [] := by
  refine List.foldlRecOn (motive := fun r : State × Bool × List Nat => Quiet s r.1 ∧ r.2.2 = []) _ _ ⟨Quiet.refl s, rfl⟩ ?_
  intro r hr w _
  obtain ⟨quiet, stand⟩ := hr
  have untied : ∀ x ∈ r.1.bcp.lastBc, x.tick ≠ r.1.tb.ticks := by rwa [quiet.bcp, quiet.tb]
  obtain ⟨met, wordStands⟩ := xaccess_pcie_of_no_tie untied w write
  exact ⟨quiet.trans met, by simp [meetWord, wordStands, stand]⟩

theorem meetWords_of_far {s : State} (h : ∀ x ∈ s.bcp.lastBc, x.tick + 6 < s.tb.ticks) (a width : Nat)
    (write : Bool) : meetWords s a width write = (s, false, []) :=
  List.foldl_fixed' (fun w => by simp [meetWord, xaccess_of_no_hit (xhits_pcie_of_far h w write)]) _

/-- A write with no board-controller access in its tick leaves the RAM as `xwrite` does: all its bytes stand. -/
theorem xbyte_xramDo_write {s : State} (h : ∀ x ∈ s.bcp.lastBc, x.tick ≠ s.tb.ticks) (a width : Nat) (v : Word) :
    ∃ u, u.bcp = s.bcp ∧
      ∀ c, xbyte (xramDo s a width (some v)) c = xbyte (xwrite u a (leBytes width v.toNat)) c := by
  obtain ⟨quiet, stand⟩ := meetWords_of_no_tie h a width true
  refine ⟨(meetWords s a width true).1, quiet.bcp, fun c => xbyte_congr ?_ c⟩
  rw [xramDo_write, foldl_xnote_xram, stand]
  simp [xwrite]

theorem xbyte_xramDo_write_same {s : State} (h : ∀ x ∈ s.bcp.lastBc, x.tick ≠ s.tb.ticks) {a width i : Nat} (v : Word)
    (hw : width ≤ 65536) (hi : i < width) :
    xbyte (xramDo s a width (some v)) (a + i) = BitVec.ofNat 8 (v.toNat / 256 ^ i) := by
  obtain ⟨u, -, written⟩ := xbyte_xramDo_write h a width v
  have hl : i < (leBytes width v.toNat).length := by rwa [length_leBytes]
  rw [written, xbyte_xwrite_getElem hl (by rwa [length_leBytes]), getElem_leBytes]

theorem xbyte_xramDo_write_ne {s : State} (h : ∀ x ∈ s.bcp.lastBc, x.tick ≠ s.tb.ticks) {a width c : Nat} (v : Word)
    (hc : ∀ i < width, (a + i) % 65536 ≠ c % 65536) : xbyte (xramDo s a width (some v)) c = xbyte s c := by
  obtain ⟨u, kept, written⟩ := xbyte_xramDo_write h a width v
  rw [written, xbyte_xwrite_ne (by rwa [length_leBytes]), xbyte_congr (congrArg Bcp.xram kept)]

/-- A read with no board-controller access near gives the bytes of the RAM and leaves the RAM alone. -/
theorem xramDo_read_of_far {s : State} (h : ∀ x ∈ s.bcp.lastBc, x.tick + 6 < s.tb.ticks) (a width : Nat) :
    (xramDo s a width none).out = .readData 4 (BitVec.ofNat 32 (leNat (xread s a width))) :: s.out ∧
    (xramDo s a width none).bcp.xram = s.bcp.xram := by
  rw [xramDo_read, foldl_xnote_out, foldl_xnote_xram, meetWords_of_far h]
  exact ⟨rfl, rfl⟩

/-! ## Which accesses are accepted (R440) -/

/-- R440: an aligned access of a word, or, without rotation, a smaller one inside a word. -/
def Bar4Accepts (s : State) (off width : Nat) : Prop :=
  (width = 4 ∧ off % 4 = 0) ∨ ((width = 1 ∨ width = 2) ∧ off % 4 + width ≤ 4 ∧ rf s 0x1400000 0 2 = 0)

/-- The address of an access's first byte, before it wraps: a word access is rotated. -/
def bar4Start (s : State) (off width : Nat) : Nat := off + if width = 4 then rf s 0x1400000 0 2 else 0

theorem Bar4Accepts.width_le {s : State} {off width : Nat} (h : Bar4Accepts s off width) : width ≤ 4 := by
  unfold Bar4Accepts at h
  omega

theorem exec_xramAccess_accepted {s : State} {off width : Nat} (w : Option Word) (ho : off < 65536)
    (h : Bar4Accepts s off width) :
    exec (.xramAccess off width w) s = .next (xramDo s (bar4Start s off width % 65536) width w) := by
  have inside : ¬65536 ≤ off := Nat.not_le.mpr ho
  obtain ⟨rfl, ha⟩ | ⟨hw, hin, hk⟩ := h
  · simp [exec, execXramAccess, inside, ha, bar4Start]
  · have : width ≠ 4 := by omega
    simp [exec, execXramAccess, inside, hw, hin, hk, this, bar4Start]

/-- R440, R9: any other access is an access error; a read of it gives 0. -/
theorem exec_xramAccess_malformed {s : State} {off width : Nat} (ho : off < 65536) (h : ¬Bar4Accepts s off width) :
    (∀ v, exec (.xramAccess off width (some v)) s = .next (accessError s)) ∧
    exec (.xramAccess off width none) s = .next (emit (accessError s) (.readData 4 0)) := by
  have inside : ¬65536 ≤ off := Nat.not_le.mpr ho
  obtain ⟨unaligned, unsmall⟩ := not_or.mp h
  have bad : decide (width = 4 ∧ off % 4 = 0) = false ∧
      (decide ((width = 1 ∨ width = 2) ∧ off % 4 + width ≤ 4) = false ∨ rf s 0x1400000 0 2 ≠ 0) := by
    refine ⟨decide_eq_false unaligned, ?_⟩
    rw [decide_eq_false_iff_not]
    tauto
  constructor
  · intro v
    simp only [exec, execXramAccess, if_neg inside, if_pos bad]
  · simp only [exec, execXramAccess, if_neg inside, if_pos bad]

theorem accessError_counted (s : State) : Counted s (accessError s) 0xE00004 1 :=
  (rd_raiseLim _ _ _ _ _ (by decide)).trans (bump_counted s 1 (by decide))

/-- Settles O47: an accepted write stores its bytes and no other, an accepted read returns them, a malformed access is
counted, and an offset outside BAR4 stops by name. -/
theorem exchangeRamIsReadAndWritten : Obligations.ExchangeRamIsReadAndWritten := by
  unfold Obligations.ExchangeRamIsReadAndWritten
  refine ⟨fun s off width v ho untied ok => ⟨_, exec_xramAccess_accepted _ ho ok, fun i hi => ?_, fun b hb hne => ?_⟩,
    fun s off width ho far ok => ⟨_, exec_xramAccess_accepted _ ho ok, ?_, ?_⟩,
    fun s off width w ho unaligned unsmall => ?_, fun s off width w ho => ?_⟩
  · rw [← xbyte_mod_add]
    exact xbyte_xramDo_write_same untied v (Nat.le_trans (Bar4Accepts.width_le ok) (by decide)) hi
  · refine xbyte_xramDo_write_ne untied v fun i hi => ?_
    rw [Nat.mod_add_mod, Nat.mod_eq_of_lt hb]
    exact hne i hi
  · rw [(xramDo_read_of_far far _ _).1, xread_mod]
    rfl
  · exact (xramDo_read_of_far far _ _).2
  · obtain ⟨written, read⟩ := exec_xramAccess_malformed ho (not_or.mpr ⟨unaligned, unsmall⟩)
    cases w with
    | some v => exact ⟨_, written v, accessError_counted s, accessError_bcp s, nofun⟩
    | none => exact ⟨_, read, accessError_counted s, accessError_bcp s, fun _ => rfl⟩
  · simp only [exec, execXramAccess, if_pos ho]

end Sys2Proof.Machine
end

section
/-! SUPPORT. R489: drop and error counters under plain writes. Where the counters of the register table lie, which
plain writes store a register and do nothing else, and what a saturating count leaves. -/

namespace Sys2Proof.Machine

/-! ## The elements of a register array -/

/-- The offsets in its block at which the elements of a register array lie. -/
def RegDef.offsets (r : RegDef) : List Nat :=
  (List.range r.count2).flatMap fun i => (List.range r.count).map fun e => r.base + i * r.stride2 + e * r.stride

theorem RegDef.mem_offsets_of_index? {r : RegDef} {off i : Nat} (h : r.index? off = some i) : off ∈ r.offsets := by
  simp only [RegDef.index?, Option.ite_none_left_eq_some, Option.ite_none_right_eq_some] at h
  obtain ⟨above, ⟨row, aligned, column⟩, -⟩ := h
  simp only [RegDef.offsets, List.mem_flatMap, List.mem_map, List.mem_range]
  refine ⟨_, row, _, column, ?_⟩
  have rowSplit := Nat.div_add_mod' (off - r.base) r.stride2
  have columnSplit := Nat.div_mul_cancel (Nat.dvd_of_mod_eq_zero aligned)
  omega

/-- The table entry of an address stands in its block's table and has an element there. -/
theorem exists_block_of_regAt {a i : Nat} {r : RegDef} (h : regAt a = some (r, i)) :
    ∃ b ∈ blocks, r ∈ b.2.2 ∧ b.1 ≤ a ∧ r.index? (a - b.1) = some i := by
  unfold regAt at h
  split at h
  · exact nomatch h
  next base size defs found =>
    have inside : base ≤ a ∧ a < base + size := by simpa using List.find?_some found
    obtain ⟨d, hd, entry⟩ := List.exists_of_findSome?_eq_some h
    obtain ⟨j, hj, rfl, rfl⟩ : ∃ j, d.index? (a - base) = some j ∧ d = r ∧ j = i := by simpa using entry
    exact ⟨_, List.mem_of_find?_eq_some found, hd, inside.1, hj⟩

/-! ## The drop and error counters -/

/-- The addresses of the drop and error counters, in the order of the register table. -/
def dropCounters : List Nat :=
  blocks.flatMap fun b => (b.2.2.filter (·.count32)).flatMap fun r => r.offsets.map (b.1 + ·)

theorem isDropCounter_iff {a : Nat} : isDropCounter a = true ↔ ∃ r i, regAt a = some (r, i) ∧ r.count32 = true := by
  unfold isDropCounter
  split <;> simp_all

theorem mem_dropCounters {a : Nat} (h : isDropCounter a = true) : a ∈ dropCounters := by
  obtain ⟨r, i, entry, counts⟩ := isDropCounter_iff.mp h
  obtain ⟨b, hb, hr, hle, element⟩ := exists_block_of_regAt entry
  simp only [dropCounters, List.mem_flatMap, List.mem_map, List.mem_filter]
  exact ⟨b, hb, r, ⟨hr, counts⟩, _, RegDef.mem_offsets_of_index? element, by omega⟩

theorem store_of_isDropCounter {a : Nat} (h : isDropCounter a = true) (s : State) (v : Word) :
    store s a v = if v = 0 then wr s a 0 else s := by
  obtain ⟨r, i, entry, counts⟩ := isDropCounter_iff.mp h
  simp only [store, entry, if_pos counts]

/-! ## Plain writes that only store -/

/-- The addresses at which a written setting brings something about at once, beside those that `plainAddr` excludes. -/
def settingAt (a : Nat) : Bool :=
  decide (0x400040 ≤ a ∧ a < 0x400100 ∧ a % 0x20 = 0) || decide (0x300080 ≤ a ∧ a < 0x300300)
  || decide (0x5000C0 ≤ a ∧ a < 0x5000E0)
  || [0x40, 0x200000, 0x300000, 0x500000, 0x500090, 0x900000, 0x900028, 0xB00000, 0xB00008, 0xC00000, 0x1300000,
      0x1300008].contains a

theorem plainWrite_of_plainAddr {a : Nat} (h : plainAddr a = true) (s : State) (v : Word) :
    plainWrite s a v = store s a v := by
  simp only [plainAddr, Bool.and_eq_true, Bool.not_eq_true', decide_eq_true_eq, decide_eq_false_iff_not,
    Option.isNone_iff_eq_none] at h
  simp [plainWrite, h]

theorem afterWrite_of_not_settingAt {a : Nat} (hp : plainAddr a = true) (hs : settingAt a = false) (s t : State) :
    afterWrite s t a = t := by
  simp only [plainAddr, Bool.and_eq_true, Bool.not_eq_true', decide_eq_true_eq] at hp
  simp only [settingAt, Bool.or_eq_false_iff, decide_eq_false_iff_not, List.contains_eq_mem, List.mem_cons,
    List.not_mem_nil, or_false, not_or] at hs
  simp [afterWrite, hp, hs]

theorem bar0Word_of_plainAddr {a : Nat} (h : plainAddr a = true) : a < 0x2000000 ∧ a % 4 = 0 := by
  simp only [plainAddr, Bool.and_eq_true, decide_eq_true_eq] at h
  omega

/-- R10: where no rule or setting of its own applies, a plain write stores the register and does nothing else. -/
theorem exec_registerWrite_bar0_store {a : Nat} (hp : plainAddr a = true) (hs : settingAt a = false) {s : State}
    (hr : readable s a = true) (v : Word) : exec (.registerWrite .bar0 a v) s = .next (store s a v) := by
  obtain ⟨inside, aligned⟩ := bar0Word_of_plainAddr hp
  simp [exec, execRegisterWrite, Nat.not_le.mpr inside, aligned, hr, plainWrite_of_plainAddr hp,
    afterWrite_of_not_settingAt hp hs]

/-- The register table puts no counter where a write does more than store. -/
theorem dropCounters_only_store : ∀ a ∈ dropCounters, plainAddr a = true ∧ settingAt a = false := by decide +kernel

/-- R489: written 0 a counter clears, written anything else it stays. -/
theorem exec_registerWrite_dropCounter {a : Nat} (h : isDropCounter a = true) {s : State} (hr : readable s a = true)
    (v : Word) : exec (.registerWrite .bar0 a v) s = .next (if v = 0 then wr s a 0 else s) := by
  obtain ⟨plain, bare⟩ := dropCounters_only_store a (mem_dropCounters h)
  rw [exec_registerWrite_bar0_store plain bare hr, store_of_isDropCounter h]

theorem exec_dropCounterClear {s : State} {a : Nat} (ha : a < 0x2000000) (h4 : a % 4 = 0)
    (h : isDropCounter a = true) (hr : readable s a = true) : exec (.dropCounterClear a) s = .next (wr s a 0) := by
  simp [exec, execDropCounterClear, Nat.not_le.mpr ha, h4, h, hr]

/-- The increment in the cycle of a clear is applied after it. -/
theorem rd_bump_of_cleared (s : State) {a : Nat} (ha : a ≠ 0x1500040) : rd (bump (wr s a 0) a 1) a = 1 := by
  have counted := bump_counted (wr s a 0) 1 ha
  rw [Counted, rd_wr_same] at counted
  exact counted

/-! ## Saturation and EVT_SAT -/

theorem blockOf_lt {a b : Nat} (h : blockOf a = some b) : b < 23 :=
  (List.findIdx?_eq_some_iff_findIdx_eq.mp h).1

/-- A count that reaches the largest value stops there and sets its block's bit of EVT_SAT. -/
theorem bump_of_full {s : State} {a b n : Nat} (hb : blockOf a = some b) (hf : full ≤ (rd s a).toNat + n) :
    bump s a n = orReg (wr s a 0xFFFFFFFF) 0x1500040 (2 ^ b) := by
  simp only [bump, Nat.min_eq_left hf, if_true, hb]
  rfl

theorem flag_orReg_same (s : State) (a : Nat) {b : Nat} (hb : b < 32) : flag (rd (orReg s a (2 ^ b)) a) b = true := by
  rw [flag, rd_orReg_same, BitVec.getLsbD_or, BitVec.getLsbD_ofNat, Nat.testBit_two_pow_self]
  simp [hb]

/-- Through an empty mask nothing is stored. -/
theorem storedWord_of_no_mask {r : RegDef} (h : r.rules = []) (old v : Word) : storedWord r 0 old v = old := by
  simp only [storedWord, h, List.foldl_nil, BitVec.not_zero, BitVec.and_allOnes, BitVec.and_zero, BitVec.or_zero]

/-- EVT_SAT has no bit that a write stores: written ones clear. -/
theorem store_evtSat (s : State) (v : Word) :
    store s 0x1500040 v = wr s 0x1500040 (rd s 0x1500040 &&& ~~~(v &&& 0x7FFFFF)) := by
  have entry : regAt 0x1500040 = some ({ base := 0x040, w1c := 0x7FFFFF }, 0) := rfl
  simp only [store, entry, Bool.false_eq_true, if_false, storedWord_of_no_mask]
  rfl

theorem readable_evtSat {s : State} (h : s.loam.restored = true) : readable s 0x1500040 = true := by
  simp [readable, blockFused, portRegHidden, h]

theorem exec_registerWrite_evtSat {s : State} (h : s.loam.restored = true) (v : Word) :
    exec (.registerWrite .bar0 0x1500040 v) s =
      .next (wr s 0x1500040 (rd s 0x1500040 &&& ~~~(v &&& 0x7FFFFF))) := by
  rw [exec_registerWrite_bar0_store (by decide) (by decide) (readable_evtSat h), store_evtSat]

/-- Settles O58: a plain write of a counter is a bare store, a saturated count sets its block's bit, the bits follow the
block table, and a write of EVT_SAT touches no other register. -/
theorem dropCountersClearAndSaturate : Obligations.DropCountersClearAndSaturate := by
  unfold Obligations.DropCountersClearAndSaturate
  refine ⟨fun s a ha h4 hc hr => ⟨?_, ?_, fun v hv => ?_, rd_bump_of_cleared s ?_⟩, fun s a b n hb hne hf => ⟨?_, ?_⟩,
    rfl, fun s v h => ?_⟩
  · exact ⟨_, exec_dropCounterClear ha h4 hc hr, rd_wr_same s a 0⟩
  · exact ⟨_, exec_registerWrite_dropCounter hc hr 0, rd_wr_same s a 0⟩
  · exact ⟨_, exec_registerWrite_dropCounter hc hr v, by rw [if_neg hv]⟩
  · rintro rfl
    exact absurd hc (by decide)
  · rw [bump_of_full hb hf, rd_orReg_ne _ _ hne, rd_wr_same]
  · rw [bump_of_full hb hf]
    exact flag_orReg_same _ _ (Nat.lt_trans (blockOf_lt hb) (by decide))
  · exact ⟨_, exec_registerWrite_evtSat h v, rd_wr_same _ _ _, fun a ha => rd_wr_ne s _ ha⟩

end Sys2Proof.Machine
end

section
/-! SUPPORT. R511, R302 and R9: accesses that reach no register. The gaps of BAR0 lie outside every block, an access
error counts and stores nothing else, and of BAR2 only the doorbell words and the user counter page answer. -/

namespace Sys2Proof.Machine

/-! ## The gaps of BAR0 (R511) -/

theorem inGap_iff {a : Nat} : inGap a = true ↔ 0x700000 ≤ a ∧ a < 0x800000 ∨ 0x1700000 ≤ a ∧ a < 0x2000000 := by
  simp [inGap]

/-- The block table leaves both gaps free. -/
theorem blocks_beside_gaps : ∀ b ∈ blocks, b.1 + b.2.1 ≤ 0x700000 ∨ 0x800000 ≤ b.1 ∧ b.1 + b.2.1 ≤ 0x1700000 := by
  decide

theorem not_in_block_of_inGap {a : Nat} (h : inGap a = true) {b : Nat × Nat × List RegDef} (hb : b ∈ blocks) :
    decide (b.1 ≤ a ∧ a < b.1 + b.2.1) = false := by
  have gap := inGap_iff.mp h
  have beside := blocks_beside_gaps b hb
  exact decide_eq_false (by omega)

theorem blockOf_of_inGap {a : Nat} (h : inGap a = true) : blockOf a = none :=
  List.findIdx?_eq_none_iff.mpr fun _ hb => not_in_block_of_inGap h hb

theorem regAt_of_inGap {a : Nat} (h : inGap a = true) : regAt a = none := by
  have noBlock : blocks.find? (fun b => decide (b.1 ≤ a ∧ a < b.1 + b.2.1)) = none :=
    List.find?_eq_none.mpr fun b hb => by simp [not_in_block_of_inGap h hb]
  simp only [regAt, noBlock]

/-- No rule or setting of its own applies in a gap: a write there would only store. -/
theorem plainAddr_of_inGap {a : Nat} (h : inGap a = true) (h4 : a % 4 = 0) : plainAddr a = true := by
  have gap := inGap_iff.mp h
  simp only [plainAddr, ttCtlAt, ttWordAt, vecMaskAt, lpXonAt, denyCtlAt, chanCtlAt, ringRegAt, Bool.and_eq_true,
    Bool.not_eq_true', Bool.and_eq_false_iff, decide_eq_true_eq, decide_eq_false_iff_not, Option.isNone_iff_eq_none,
    ite_eq_right_iff]
  omega

theorem settingAt_of_inGap {a : Nat} (h : inGap a = true) : settingAt a = false := by
  have gap := inGap_iff.mp h
  simp only [settingAt, Bool.or_eq_false_iff, decide_eq_false_iff_not, List.contains_eq_mem, List.mem_cons,
    List.not_mem_nil, or_false]
  omega

theorem exec_registerWrite_gap {a : Nat} (h : inGap a = true) (h4 : a % 4 = 0) (s : State) (v : Word) :
    exec (.registerWrite .bar0 a v) s = .next s := by
  cases hr : readable s a with
  | true =>
    rw [exec_registerWrite_bar0_store (plainAddr_of_inGap h h4) (settingAt_of_inGap h) hr]
    simp only [store, regAt_of_inGap h]
  | false =>
    have inside := (bar0Word_of_plainAddr (plainAddr_of_inGap h h4)).1
    simp [exec, execRegisterWrite, Nat.not_le.mpr inside, h4, hr]

theorem readEffect_of_inGap {a : Nat} (h : inGap a = true) (s : State) : readEffect s a = s := by
  have gap := inGap_iff.mp h
  have noSum : a ≠ 0xA0090C := by omega
  have noPmc : ¬(0x1600108 ≤ a ∧ a < 0x1600500 ∧ a % 16 = 8) := by omega
  have noMbox : a ≠ 0x140000C := by omega
  simp [readEffect, noSum, noPmc, noMbox, latchOf, blockOf_of_inGap h]

theorem readView_of_inGap {a : Nat} (h : inGap a = true) (s : State) : readView s a = 0 := by
  simp only [readView, blockOf_of_inGap h]

theorem exec_statCounterRead_gap {a : Nat} (h : inGap a = true) (h4 : a % 4 = 0) (s : State) :
    exec (.statCounterRead .bar0 a) s = .next (emit s (.readData 0 0)) := by
  have inside := (bar0Word_of_plainAddr (plainAddr_of_inGap h h4)).1
  simp [exec, execStatCounterRead, Nat.not_le.mpr inside, h4, readEffect_of_inGap h, readView_of_inGap h]

/-! ## Accesses of a wrong form (R9) -/

/-- An access error counts, and beside the event counters no other register changes. -/
theorem accessError_only_counts (s : State) : Counted s (accessError s) 0xE00004 1 ∧
    ∀ b, b ≠ 0xE00004 → eventReg b = false → rd (accessError s) b = rd s b := by
  refine ⟨accessError_counted s, fun b hb he => (rd_raiseLim _ _ _ _ _ he).trans (rd_bump_ne s 1 hb ?_)⟩
  rintro rfl
  exact absurd he (by decide)

theorem emit_accessError_counted (s : State) (o : Out) :
    Counted s (emit (accessError s) o) 0xE00004 1 ∧ (emit (accessError s) o).out.head? = some o :=
  ⟨accessError_counted s, rfl⟩

theorem exec_registerWrite_bar0_unaligned {a : Nat} (ha : a < 0x2000000) (h4 : a % 4 ≠ 0) (s : State) (v : Word) :
    exec (.registerWrite .bar0 a v) s = .next (accessError s) := by
  simp only [exec, execRegisterWrite, if_neg (Nat.not_le.mpr ha), if_pos h4]

theorem exec_statCounterRead_bar0_unaligned {a : Nat} (ha : a < 0x2000000) (h4 : a % 4 ≠ 0) (s : State) :
    exec (.statCounterRead .bar0 a) s = .next (emit (accessError s) (.readData 0 0)) := by
  simp only [exec, execStatCounterRead, if_neg (Nat.not_le.mpr ha), if_pos h4]

theorem exec_registerWrite_bar0_outside {a : Nat} (ha : 0x2000000 ≤ a) (s : State) (v : Word) :
    exec (.registerWrite .bar0 a v) s = .fault .bar0Outside := by
  simp only [exec, execRegisterWrite, if_pos ha]

/-- In either BAR a write of a wrong form is dropped and a read of one returns 0. -/
theorem bar0BadAccess_only_counts (s : State) (bar : Bar) :
    (Gives (.bar0BadAccess bar true) s fun t => Counted s t 0xE00004 1 ∧ ∀ b, b ≠ 0xE00004 → eventReg b = false →
      rd t b = rd s b) ∧
    (Gives (.bar0BadAccess bar false) s fun t => Counted s t 0xE00004 1 ∧
      t.out.head? = some (.readData (barNum bar) 0)) :=
  ⟨⟨_, rfl, accessError_only_counts s⟩, ⟨_, rfl, emit_accessError_counted s _⟩⟩

/-! ## BAR2 (R302, R305, R327) -/

theorem exec_registerWrite_bar2_unaligned {o : Nat} (h4 : o % 4 ≠ 0) (s : State) (v : Word) :
    exec (.registerWrite .bar2 o v) s = .next (accessError s) := by
  simp only [exec, execRegisterWrite, bar2Write, if_pos h4]

theorem exec_registerWrite_bar2_ignored {o : Nat} (h4 : o % 4 = 0)
    (h : 0x100000 ≤ o ∨ o % 0x1000 ≠ 0 ∧ o % 0x1000 ≠ 4) (s : State) (v : Word) :
    exec (.registerWrite .bar2 o v) s = .next s := by
  simp only [exec, execRegisterWrite, bar2Write, if_neg (not_not.mpr h4)]
  split
  · obtain ⟨noProd, noCons⟩ := h.resolve_left (by omega)
    rw [if_neg noProd, if_neg noCons]
  · rfl

theorem exec_registerWrite_bar2_prod (r : Fin 256) (s : State) (v : Word) :
    exec (.registerWrite .bar2 (0x1000 * r.val) v) s = exec (.hifProdWrite r v) s := by
  have aligned : ¬0x1000 * r.val % 4 ≠ 0 := by omega
  have page : 0x1000 * r.val < 0x100000 := by omega
  have ring : 0x1000 * r.val / 0x1000 = r.val := by omega
  have word : 0x1000 * r.val % 0x1000 = 0 := by omega
  simp only [exec, execRegisterWrite, bar2Write, if_neg aligned, if_pos page, ring, if_pos word, Fin.ofNat_val_eq_self]

theorem exec_registerWrite_bar2_cons (r : Fin 256) (s : State) (v : Word) :
    exec (.registerWrite .bar2 (0x1000 * r.val + 4) v) s = exec (.hifConsWrite r v) s := by
  have aligned : ¬(0x1000 * r.val + 4) % 4 ≠ 0 := by omega
  have page : 0x1000 * r.val + 4 < 0x100000 := by omega
  have ring : (0x1000 * r.val + 4) / 0x1000 = r.val := by omega
  have noProd : (0x1000 * r.val + 4) % 0x1000 ≠ 0 := by omega
  have word : (0x1000 * r.val + 4) % 0x1000 = 4 := by omega
  simp only [exec, execRegisterWrite, bar2Write, if_neg aligned, if_pos page, ring, if_neg noProd, if_pos word,
    Fin.ofNat_val_eq_self]

theorem exec_statCounterRead_bar2_unaligned {o : Nat} (h4 : o % 4 ≠ 0) (s : State) :
    exec (.statCounterRead .bar2 o) s = .next (emit (accessError s) (.readData 2 0)) := by
  simp only [exec, execStatCounterRead, if_pos h4]

theorem exec_statCounterRead_bar2 {o : Nat} (h4 : o % 4 = 0) (s : State) :
    exec (.statCounterRead .bar2 o) s = .next (emit s (.readData 2 (bar2View s o))) := by
  simp only [exec, execStatCounterRead, if_neg (not_not.mpr h4)]

theorem bar2View_outside {o : Nat}
    (h : 0x301000 ≤ o ∨ (0x100000 ≤ o ∧ o < 0x300000) ∨ (o < 0x100000 ∧ o % 0x1000 ≠ 0 ∧ o % 0x1000 ≠ 4)) (s : State) :
    bar2View s o = 0 := by
  by_cases low : o < 0x100000
  · obtain ⟨-, noProd, noCons⟩ : o < 0x100000 ∧ o % 0x1000 ≠ 0 ∧ o % 0x1000 ≠ 4 := by omega
    simp only [bar2View, if_pos low, if_neg noProd, if_neg noCons]
  · have noUser : ¬(0x300000 ≤ o ∧ o < 0x301000) := by omega
    simp only [bar2View, if_neg low, if_neg noUser]

theorem bar2View_user {o : Nat} (ho : o < 0x1000) (s : State) : bar2View s (0x300000 + o) = userWord s o := by
  have high : ¬0x300000 + o < 0x100000 := by omega
  have user : 0x300000 ≤ 0x300000 + o ∧ 0x300000 + o < 0x301000 := by omega
  simp only [bar2View, if_neg high, if_pos user, Nat.add_sub_cancel_left]

/-- Settles O54: the gaps lie outside every block, an access of a wrong form only counts, and BAR2 answers at its
doorbell words and its user counter page alone. -/
theorem gapsAndBadAccessesReachNothing : Obligations.GapsAndBadAccessesReachNothing := by
  unfold Obligations.GapsAndBadAccessesReachNothing
  refine ⟨fun s a v h h4 => ⟨exec_registerWrite_gap h h4 s v, exec_statCounterRead_gap h h4 s⟩,
    fun s a v ha h4 => ⟨⟨_, exec_registerWrite_bar0_unaligned ha h4 s v, accessError_only_counts s⟩,
      ⟨_, exec_statCounterRead_bar0_unaligned ha h4 s, emit_accessError_counted s _⟩⟩,
    fun s => bar0BadAccess_only_counts s .bar0, fun s => bar0BadAccess_only_counts s .bar2,
    fun s o v h4 => ⟨⟨_, exec_registerWrite_bar2_unaligned h4 s v, accessError_only_counts s⟩,
      ⟨_, exec_statCounterRead_bar2_unaligned h4 s, emit_accessError_counted s _⟩⟩,
    fun s o v h4 h => exec_registerWrite_bar2_ignored h4 h s v, fun s o h4 h => ?_,
    fun s r v => ⟨exec_registerWrite_bar2_prod r s v, exec_registerWrite_bar2_cons r s v⟩, fun s o h4 ho => ?_,
    fun s a v ha => exec_registerWrite_bar0_outside ha s v⟩
  · rw [exec_statCounterRead_bar2 h4, bar2View_outside h]
    rfl
  · rw [exec_statCounterRead_bar2 (by omega), bar2View_user ho]
    rfl

end Sys2Proof.Machine
end

section
/-! SUPPORT. R221: what a profile apply stores. The offset that stands with a staged word is the one written, so a stage
that no command leaves behind reaches registers of other families. -/

namespace Sys2Proof.Machine

/-- After reset, with a staged word for profile 0 whose offset points at BRIM_CTL. -/
def strayStage : State :=
  { State.reset with rsp := { State.reset.rsp with profStage := [(0, (0x6FE000, 1))] } }

/-- What RSP_PROFILE_APPLY leaves of it. -/
def strayApplied : State :=
  setUnit (storeMask (profStaged strayStage 0) (profA 0) 0x7FFF 0) 36 0

theorem exec_rspProfileApply_strayStage : exec (.rspProfileApply 0 0) strayStage = .next strayApplied := by
  have accepted : profRefused (profOf (storeMask (profStaged strayStage 0) (profA 0) 0x7FFF 0) 0) = false := by
    decide +kernel
  simp only [exec, execRspProfileApply, Fin.val_zero, accepted, Bool.false_eq_true, if_false, strayApplied]

theorem strayApplied_writes_brimCtl : rd strayApplied 0x1200000 ≠ rd strayStage 0x1200000 := by decide +kernel

/-- Refutes O57: a profile apply stores each staged word at the offset that stands with it, and the state may hold one
that lies outside the profile: here it writes BRIM_CTL, a register of another family. -/
theorem not_registersOfOtherFamiliesAreKept : ¬ Obligations.RegistersOfOtherFamiliesAreKept := by
  unfold Obligations.RegistersOfOtherFamiliesAreKept
  intro kept
  exact strayApplied_writes_brimCtl
    (kept _ _ _ exec_rspProfileApply_strayStage 0x1200000 (by decide) (by decide))

end Sys2Proof.Machine
end

section
/-! SUPPORT. Frames: which parts of the state an operation may change. `Within ps s t` says that t differs from s at most in
the listed parts and in what raising events, writing completions and counting touch. One lemma for each operation lets
`simp` strip it: within parts that hold all it changes, the operation does not matter. -/

namespace Sys2Proof.Machine

/-- The parts of the state beside the event side; `xram` is the exchange RAM inside the board block. -/
inductive Part where
  | pending | fuse | stat | statHi | glb | tb | ttOut | ttIn | ref | dpl | gn | lp | mg | ts | rsp | nts | gnt | pke | ent
  | loam | brim | mit | bcp | xram | clk
  deriving DecidableEq

/-- A part is as it was. -/
def Part.Same (s t : State) : Part → Prop
  | .pending => t.pending = s.pending
  | .fuse => t.fuse = s.fuse
  | .stat => t.stat = s.stat
  | .statHi => t.statHi = s.statHi
  | .glb => t.glb = s.glb
  | .tb => t.tb = s.tb
  | .ttOut => t.ttOut = s.ttOut
  | .ttIn => t.ttIn = s.ttIn
  | .ref => t.ref = s.ref
  | .dpl => t.dpl = s.dpl
  | .gn => t.gn = s.gn
  | .lp => t.lp = s.lp
  | .mg => t.mg = s.mg
  | .ts => t.ts = s.ts
  | .rsp => t.rsp = s.rsp
  | .nts => t.nts = s.nts
  | .gnt => t.gnt = s.gnt
  | .pke => t.pke = s.pke
  | .ent => t.ent = s.ent
  | .loam => t.loam = s.loam
  | .brim => t.brim = s.brim
  | .mit => t.mit = s.mit
  | .bcp => t.bcp = s.bcp
  | .xram => t.bcp.xram = s.bcp.xram
  | .clk => t.clk = s.clk

/-- Every part that is not listed is as it was. -/
def Within (ps : List Part) (s t : State) : Prop := ∀ p, p ∉ ps → p.Same s t

variable {ps qs : List Part} {s t u : State}

theorem Part.Same.trans {p : Part} (h : p.Same s t) (k : p.Same t u) : p.Same s u := by
  cases p <;> exact Eq.trans k h

theorem Part.Same.symm {p : Part} (h : p.Same s t) : p.Same t s := by
  cases p <;> exact Eq.symm h

@[simp] theorem Within.refl : Within ps s s := fun p _ => by cases p <;> rfl

theorem Within.trans (h : Within ps s t) (k : Within ps t u) : Within ps s u := fun p hp => (h p hp).trans (k p hp)

theorem Within.mono (h : Within ps s t) (sub : ∀ p ∈ ps, p ∈ qs) : Within qs s t := fun p hp => h p fun k => hp (sub p k)

/-- A step that stays within the parts does not matter. -/
theorem within_iff (h : Within ps t u) : Within ps s u ↔ Within ps s t :=
  ⟨fun k p hp => (k p hp).trans (h p hp).symm, fun k => k.trans h⟩

theorem Quiet.within (h : Quiet s t) : Within ps s t := fun p _ => by
  cases p
  exacts [h.pending, h.fuse, h.stat, h.statHi, h.glb, h.tb, h.ttOut, h.ttIn, h.ref, h.dpl, h.gn, h.lp, h.mg, h.ts, h.rsp,
    h.nts, h.gnt, h.pke, h.ent, h.loam, h.brim, h.mit, h.bcp, congrArg Bcp.xram h.bcp, h.clk]

theorem within_quiet (h : Quiet t u) : Within ps s u ↔ Within ps s t := within_iff h.within

/-! ## Control flow -/

@[simp] theorem within_ite {c : Prop} [Decidable c] :
    Within ps s (if c then t else u) ↔ if c then Within ps s t else Within ps s u := by
  split <;> rfl

@[simp] theorem within_foldl {α : Type} {f : State → α → State} (step : ∀ t x, Within ps s (f t x) ↔ Within ps s t)
    (l : List α) :
    Within ps s (l.foldl f t) ↔ Within ps s t := by
  induction l generalizing t with
  | nil => rfl
  | cons x l ih => rw [List.foldl_cons, ih, step]

/-! ## Outcomes -/

/-- Where an outcome is a next state, that state stays within the parts. -/
def AnswersWithin (ps : List Part) (s : State) (o : Host.Outcome State Fault Refusal) : Prop :=
  ∀ t, o = .next t → Within ps s t

@[simp] theorem answersWithin_next : AnswersWithin ps s (.next t) ↔ Within ps s t :=
  ⟨fun h => h t rfl, fun h u e => by cases e; exact h⟩

@[simp] theorem answersWithin_fault (r : Fault) : AnswersWithin ps s (.fault r) := fun _ e => by cases e

@[simp] theorem answersWithin_ite {c : Prop} [Decidable c] {o o' : Host.Outcome State Fault Refusal} :
    AnswersWithin ps s (if c then o else o') ↔ if c then AnswersWithin ps s o else AnswersWithin ps s o' := by
  split <;> rfl

/-! ## Record updates -/

/-- Parts that are listed may be replaced. -/
@[simp] theorem within_mk {out regs evt hif pmc stat statHi glb tb ttOut ttIn ref dpl gn lp mg ts rsp nts gnt pke ent loam
    brim mit bcp clk}
    (hstat : stat = t.stat ∨ .stat ∈ ps) (hstatHi : statHi = t.statHi ∨ .statHi ∈ ps) (hglb : glb = t.glb ∨ .glb ∈ ps)
    (htb : tb = t.tb ∨ .tb ∈ ps) (httOut : ttOut = t.ttOut ∨ .ttOut ∈ ps) (httIn : ttIn = t.ttIn ∨ .ttIn ∈ ps)
    (href : ref = t.ref ∨ .ref ∈ ps) (hdpl : dpl = t.dpl ∨ .dpl ∈ ps) (hgn : gn = t.gn ∨ .gn ∈ ps)
    (hlp : lp = t.lp ∨ .lp ∈ ps) (hmg : mg = t.mg ∨ .mg ∈ ps) (hts : ts = t.ts ∨ .ts ∈ ps)
    (hrsp : rsp = t.rsp ∨ .rsp ∈ ps) (hnts : nts = t.nts ∨ .nts ∈ ps) (hgnt : gnt = t.gnt ∨ .gnt ∈ ps)
    (hpke : pke = t.pke ∨ .pke ∈ ps) (hent : ent = t.ent ∨ .ent ∈ ps) (hloam : loam = t.loam ∨ .loam ∈ ps)
    (hbrim : brim = t.brim ∨ .brim ∈ ps) (hmit : mit = t.mit ∨ .mit ∈ ps) (hbcp : bcp = t.bcp ∨ .bcp ∈ ps)
    (hxram : bcp.xram = t.bcp.xram ∨ .xram ∈ ps) (hclk : clk = t.clk ∨ .clk ∈ ps) :
    Within ps s ⟨t.pending, out, t.fuse, regs, stat, statHi, glb, tb, ttOut, ttIn, ref, dpl, gn, lp, mg, ts, rsp, nts, gnt,
      hif, pke, ent, loam, brim, mit, bcp, clk, evt, pmc⟩ ↔ Within ps s t := by
  refine within_iff fun p hp => ?_
  cases p <;> simp_all [Part.Same]

/-! ## The event side -/

@[simp] theorem within_wr (a : Nat) (v : Word) : Within ps s (wr t a v) ↔ Within ps s t := within_quiet rfl

@[simp] theorem within_wrf (a lo len v : Nat) : Within ps s (wrf t a lo len v) ↔ Within ps s t := within_quiet rfl

@[simp] theorem within_orReg (a m : Nat) : Within ps s (orReg t a m) ↔ Within ps s t := within_quiet rfl

@[simp] theorem within_store (a : Nat) (v : Word) : Within ps s (store t a v) ↔ Within ps s t :=
  within_quiet (store_quiet t a v)

@[simp] theorem within_storeMask (a m : Nat) (v : Word) : Within ps s (storeMask t a m v) ↔ Within ps s t :=
  within_quiet (storeMask_quiet t a m v)

@[simp] theorem within_bump (a n : Nat) : Within ps s (bump t a n) ↔ Within ps s t := within_quiet (Quiet.bump t a n)

@[simp] theorem within_emit (o : Out) : Within ps s (emit t o) ↔ Within ps s t := within_quiet rfl

@[simp] theorem within_setRing (r : Nat) (g : Ring) : Within ps s (setRing t r g) ↔ Within ps s t := within_quiet rfl

@[simp] theorem within_setVec (v : Nat) (x : Vec) : Within ps s (setVec t v x) ↔ Within ps s t := within_quiet rfl

@[simp] theorem within_setPmc (k : Nat) (x : PmcCnt) : Within ps s (setPmc t k x) ↔ Within ps s t := within_quiet rfl

@[simp] theorem within_setSilt (k : Nat) (x : Silt) : Within ps s (setSilt t k x) ↔ Within ps s t := within_quiet rfl

@[simp] theorem within_setAlarm (k : Nat) (x : Alarm) : Within ps s (setAlarm t k x) ↔ Within ps s t := within_quiet rfl

@[simp] theorem within_userTouch : Within ps s (userTouch t) ↔ Within ps s t := within_quiet rfl

@[simp] theorem within_setRun (r : Nat) (x : Nat × Nat) : Within ps s (setRun t r x) ↔ Within ps s t := within_quiet rfl

@[simp] theorem within_vecFire (v : Nat) : Within ps s (vecFire t v) ↔ Within ps s t := within_quiet (vecFire_quiet t v)

@[simp] theorem within_vecRaise (v n : Nat) : Within ps s (vecRaise t v n) ↔ Within ps s t :=
  within_quiet (vecRaise_quiet t v n)

@[simp] theorem within_vecSettle (v : Nat) : Within ps s (vecSettle t v) ↔ Within ps s t := by
  simp [vecSettle]

@[simp] theorem within_noteCompl (r : Nat) : Within ps s (noteCompl t r) ↔ Within ps s t :=
  within_quiet (noteCompl_quiet t r)

@[simp] theorem within_pmcAddAll (n : Nat) (ks : List Nat) : Within ps s (pmcAddAll n ks t).1 ↔ Within ps s t :=
  within_quiet (pmcAddAll_quiet n ks t)

@[simp] theorem within_dmaBytes (n : Nat) : Within ps s (dmaBytes t n) ↔ Within ps s t := within_quiet (dmaBytes_quiet t n)

@[simp] theorem within_writeCompl (r idx st : Nat) (b : Bytes) : Within ps s (writeCompl t r idx st b) ↔ Within ps s t :=
  within_quiet (writeCompl_quiet t r idx st b)

@[simp] theorem within_flushCompl (n r : Nat) : Within ps s (flushCompl n t r) ↔ Within ps s t :=
  within_quiet (flushCompl_quiet n t r)

@[simp] theorem within_complete (r idx st : Nat) (b : Bytes) : Within ps s (complete t r idx st b) ↔ Within ps s t :=
  within_quiet (complete_quiet t r idx st b)

@[simp] theorem within_writeRecord (r : Nat) (b : Bytes) : Within ps s (writeRecord t r b) ↔ Within ps s t :=
  within_quiet (writeRecord_quiet t r b)

@[simp] theorem within_raiseSev (id inst sev : Nat) (b : Bytes) : Within ps s (raiseSev t id inst sev b) ↔ Within ps s t :=
  within_quiet (raiseSev_quiet t id inst sev b)

@[simp] theorem within_raise (id inst : Nat) (b : Bytes) : Within ps s (raise t id inst b) ↔ Within ps s t :=
  within_raiseSev id inst _ b

@[simp] theorem within_raiseN (id inst : Nat) (ns : List Nat) : Within ps s (raiseN t id inst ns) ↔ Within ps s t :=
  within_quiet (raiseN_quiet t id inst ns)

@[simp] theorem within_raiseLim (id inst lim : Nat) (ns : List Nat) :
    Within ps s (raiseLim t id inst lim ns) ↔ Within ps s t := within_quiet (raiseLim_quiet t id inst lim ns)

@[simp] theorem within_alarmClear (id : Nat) : Within ps s (alarmClear t id) ↔ Within ps s t :=
  within_quiet (alarmClear_quiet t id)

@[simp] theorem within_pmcSignal (sig qual n : Nat) : Within ps s (pmcSignal t sig qual n) ↔ Within ps s t :=
  within_quiet (pmcSignal_quiet t sig qual n)

@[simp] theorem within_hostWrite (r idx addr : Nat) (b : Bytes) : Within ps s (hostWrite t r idx addr b) ↔ Within ps s t :=
  within_quiet (hostWrite_quiet t r idx addr b)

@[simp] theorem within_hostRead (r idx addr n : Nat) : Within ps s (hostRead t r idx addr n) ↔ Within ps s t :=
  within_quiet (hostRead_quiet t r idx addr n)

@[simp] theorem within_raiseOvf : Within ps s (raiseOvf t) ↔ Within ps s t := within_quiet (raiseOvf_quiet t)

@[simp] theorem within_accessError : Within ps s (accessError t) ↔ Within ps s t := within_quiet (accessError_quiet t)

@[simp] theorem within_dmaError (r : Nat) : Within ps s (dmaError t r) ↔ Within ps s t := within_quiet (dmaError_quiet t r)

@[simp] theorem within_dropPend (r : Nat) : Within ps s (dropPend t r) ↔ Within ps s t := by
  simp [dropPend]

@[simp] theorem within_flushPend (n r : Nat) : Within ps s (flushPend n t r) ↔ Within ps s t := by
  induction n generalizing t with
  | zero => rfl
  | succ n ih =>
    unfold flushPend
    split
    · split
      · rfl
      · simp [ih, writeEvent, noteRecent, setCoal, setRingDrop]
    · rfl

@[simp] theorem within_statInc (h : .stat ∈ ps) (a n : Nat) : Within ps s (statInc t a n) ↔ Within ps s t := by
  simp [statInc, h]

@[simp] theorem within_ringError (h : .lp ∈ ps) (h' : .mg ∈ ps) (r cause : Nat) :
    Within ps s (ringError t r cause) ↔ Within ps s t := by
  simp [ringError, h, h']

end Sys2Proof.Machine
end

section
/-! SUPPORT. Frames of the timebase, the triggers, Kaolin and the references. -/

namespace Sys2Proof.Machine

variable {ps qs : List Part} {s t u : State}

/-- What a change of the serve states touches. -/
abbrev servingParts : List Part := [.rsp, .nts]

/-- What a change of TIME_VALID touches. -/
abbrev validParts : List Part := [.glb, .tb, .ref, .rsp, .nts, .mit]

/-- What a selection of the time reference touches. -/
abbrev selectionParts : List Part := [.glb, .tb, .ref, .dpl, .rsp, .nts, .mit]

@[simp] theorem within_setLane (h : .rsp ∈ ps) (k : Nat) (x : Lane) :
    Within ps s (setLane t k x) ↔ Within ps s t := by
  simp [setLane, h]

@[simp] theorem within_noteStep (h : .glb ∈ ps) (n : Nat) :
    Within ps s (noteStep t n) ↔ Within ps s t := by
  simp [noteStep, h]

@[simp] theorem within_setUnit (h : .clk ∈ ps) (k st : Nat) :
    Within ps s (setUnit t k st) ↔ Within ps s t := by
  simp [setUnit, h]

@[simp] theorem within_refreshServing (h : ∀ p ∈ servingParts, p ∈ ps) :
    Within ps s (refreshServing t) ↔ Within ps s t := by
  simp [refreshServing, h]

@[simp] theorem within_beginRotation (h : .nts ∈ ps) (cmd : Option KeyCmd) (first : Bool) :
    Within ps s (beginRotation t cmd first) ↔ Within ps s t := by
  simp [beginRotation, h]

@[simp] theorem within_mitReadyCheck (h : .mit ∈ ps) :
    Within ps s (mitReadyCheck t) ↔ Within ps s t := by
  simp [mitReadyCheck, h]

@[simp] theorem within_setValid (h : ∀ p ∈ validParts, p ∈ ps) (v : Bool) :
    Within ps s (setValid t v) ↔ Within ps s t := by
  simp [setValid, h]

@[simp] theorem within_setCand (h : .ref ∈ ps) (i : Nat) (c : Cand) :
    Within ps s (setCand t i c) ↔ Within ps s t := by
  simp [setCand, h]

@[simp] theorem within_tryRise (h : ∀ p ∈ validParts, p ∈ ps) :
    Within ps s (tryRise t) ↔ Within ps s t := by
  simp [tryRise, h]

@[simp] theorem within_latchAnchor (h : .tb ∈ ps) :
    Within ps s (latchAnchor t) ↔ Within ps s t := by
  simp [latchAnchor, h]

@[simp] theorem within_checkExpiry (h : .tb ∈ ps) :
    Within ps s (checkExpiry t) ↔ Within ps s t := by
  simp [checkExpiry, h]

@[simp] theorem within_setPps (h : .ref ∈ ps) (p : Nat) (x : PpsIn) :
    Within ps s (setPps t p x) ↔ Within ps s t := by
  simp [setPps, h]

@[simp] theorem within_touchLeap (before : State) : Within ps s (touchLeap before t) ↔ Within ps s t := by
  simp [touchLeap]

@[simp] theorem within_leapSchedule (h : .tb ∈ ps) : Within ps s (leapSchedule t) ↔ Within ps s t := by
  simp [leapSchedule, h]

@[simp] theorem within_leapAfterStep (h : .tb ∈ ps) :
    Within ps s (leapAfterStep t) ↔ Within ps s t := by
  simp [leapAfterStep, h]

@[simp] theorem within_setTtOut (h : .ttOut ∈ ps) (n : Nat) (x : TtOut) :
    Within ps s (setTtOut t n x) ↔ Within ps s t := by
  simp [setTtOut, h]

@[simp] theorem within_ttRecord (h : .ttOut ∈ ps) (n typ : Nat) (t16 : Int) :
    Within ps s (ttRecord t n typ t16) ↔ Within ps s t := by
  simp [ttRecord, h]

@[simp] theorem within_ttSkip (h : .ttOut ∈ ps) (n : Nat) (t16 : Int) :
    Within ps s (ttSkip t n t16) ↔ Within ps s t := by
  simp [ttSkip, h]

@[simp] theorem within_ttFinish (h : .ttOut ∈ ps) (n : Nat) :
    Within ps s (ttFinish t n) ↔ Within ps s t := by
  simp [ttFinish, h]

@[simp] theorem within_ttStepOne (h : .ttOut ∈ ps) (n : Nat) (before : Nat) :
    Within ps s (ttStepOne t n before) ↔ Within ps s t := by
  simp [ttStepOne, h]

@[simp] theorem within_ttStepAll (h : .ttOut ∈ ps) (before : Nat) (x : List Nat) :
    Within ps s (ttStepAll before x t) ↔ Within ps s t := by
  induction x generalizing t with
  | nil => rfl
  | cons a l ih => simp [ttStepAll, ih, h]

@[simp] theorem within_phaseStep (h : ∀ p ∈ [.tb, .ttOut, .ref], p ∈ ps) (before would after : Nat) :
    Within ps s (phaseStep t before would after) ↔ Within ps s t := by
  simp [phaseStep, h]

@[simp] theorem within_tickOn (h : ∀ p ∈ [.tb, .ttOut, .ref], p ∈ ps) :
    Within ps s (tickOn t) ↔ Within ps s t := by
  unfold tickOn
  split <;> simp [h]

@[simp] theorem within_tick (h : ∀ p ∈ [.tb, .ttOut, .ref], p ∈ ps) :
    Within ps s (tick t) ↔ Within ps s t := by
  simp [tick, h]

@[simp] theorem within_statedOffset (h : .tb ∈ ps) (i : Nat) (o : Int) :
    Within ps s (statedOffset t i o) ↔ Within ps s t := by
  simp [statedOffset, h]

@[simp] theorem within_setPort (h : .lp ∈ ps) (j : Nat) (p : LpPort) :
    Within ps s (setPort t j p) ↔ Within ps s t := by
  simp [setPort, h]

@[simp] theorem within_levelCount (n : Nat) : Within ps s (levelCount n t) ↔ Within ps s t := by
  simp [levelCount, pmcAdd]

@[simp] theorem within_toBoundary (h : ∀ p ∈ [.tb, .ttOut, .ref], p ∈ ps) :
    Within ps s (toBoundary t) ↔ Within ps s t := by
  simp [toBoundary, h]

@[simp] theorem within_setRefused :
    Within ps s (setRefused t) ↔ Within ps s t := by
  simp [setRefused]

@[simp] theorem within_clearOffsets (h : .ref ∈ ps) :
    Within ps s (clearOffsets t) ↔ Within ps s t := by
  simp [clearOffsets, h]

@[simp] theorem within_bleed (h : .ref ∈ ps) :
    Within ps s (bleed t) ↔ Within ps s t := by
  simp [bleed, h]

@[simp] theorem within_piLaw (h : .tb ∈ ps) (e16 : Int) :
    Within ps s (piLaw t e16) ↔ Within ps s t := by
  simp [piLaw, h]

@[simp] theorem within_judge (h : ∀ p ∈ validParts, p ∈ ps) (e16 : Int) (stepped : Bool) :
    Within ps s (judge t e16 stepped) ↔ Within ps s t := by
  simp [judge, h]

@[simp] theorem within_enterHold (h : ∀ p ∈ [.tb, .dpl], p ∈ ps) :
    Within ps s (enterHold t) ↔ Within ps s t := by
  simp [enterHold, h]

@[simp] theorem within_endHold (h : ∀ p ∈ [.tb, .dpl], p ∈ ps) :
    Within ps s (endHold t) ↔ Within ps s t := by
  simp [endHold, h]

@[simp] theorem within_servoHold (h : ∀ p ∈ [.tb, .dpl], p ∈ ps) :
    Within ps s (servoHold t) ↔ Within ps s t := by
  simp [servoHold, h]

@[simp] theorem within_servoWith (h : ∀ p ∈ [.glb, .tb, .ttOut, .ref, .rsp, .nts, .mit], p ∈ ps) (e16 : Int) :
    Within ps s (servoWith t e16) ↔ Within ps s t := by
  simp [servoWith, h]

@[simp] theorem within_ttApply (n : Nat) (x : List (TtWord × Word)) :
    Within ps s (ttApply n x t) ↔ Within ps s t := by
  induction x generalizing t with
  | nil => rfl
  | cons a l ih => simp [ttApply, ih]

@[simp] theorem within_ttCfgErr (n : Nat) :
    Within ps s (ttCfgErr t n) ↔ Within ps s t := by
  simp [ttCfgErr]

@[simp] theorem within_ttDone (h : .ttOut ∈ ps) (n : Nat) :
    Within ps s (ttDone t n) ↔ Within ps s t := by
  simp [ttDone, h]

@[simp] theorem within_ttBegin (h : .ttOut ∈ ps) (n : Nat) :
    Within ps s (ttBegin t n) ↔ Within ps s t := by
  simp [ttBegin, h]

@[simp] theorem within_ttAdvance (h : .ttOut ∈ ps) (n : Nat) (nominal : Int) :
    Within ps s (ttAdvance t n nominal) ↔ Within ps s t := by
  simp [ttAdvance, h]

@[simp] theorem within_setTtIn (h : .ttIn ∈ ps) (m : Nat) (x : TtIn) :
    Within ps s (setTtIn t m x) ↔ Within ps s t := by
  simp [setTtIn, h]

@[simp] theorem within_ttInRecord (h : .ttIn ∈ ps) (m : Nat) (rising : Bool) :
    Within ps s (ttInRecord t m rising) ↔ Within ps s t := by
  simp [ttInRecord, h]

@[simp] theorem within_setDpll (h : .dpl ∈ ps) (d : Nat) (x : Dpll) :
    Within ps s (setDpll t d x) ↔ Within ps s t := by
  simp [setDpll, h]

@[simp] theorem within_setRole (h : .ref ∈ ps) (i role good : Nat) (st : RoleState) :
    Within ps s (setRole t i role good st) ↔ Within ps s t := by
  simp [setRole, h]

@[simp] theorem within_evalRole (h : .ref ∈ ps) (i role : Nat) :
    Within ps s (evalRole t i role) ↔ Within ps s t := by
  simp [evalRole, h]

@[simp] theorem within_evalAll (h : .ref ∈ ps) (x : List Nat) :
    Within ps s (evalAll x t) ↔ Within ps s t := by
  induction x generalizing t with
  | nil => rfl
  | cons a l ih => simp [evalAll, ih, h]

@[simp] theorem within_takeSelection (h : ∀ p ∈ [.tb, .ref, .dpl], p ∈ ps) (want : Nat) :
    Within ps s (takeSelection t want) ↔ Within ps s t := by
  simp [takeSelection, h]

/-- A build-out that fits moves no part but REF. -/
theorem within_buildOut (h : .ref ∈ ps) {delta : Int} (fits : buildOut t delta = some u) :
    Within ps s u ↔ Within ps s t := by
  unfold buildOut at fits
  split at fits
  · cases fits
    simp [h]
  · split at fits
    · cases fits
      rfl
    · split at fits
      · cases fits
        simp [h]
      · cases fits

@[simp] theorem within_timeSwitch (h : ∀ p ∈ selectionParts, p ∈ ps) (want : Nat) :
    Within ps s (timeSwitch t want) ↔ Within ps s t := by
  unfold timeSwitch
  split
  · simp [h]
  · dsimp only
    split
    · next fits => simp [h, within_buildOut (h .ref (by simp)) fits]
    · simp [h]

@[simp] theorem within_selectTime (h : ∀ p ∈ selectionParts, p ∈ ps) :
    Within ps s (selectTime t) ↔ Within ps s t := by
  simp [selectTime, h]

@[simp] theorem within_resumeTime (h : ∀ p ∈ selectionParts, p ∈ ps) :
    Within ps s (resumeTime t) ↔ Within ps s t := by
  simp [resumeTime, h]

@[simp] theorem within_sourceChanged (h : ∀ p ∈ selectionParts, p ∈ ps) (before : State) :
    Within ps s (sourceChanged before t) ↔ Within ps s t := by
  simp [sourceChanged, h]

@[simp] theorem within_dpllTo (h : .dpl ∈ ps) (d : Nat) (st : DpllState) :
    Within ps s (dpllTo t d st) ↔ Within ps s t := by
  simp [dpllTo, h]

@[simp] theorem within_dpllSwitch (h : .dpl ∈ ps) (d want : Nat) :
    Within ps s (dpllSwitch t d want) ↔ Within ps s t := by
  unfold dpllSwitch
  dsimp only
  repeat' split
  all_goals simp [h]

@[simp] theorem within_selectDpll (h : .dpl ∈ ps) (d : Nat) :
    Within ps s (selectDpll t d) ↔ Within ps s t := by
  simp [selectDpll, h]

@[simp] theorem within_selectAll (h : ∀ p ∈ selectionParts, p ∈ ps) :
    Within ps s (selectAll t) ↔ Within ps s t := by
  simp [selectAll, h]

@[simp] theorem within_loseRole (h : ∀ p ∈ selectionParts, p ∈ ps) (i role : Nat) :
    Within ps s (loseRole t i role) ↔ Within ps s t := by
  simp [loseRole, h]

@[simp] theorem within_dropAbsent (h : ∀ p ∈ selectionParts, p ∈ ps) (i : Nat) :
    Within ps s (dropAbsent t i) ↔ Within ps s t := by
  simp [dropAbsent, h]

@[simp] theorem within_takeQl (h : ∀ p ∈ selectionParts, p ∈ ps) (i ql raw : Nat) :
    Within ps s (takeQl t i ql raw) ↔ Within ps s t := by
  simp [takeQl, h]

@[simp] theorem within_exclTick (h : .dpl ∈ ps) (d : Nat) :
    Within ps s (exclTick t d) ↔ Within ps s t := by
  simp [exclTick, h]

@[simp] theorem within_demoteOutput (h : .ref ∈ ps) :
    Within ps s (demoteOutput t) ↔ Within ps s t := by
  simp [demoteOutput, h]

@[simp] theorem within_takeFreq (h : ∀ p ∈ selectionParts, p ∈ ps) (here : Bool) (x : List Nat) :
    Within ps s (takeFreq here x t) ↔ Within ps s t := by
  induction x generalizing t with
  | nil => rfl
  | cons a l ih => simp [takeFreq, ih, h]

@[simp] theorem within_takeOffsetOf (h : .ref ∈ ps) (i : Nat) (delay off16 : Int) :
    Within ps s (takeOffsetOf t i delay off16) ↔ Within ps s t := by
  simp [takeOffsetOf, h]

@[simp] theorem within_takeOffset (h : .ref ∈ ps) (i : Nat) (off16 : Int) :
    Within ps s (takeOffset t i off16) ↔ Within ps s t := by
  simp [takeOffset, h]

@[simp] theorem within_takeSecond (h : ∀ p ∈ selectionParts, p ∈ ps) (i : Nat) (sec : Nat) :
    Within ps s (takeSecond t i sec) ↔ Within ps s t := by
  unfold takeSecond
  dsimp only
  repeat' split
  all_goals simp [h]

@[simp] theorem within_noSecond (h : ∀ p ∈ selectionParts, p ∈ ps) (i : Nat) :
    Within ps s (noSecond t i) ↔ Within ps s t := by
  simp [noSecond, h]

@[simp] theorem within_takeUtc (h : ∀ p ∈ [.tb, .ref], p ∈ ps) (i : Nat) (ofs : Option Int) (l61 l59 : Bool) :
    Within ps s (takeUtc t i ofs l61 l59) ↔ Within ps s t := by
  unfold takeUtc
  dsimp only
  repeat' split
  all_goals simp [h]

@[simp] theorem within_msgErr (i : Nat) :
    Within ps s (msgErr t i) ↔ Within ps s t := by
  simp [msgErr]

@[simp] theorem within_msgWindow (i : Nat) :
    Within ps s (msgWindow t i) ↔ Within ps s t := by
  simp [msgWindow]

@[simp] theorem within_useMessage (h : ∀ p ∈ selectionParts, p ∈ ps) (i : Nat) (m : Bytes) :
    Within ps s (useMessage t i m) ↔ Within ps s t := by
  simp [useMessage, h]

@[simp] theorem within_msgWindows (x : Nat) (z : Nat) :
    Within ps s (msgWindows x t z) ↔ Within ps s t := by
  induction x generalizing t with
  | zero => rfl
  | succ n ih => simp [msgWindows, ih]

@[simp] theorem within_judgeMessages (h : ∀ p ∈ selectionParts, p ∈ ps) (p : Nat) (edge : Nat) :
    Within ps s (judgeMessages t p edge) ↔ Within ps s t := by
  unfold judgeMessages
  dsimp only
  repeat' split
  all_goals simp [h]

@[simp] theorem within_wholeMessage (h : .ref ∈ ps) (p : Nat) (msg : Bytes) :
    Within ps s (wholeMessage t p msg) ↔ Within ps s t := by
  simp [wholeMessage, h]

@[simp] theorem within_todByte (h : .ref ∈ ps) (p : Nat) (b : Byte) :
    Within ps s (todByte t p b) ↔ Within ps s t := by
  unfold todByte
  dsimp only
  repeat' split
  all_goals simp [h]

@[simp] theorem within_todBytes (h : .ref ∈ ps) (p : Nat) (x : Bytes) :
    Within ps s (todBytes p x t) ↔ Within ps s t := by
  induction x generalizing t with
  | nil => rfl
  | cons a l ih => simp [todBytes, ih, h]

@[simp] theorem within_todDiscard (h : .ref ∈ ps) (p : Nat) :
    Within ps s (todDiscard t p) ↔ Within ps s t := by
  simp [todDiscard, h]

@[simp] theorem within_ppsOffset (h : .ref ∈ ps) (i : Nat) (delay : Int) (edge : Nat) :
    Within ps s (ppsOffset t i delay edge) ↔ Within ps s t := by
  unfold ppsOffset
  dsimp only
  repeat' split
  all_goals simp [h]

@[simp] theorem within_acceptEdge (h : ∀ p ∈ selectionParts, p ∈ ps) (p edge : Nat) :
    Within ps s (acceptEdge t p edge) ↔ Within ps s t := by
  simp [acceptEdge, h]

@[simp] theorem within_glitchEdge (h : ∀ p ∈ selectionParts, p ∈ ps) (p edge : Nat) :
    Within ps s (glitchEdge t p edge) ↔ Within ps s t := by
  simp [glitchEdge, h]

@[simp] theorem within_missCount (h : ∀ p ∈ selectionParts, p ∈ ps) (i run : Nat) :
    Within ps s (missCount t i run) ↔ Within ps s t := by
  simp [missCount, h]

@[simp] theorem within_gnssMissed (h : ∀ p ∈ [.glb, .tb, .ref, .dpl, .gn, .rsp, .nts, .mit], p ∈ ps) :
    Within ps s (gnssMissed t) ↔ Within ps s t := by
  unfold gnssMissed
  split <;> simp [h]

@[simp] theorem within_discrepant (h : ∀ p ∈ selectionParts, p ∈ ps) :
    Within ps s (discrepant t) ↔ Within ps s t := by
  simp [discrepant, h]

@[simp] theorem within_takeEsmc (h : ∀ p ∈ selectionParts, p ∈ ps) (i ssm : Nat) (essm : Option Nat) :
    Within ps s (takeEsmc t i ssm essm) ↔ Within ps s t := by
  unfold takeEsmc
  split <;> simp [h]

end Sys2Proof.Machine
end

section
/-! SUPPORT. Frames of the line ports, the management port and the commits of Loam. -/

namespace Sys2Proof.Machine

variable {ps qs : List Part} {s t u : State}

@[simp] theorem within_portEvent (j k : Nat) (more : List Nat) :
    Within ps s (portEvent t j k more) ↔ Within ps s t := by
  simp [portEvent]

@[simp] theorem within_finishItem (i : TxItem) (status : Nat) (stamp : Option Nat) (len : Nat) :
    Within ps s (finishItem t i status stamp len) ↔ Within ps s t := by
  unfold finishItem
  split <;> simp

@[simp] theorem within_flushItem (j : Nat) (i : TxItem) :
    Within ps s (flushItem t j i) ↔ Within ps s t := by
  unfold flushItem
  split <;> simp

@[simp] theorem within_flushPort (h : .lp ∈ ps) (j : Nat) :
    Within ps s (flushPort t j) ↔ Within ps s t := by
  simp [flushPort, h]

@[simp] theorem within_enqueue (h : .lp ∈ ps) (j : Nat) (i : TxItem) :
    Within ps s (enqueue t j i) ↔ Within ps s t := by
  unfold enqueue
  split <;> simp [h]

@[simp] theorem within_enqueueFront (h : .lp ∈ ps) (j : Nat) (i : TxItem) :
    Within ps s (enqueueFront t j i) ↔ Within ps s t := by
  simp [enqueueFront, h]

@[simp] theorem within_stormEnd (n : Nat) :
    Within ps s (stormEnd t n) ↔ Within ps s t := by
  simp [stormEnd]

@[simp] theorem within_synceFollow (h : ∀ p ∈ selectionParts, p ∈ ps) (j : Nat) (up : Bool) :
    Within ps s (synceFollow t j up) ↔ Within ps s t := by
  simp [synceFollow, h]

@[simp] theorem within_linkDown (h : ∀ p ∈ [.glb, .tb, .ref, .dpl, .lp, .rsp, .nts, .mit], p ∈ ps) (j : Nat) (hold : Bool) :
    Within ps s (linkDown t j hold) ↔ Within ps s t := by
  simp [linkDown, h]

@[simp] theorem within_startTraining (h : ∀ p ∈ [.lp, .clk], p ∈ ps) (j : Nat) :
    Within ps s (startTraining t j) ↔ Within ps s t := by
  simp [startTraining, h]

@[simp] theorem within_takeDown (h : ∀ p ∈ [.glb, .tb, .ref, .dpl, .lp, .rsp, .nts, .mit], p ∈ ps) (j : Nat) :
    Within ps s (takeDown t j) ↔ Within ps s t := by
  simp [takeDown, h]

@[simp] theorem within_retrain (h : ∀ p ∈ [.glb, .tb, .ref, .dpl, .lp, .rsp, .nts, .mit, .clk], p ∈ ps) (j : Nat) :
    Within ps s (retrain t j) ↔ Within ps s t := by
  simp [retrain, h]

@[simp] theorem within_setTsPort (h : .ts ∈ ps) (j : Nat) (x : TsPort) :
    Within ps s (setTsPort t j x) ↔ Within ps s t := by
  simp [setTsPort, h]

@[simp] theorem within_noteTxComp (h : .ts ∈ ps) (j : Nat) :
    Within ps s (noteTxComp t j) ↔ Within ps s t := by
  simp [noteTxComp, h]

@[simp] theorem within_noteRxComp (h : .ts ∈ ps) (j : Nat) :
    Within ps s (noteRxComp t j) ↔ Within ps s t := by
  simp [noteRxComp, h]

@[simp] theorem within_noteStamp (h : .rsp ∈ ps) (j : Nat) (i : Insert) (t' : Nat) :
    Within ps s (noteStamp t j i t') ↔ Within ps s t := by
  unfold noteStamp
  dsimp only
  repeat' split
  all_goals simp [h]

@[simp] theorem within_calEnter (h : .ts ∈ ps) (j : Nat) (f : Bytes) (stamped : Bool) (t' : Nat) :
    Within ps s (calEnter t j f stamped t') ↔ Within ps s t := by
  unfold calEnter
  dsimp only
  repeat' split
  all_goals simp [h]

@[simp] theorem within_calPair (h : .ts ∈ ps) (j : Nat) (f : Bytes) (t' : Nat) :
    Within ps s (calPair t j f t') ↔ Within ps s t := by
  unfold calPair
  dsimp only
  repeat' split
  all_goals simp [h]

@[simp] theorem within_dropLate (j : Nat) (i : TxItem) :
    Within ps s (dropLate t j i) ↔ Within ps s t := by
  unfold dropLate
  split <;> simp

@[simp] theorem within_purgeHead (h : .lp ∈ ps) (n j c : Nat) : Within ps s (purgeHead n t j c) ↔ Within ps s t := by
  induction n generalizing t with
  | zero => rfl
  | succ n ih =>
    unfold purgeHead
    split <;> simp [ih, h]

@[simp] theorem within_purgeHeads (h : .lp ∈ ps) (j : Nat) :
    Within ps s (purgeHeads t j) ↔ Within ps s t := by
  simp [purgeHeads, h]

@[simp] theorem within_beginTx (h : ∀ p ∈ [.lp, .ts, .rsp], p ∈ ps) (j : Nat) (i : TxItem) :
    Within ps s (beginTx t j i) ↔ Within ps s t := by
  unfold beginTx
  dsimp only
  repeat' split
  all_goals simp [h]

@[simp] theorem within_startTx (h : ∀ p ∈ [.lp, .ts, .rsp], p ∈ ps) (j slack : Nat) :
    Within ps s (startTx t j slack) ↔ Within ps s t := by
  unfold startTx
  dsimp only
  repeat' split
  all_goals simp [h]

@[simp] theorem within_countSent (h : .stat ∈ ps) (i : TxItem) :
    Within ps s (countSent t i) ↔ Within ps s t := by
  unfold countSent
  split <;> simp [h]

@[simp] theorem within_endTx (h : ∀ p ∈ [.stat, .lp], p ∈ ps) (j : Nat) :
    Within ps s (endTx t j) ↔ Within ps s t := by
  unfold endTx
  split <;> simp [h]

@[simp] theorem within_bufferDone (r idx addr : Nat) (b : Bytes) (ok : Bool) (body : Bytes) :
    Within ps s (bufferDone t r idx addr b ok body) ↔ Within ps s t := by
  simp [bufferDone]

@[simp] theorem within_rxNoBuf (r : Nat) :
    Within ps s (rxNoBuf t r) ↔ Within ps s t := by
  simp [rxNoBuf]

@[simp] theorem within_deliverHost (r : Nat) (f : Bytes) (x : RxInfo) :
    Within ps s (deliverHost t r f x) ↔ Within ps s t := by
  unfold deliverHost
  dsimp only
  repeat' split
  all_goals simp

@[simp] theorem within_setOcc (h : .lp ∈ ps) (j c n : Nat) :
    Within ps s (setOcc t j c n) ↔ Within ps s t := by
  simp [setOcc, h]

@[simp] theorem within_sendPfc (h : .lp ∈ ps) (j c quanta : Nat) :
    Within ps s (sendPfc t j c quanta) ↔ Within ps s t := by
  simp [sendPfc, h]

@[simp] theorem within_occAdd (h : .lp ∈ ps) (j c n : Nat) :
    Within ps s (occAdd t j c n) ↔ Within ps s t := by
  simp [occAdd, h]

@[simp] theorem within_occSub (h : .lp ∈ ps) (j c n : Nat) :
    Within ps s (occSub t j c n) ↔ Within ps s t := by
  simp [occSub, h]

@[simp] theorem within_holdForHost (h : .lp ∈ ps) (j c n : Nat) :
    Within ps s (holdForHost t j c n) ↔ Within ps s t := by
  simp [holdForHost, h]

@[simp] theorem within_releaseHeld (h : .lp ∈ ps) : Within ps s (releaseHeld t) ↔ Within ps s t := by
  unfold releaseHeld
  exact within_foldl (fun t j => (within_foldl (fun u e => within_occSub h ..) _).trans (by simp [h])) _

@[simp] theorem within_pauseFrame (h : .lp ∈ ps) (j op : Nat) (f : Bytes) :
    Within ps s (pauseFrame t j op f) ↔ Within ps s t := by
  unfold pauseFrame
  dsimp only
  repeat' split
  all_goals simp [h]

@[simp] theorem within_setCredit (h : .gnt ∈ ps) (j n : Nat) :
    Within ps s (setCredit t j n) ↔ Within ps s t := by
  simp [setCredit, h]

@[simp] theorem within_modeChanged (h : ∀ p ∈ .lp :: .clk :: selectionParts, p ∈ ps) (before : State) (n : Nat) :
    Within ps s (modeChanged before t n) ↔ Within ps s t := by
  unfold modeChanged
  exact within_foldl (fun t j => within_retrain (by simp [h]) j) _

@[simp] theorem within_cfgChanged (h : ∀ p ∈ [.glb, .tb, .ref, .dpl, .lp, .rsp, .nts, .mit, .clk], p ∈ ps)
    (before : State) (j : Nat) :
    Within ps s (cfgChanged before t j) ↔ Within ps s t := by
  simp [cfgChanged, h]

@[simp] theorem within_portDisabled (h : ∀ p ∈ [.glb, .tb, .ref, .dpl, .lp, .rsp, .nts, .mit], p ∈ ps) (j : Nat) :
    Within ps s (portDisabled t j) ↔ Within ps s t := by
  simp [portDisabled, h]

@[simp] theorem within_mgSend (h : .stat ∈ ps) (i : TxItem) :
    Within ps s (mgSend t i) ↔ Within ps s t := by
  simp [mgSend, h]

@[simp] theorem within_mgDrain (h : ∀ p ∈ [.stat, .mg], p ∈ ps) : Within ps s (mgDrain t) ↔ Within ps s t := by
  have sent (t : State) (i : TxItem) : Within ps s (mgSend t i) ↔ Within ps s t := within_mgSend (h _ (by simp)) i
  simp [mgDrain, h, sent]

@[simp] theorem within_enqueueMg (h : ∀ p ∈ [.stat, .mg], p ∈ ps) (i : TxItem) :
    Within ps s (enqueueMg t i) ↔ Within ps s t := by
  simp [enqueueMg, h]

@[simp] theorem within_mgDown (h : .mg ∈ ps) :
    Within ps s (mgDown t) ↔ Within ps s t := by
  simp [mgDown, h]

@[simp] theorem within_setI2c (h : .bcp ∈ ps) (c : Nat) (x : I2c) :
    Within ps s (setI2c t c x) ↔ Within ps s t := by
  simp [setI2c, h]

@[simp] theorem within_fwTransfer (h : .bcp ∈ ps) (c addr : Nat) (tx : Bytes) (rlen : Nat) :
    Within ps s (fwTransfer t c addr tx rlen) ↔ Within ps s t := by
  simp [fwTransfer, h]

@[simp] theorem within_phyWrites (h : .bcp ∈ ps) (lower : Bool) :
    Within ps s (phyWrites t lower) ↔ Within ps s t := by
  simp [phyWrites, h]

@[simp] theorem within_mgSpeedChange (h : ∀ p ∈ [.mg, .bcp], p ∈ ps) (lower ok : Bool) :
    Within ps s (mgSpeedChange t lower ok) ↔ Within ps s t := by
  simp [mgSpeedChange, h]

@[simp] theorem within_mgRaiseNow (h : ∀ p ∈ [.mg, .bcp], p ∈ ps) :
    Within ps s (mgRaiseNow t) ↔ Within ps s t := by
  simp [mgRaiseNow, h]

@[simp] theorem within_wakeAll (h : ∀ p ∈ [.mg, .bcp], p ∈ ps) (f : Bytes) :
    Within ps s (wakeAll t f) ↔ Within ps s t := by
  simp [wakeAll, h]

@[simp] theorem within_mgPause (h : ∀ p ∈ [.stat, .mg], p ∈ ps) (op : Nat) (f : Bytes) :
    Within ps s (mgPause t op f) ↔ Within ps s t := by
  simp [mgPause, h]

@[simp] theorem within_ctrlBack (h : .glb ∈ ps) :
    Within ps s (ctrlBack t) ↔ Within ps s t := by
  simp [ctrlBack, h]

@[simp] theorem within_idleTick (h : ∀ p ∈ [.stat, .glb, .tb, .ttOut, .ref, .lp, .mg], p ∈ ps) :
    Within ps s (idleTick t) ↔ Within ps s t := by
  simp [idleTick, h]

/-- A token is taken from LOAM's buckets only. -/
theorem within_takeToken (h : .loam ∈ ps) {cls : Nat} (taken : takeToken t cls = some u) :
    Within ps s u ↔ Within ps s t := by
  unfold takeToken at taken
  split at taken
  · cases taken
    rfl
  · dsimp only at taken
    split at taken
    · cases taken
    · cases taken
      simp [h]

@[simp] theorem within_requestCommit (h : .loam ∈ ps) (c : Commit) (takesToken : Bool) :
    Within ps s (requestCommit t c takesToken).1 ↔ Within ps s t := by
  unfold requestCommit
  split
  · simp
  · split
    · simp
    · split
      · simp
      · next taken =>
        cases takesToken
        · cases taken
          simp [h]
        · simp [h, within_takeToken h taken]

@[simp] theorem within_fwCommit (h : .loam ∈ ps) (cls : Nat) (segs : List Nat) (p : Option Payload) :
    Within ps s (fwCommit t cls segs p) ↔ Within ps s t := by
  simp [fwCommit, h]

@[simp] theorem within_loamAlarmEnd :
    Within ps s (loamAlarmEnd t) ↔ Within ps s t := by
  simp [loamAlarmEnd]

@[simp] theorem within_fwmetaCommit (h : .loam ∈ ps) :
    Within ps s (fwmetaCommit t).1 ↔ Within ps s t := by
  simp [fwmetaCommit, h]

@[simp] theorem within_fetchToken (h : .loam ∈ ps) (cls : Nat) :
    Within ps s (fetchToken t cls).1 ↔ Within ps s t := by
  unfold fetchToken
  split
  · simp
  · split
    · simp
    · split
      · simp
      · next taken => exact within_takeToken h taken

end Sys2Proof.Machine
end

section
/-! SUPPORT. Frames of the rings, the board, Brim and the messages. -/

namespace Sys2Proof.Machine

variable {ps qs : List Part} {s t u : State}

@[simp] theorem within_takeDrbg (h : .ent ∈ ps) (n : Nat) :
    Within ps s (takeDrbg t n) ↔ Within ps s t := by
  simp [takeDrbg, h]

@[simp] theorem within_notePool (h : .nts ∈ ps) :
    Within ps s (notePool t) ↔ Within ps s t := by
  simp [notePool, h]

@[simp] theorem within_fillPool (h : ∀ p ∈ [.nts, .ent], p ∈ ps) :
    Within ps s (fillPool t) ↔ Within ps s t := by
  simp [fillPool, h]

@[simp] theorem within_takeNonces (h : ∀ p ∈ [.nts, .ent], p ∈ ps) (n : Nat) :
    Within ps s (takeNonces t n) ↔ Within ps s t := by
  simp [takeNonces, h]

@[simp] theorem within_setSlotKey (h : .pke ∈ ps) (k : Nat) (b : Bytes) :
    Within ps s (setSlotKey t k b) ↔ Within ps s t := by
  simp [setSlotKey, h]

@[simp] theorem within_setJobs (h : .pke ∈ ps) (js : List PkeJob) :
    Within ps s (setJobs t js) ↔ Within ps s t := by
  simp [setJobs, h]

@[simp] theorem within_setJob (h : .pke ∈ ps) (j : PkeJob) :
    Within ps s (setJob t j) ↔ Within ps s t := by
  simp [setJob, h]

@[simp] theorem within_dropJob (h : .pke ∈ ps) (j : PkeJob) :
    Within ps s (dropJob t j) ↔ Within ps s t := by
  simp [dropJob, h]

@[simp] theorem within_randomNotReady (r idx : Nat) (d : Bytes) :
    Within ps s (randomNotReady t r idx d) ↔ Within ps s t := by
  simp [randomNotReady]

@[simp] theorem within_noteDrawWaits (h : .pke ∈ ps) :
    Within ps s (noteDrawWaits t) ↔ Within ps s t := by
  simp [noteDrawWaits, h]

@[simp] theorem within_queueJob (h : .pke ∈ ps) (r idx : Nat) (d : Bytes) (input : Option Bytes) :
    Within ps s (queueJob t r idx d input) ↔ Within ps s t := by
  simp [queueJob, h]

@[simp] theorem within_pkeFetch (h : .pke ∈ ps) (r idx : Nat) (d : Bytes) (input : Option Bytes) :
    Within ps s (pkeFetch t r idx d input) ↔ Within ps s t := by
  simp [pkeFetch, h]

@[simp] theorem within_abortJob (h : .pke ∈ ps) (j : PkeJob) :
    Within ps s (abortJob t j) ↔ Within ps s t := by
  simp [abortJob, h]

@[simp] theorem within_endJob (h : .gn ∈ ps) (j : PkeJob) (result : Nat) (body : Bytes) :
    Within ps s (endJob t j result body) ↔ Within ps s t := by
  simp [endJob, h]

@[simp] theorem within_abortDone (r : Nat) :
    Within ps s (abortDone t r) ↔ Within ps s t := by
  simp [abortDone]

@[simp] theorem within_flushJobs (h : .pke ∈ ps) (r : Nat) :
    Within ps s (flushJobs t r) ↔ Within ps s t := by
  simp [flushJobs, h]

@[simp] theorem within_abandonJobs (h : .pke ∈ ps) (r : Nat) :
    Within ps s (abandonJobs t r) ↔ Within ps s t := by
  simp [abandonJobs, h]

@[simp] theorem within_ringSpace (r : Nat) :
    Within ps s (ringSpace t r) ↔ Within ps s t := by
  simp [ringSpace]

@[simp] theorem within_armRing (r : Nat) :
    Within ps s (armRing t r) ↔ Within ps s t := by
  simp [armRing]

@[simp] theorem within_txFetch (h : ∀ p ∈ [.stat, .lp, .mg], p ∈ ps) (r idx : Nat) (d : Bytes) (data : Option Bytes) :
    Within ps s (txFetch t r idx d data) ↔ Within ps s t := by
  unfold txFetch
  dsimp only
  repeat' split
  all_goals simp [h]

@[simp] theorem within_ringErrorEnd :
    Within ps s (ringErrorEnd t) ↔ Within ps s t := by
  simp [ringErrorEnd]

@[simp] theorem within_flushFrames (h : ∀ p ∈ [.lp, .mg], p ∈ ps) (r : Nat) :
    Within ps s (flushFrames t r) ↔ Within ps s t := by
  simp [flushFrames, h]

@[simp] theorem within_flushCommits (h : .loam ∈ ps) (r : Nat) : Within ps s (flushCommits t r) ↔ Within ps s t := by
  unfold flushCommits
  refine (within_foldl (fun t c => ?_) _).trans (by simp [h])
  split <;> simp

@[simp] theorem within_flushFetched (r : Nat) :
    Within ps s (flushFetched t r) ↔ Within ps s t := by
  simp [flushFetched]

@[simp] theorem within_flushPosted (r : Nat) :
    Within ps s (flushPosted t r) ↔ Within ps s t := by
  simp [flushPosted]

@[simp] theorem within_orphan (h : ∀ p ∈ [.lp, .mg, .loam], p ∈ ps) (r : Nat) :
    Within ps s (orphan t r) ↔ Within ps s t := by
  simp [orphan, h]

@[simp] theorem within_abandonRing (h : ∀ p ∈ [.lp, .mg, .pke, .loam], p ∈ ps) (r : Nat) :
    Within ps s (abandonRing t r) ↔ Within ps s t := by
  simp [abandonRing, h]

@[simp] theorem within_clearMsix :
    Within ps s (clearMsix t) ↔ Within ps s t := by
  simp [clearMsix]

@[simp] theorem within_resetRings (h : ∀ p ∈ [.lp, .mg, .pke, .loam], p ∈ ps) :
    Within ps s (resetRings t) ↔ Within ps s t := by
  have abandoned (t : State) (r : Nat) : Within ps s (dropPend (abandonRing t r) r) ↔ Within ps s t := by simp [h]
  simp [resetRings, abandoned]

@[simp] theorem within_fireWaiting :
    Within ps s (fireWaiting t) ↔ Within ps s t := by
  simp [fireWaiting]

@[simp] theorem within_setBcp {b : Bcp} (h : .bcp ∈ ps) (hx : b.xram = t.bcp.xram ∨ .xram ∈ ps) :
    Within ps s (setBcp t b) ↔ Within ps s t := by
  simp [setBcp, h, hx]

@[simp] theorem within_setXbyte (h : ∀ p ∈ [.bcp, .xram], p ∈ ps) (a : Nat) (b : Byte) :
    Within ps s (setXbyte t a b) ↔ Within ps s t := by
  simp [setXbyte, h]

@[simp] theorem within_xwrite (h : ∀ p ∈ [.bcp, .xram], p ∈ ps) (a : Nat) (bs : Bytes) :
    Within ps s (xwrite t a bs) ↔ Within ps s t :=
  within_foldl (fun _ _ => within_setXbyte h ..) _

@[simp] theorem within_undefRead (x : XAcc) :
    Within ps s (undefRead t x) ↔ Within ps s t := by
  unfold undefRead
  dsimp only
  repeat' split
  all_goals simp

@[simp] theorem within_xwarn (h : .bcp ∈ ps) (pcie : Bool) :
    Within ps s (xwarn t pcie) ↔ Within ps s t := by
  simp [xwarn, h]

@[simp] theorem within_xaccess (h : .bcp ∈ ps) (pcie : Bool) (w : Nat) (write : Bool) :
    Within ps s (xaccess t pcie w write).1 ↔ Within ps s t := by
  simp [xaccess, h]

@[simp] theorem within_xnote (h : .bcp ∈ ps) (pcie : Bool) (w : Nat) (data : Option Nat) :
    Within ps s (xnote t pcie w data) ↔ Within ps s t := by
  cases pcie <;> simp [xnote, h]

@[simp] theorem within_meetWords (h : .bcp ∈ ps) (a width : Nat) (write : Bool) :
    Within ps s (meetWords t a width write).1 ↔ Within ps s t :=
  List.foldlRecOn (motive := fun r : State × Bool × List Nat => Within ps s r.1 ↔ Within ps s t) _ _ Iff.rfl
    fun _ hr w _ => (within_xaccess h true w write).trans hr

@[simp] theorem within_xramDo (h : ∀ p ∈ [.bcp, .xram], p ∈ ps) (a width : Nat) (write : Option Word) :
    Within ps s (xramDo t a width write) ↔ Within ps s t := by
  obtain ⟨hb, hx⟩ : .bcp ∈ ps ∧ .xram ∈ ps := by simpa using h
  cases write with
  | none => simp [xramDo_read, hb]
  | some v =>
    have put (t : State) (a : Nat) (b : Byte) : Within ps s (setXbyte t a b) ↔ Within ps s t := within_setXbyte h a b
    simp [xramDo_write, hb, put]

@[simp] theorem within_bcWrite (h : ∀ p ∈ [.bcp, .xram], p ∈ ps) (bad a : Nat) (v : Word) :
    Within ps s (bcWrite t bad a v) ↔ Within ps s t := by
  simp [bcWrite, h]

@[simp] theorem within_bcRead (h : .bcp ∈ ps) (path bad a : Nat) :
    Within ps s (bcRead t path bad a) ↔ Within ps s t := by
  simp [bcRead, h]

@[simp] theorem within_bcWrites (h : ∀ p ∈ [.bcp, .xram], p ∈ ps) (bad a : Nat) (vs : List Word) :
    Within ps s (bcWrites bad vs a t) ↔ Within ps s t := by
  induction vs generalizing a t with
  | nil => rfl
  | cons v vs ih => simp [bcWrites, ih, h]

@[simp] theorem within_bcReads (h : .bcp ∈ ps) (path bad n a : Nat) :
    Within ps s (bcReads path bad n a t) ↔ Within ps s t := by
  induction n generalizing a t with
  | zero => rfl
  | succ n ih => simp [bcReads, ih, h]

theorem within_spiTransaction {f : SpiOp → Nat → State} (instr : Byte)
    (run : ∀ op n, Within ps s (f op n) ↔ Within ps s t) :
    Within ps s (spiTransaction instr t f) ↔ Within ps s t := by
  unfold spiTransaction
  split
  · simp
  · exact run _ _

@[simp] theorem within_spiErr (ctr : Nat) :
    Within ps s (spiErr t ctr) ↔ Within ps s t := by
  simp [spiErr]

@[simp] theorem within_i2ctErr :
    Within ps s (i2ctErr t) ↔ Within ps s t := by
  simp [i2ctErr]

@[simp] theorem within_i2cSend (c : Nat) :
    Within ps s (i2cSend t c) ↔ Within ps s t := by
  simp [i2cSend]

@[simp] theorem within_i2cEnd (h : .bcp ∈ ps) (c status : Nat) :
    Within ps s (i2cEnd t c status) ↔ Within ps s t := by
  simp [i2cEnd, h]

@[simp] theorem within_i2cFail (c : Nat) :
    Within ps s (i2cFail t c) ↔ Within ps s t := by
  simp [i2cFail]

@[simp] theorem within_sendInband (h : .lp ∈ ps) (kind : Nat) :
    Within ps s (sendInband t kind) ↔ Within ps s t := by
  simp [sendInband, h]

@[simp] theorem within_gaspFirst :
    Within ps s (gaspFirst t) ↔ Within ps s t := by
  simp [gaspFirst]

@[simp] theorem within_lastGasp (h : .lp ∈ ps) :
    Within ps s (lastGasp t) ↔ Within ps s t := by
  simp [lastGasp, h]

@[simp] theorem within_sendPairing (h : ∀ p ∈ [.ent, .mit], p ∈ ps) :
    Within ps s (sendPairing t) ↔ Within ps s t := by
  simp [sendPairing, h]

@[simp] theorem within_sendMirror (h : .mit ∈ ps) (cls seg : Nat) (p : Payload) :
    Within ps s (sendMirror t cls seg p) ↔ Within ps s t := by
  unfold sendMirror
  dsimp only
  repeat' split
  all_goals simp [h]

@[simp] theorem within_setBrim (h : .brim ∈ ps) (b : Brim) :
    Within ps s (setBrim t b) ↔ Within ps s t := by
  simp [setBrim, h]

@[simp] theorem within_presencePulse (h : .brim ∈ ps) :
    Within ps s (presencePulse t) ↔ Within ps s t := by
  simp [presencePulse, h]

@[simp] theorem within_takeLeader (h : ∀ p ∈ [.glb, .tb, .ref, .dpl, .rsp, .nts, .brim, .mit], p ∈ ps) (l : Option Nat) :
    Within ps s (takeLeader t l) ↔ Within ps s t := by
  unfold takeLeader
  dsimp only
  repeat' split
  all_goals simp [h]

@[simp] theorem within_settleTx (h : .brim ∈ ps) :
    Within ps s (settleTx t) ↔ Within ps s t := by
  simp [settleTx, h]

@[simp] theorem within_enumerated (h : ∀ p ∈ [.glb, .tb, .ref, .dpl, .rsp, .nts, .brim, .mit], p ∈ ps)
    (east west : List (BitVec 64)) (ms : Nat) :
    Within ps s (enumerated t east west ms) ↔ Within ps s t := by
  unfold enumerated
  dsimp only
  repeat' split
  all_goals simp [h]

@[simp] theorem within_passToken (side : BrimSide) (seq : BitVec 16) :
    Within ps s (passToken t side seq) ↔ Within ps s t := by
  simp [passToken]

@[simp] theorem within_regenToken (h : .brim ∈ ps) :
    Within ps s (regenToken t) ↔ Within ps s t := by
  simp [regenToken, h]

@[simp] theorem within_ringBreak (h : ∀ p ∈ [.glb, .tb, .ref, .dpl, .rsp, .nts, .brim, .mit], p ∈ ps)
    (eastEnd westEnd : BitVec 64) :
    Within ps s (ringBreak t eastEnd westEnd) ↔ Within ps s t := by
  unfold ringBreak
  dsimp only
  repeat' split
  all_goals simp [h]

@[simp] theorem within_addOffset (h : .ref ∈ ps) (i : Nat) (o : Int) :
    Within ps s (addOffset t i o) ↔ Within ps s t := by
  simp [addOffset, h]

@[simp] theorem within_ringOffset (h : ∀ p ∈ .brim :: selectionParts, p ∈ ps) (o : Int) :
    Within ps s (ringOffset t o) ↔ Within ps s t := by
  unfold ringOffset
  extract_lets old s1
  have entered : Within ps s s1 ↔ Within ps s t := by simp [s1, old, h]
  split
  · cases fits : buildOut s1 (o - t.brim.offset) with
    | none => simp [h, entered]
    | some u => simp [h, entered, within_buildOut (h .ref (by simp)) fits]
  · simp [h, entered]

@[simp] theorem within_elect (h : ∀ p ∈ [.glb, .tb, .ref, .dpl, .rsp, .nts, .brim, .mit], p ∈ ps) (w : Option Nat) :
    Within ps s (elect t w) ↔ Within ps s t := by
  simp [elect, h]

@[simp] theorem within_sendWaiting (h : .brim ∈ ps) :
    Within ps s (sendWaiting t) ↔ Within ps s t := by
  unfold sendWaiting
  dsimp only
  repeat' split
  all_goals simp [h]

theorem within_sendMsg {ok : Nat → Bool} {f : Nat → Bytes → Bytes → State → State} (r : Nat) (x : Fetched)
    (data : Option Bytes) (send : ∀ dest body b u, Within ps s (f dest body b u) ↔ Within ps s u) :
    Within ps s (sendMsg t r x data ok f) ↔ Within ps s t := by
  cases data <;> simp [sendMsg, send]

@[simp] theorem within_recvMsg (r src : Nat) (data : Bytes) (ok : Bool) :
    Within ps s (recvMsg t r src data ok) ↔ Within ps s t := by
  unfold recvMsg
  dsimp only
  repeat' split
  all_goals simp

end Sys2Proof.Machine
end

section
/-! SUPPORT. Frames of the Loam store, Gauntlet and NTS. -/

namespace Sys2Proof.Machine

variable {ps qs : List Part} {s t u : State}

/-- The state of an operation that answers a second component as well. -/
theorem within_pair {α : Type} {r : State × α} {o : α} (eq : r = (u, o)) (h : Within ps s r.1 ↔ Within ps s t) :
    Within ps s u ↔ Within ps s t := by
  rwa [eq] at h

@[simp] theorem within_setLoam (h : .loam ∈ ps) (l : Loam) :
    Within ps s (setLoam t l) ↔ Within ps s t := by
  simp [setLoam, h]

@[simp] theorem within_loamState (h : .loam ∈ ps) (n : Nat) :
    Within ps s (loamState t n) ↔ Within ps s t := by
  simp [loamState, h]

@[simp] theorem within_evictClass (h : .loam ∈ ps) (cls : Nat) :
    Within ps s (evictClass t cls) ↔ Within ps s t := by
  simp [evictClass, h]

@[simp] theorem within_evictNext (h : .loam ∈ ps) :
    Within ps s (evictNext t) ↔ Within ps s t := by
  simp [evictNext, h]

@[simp] theorem within_retire (h : .loam ∈ ps) (bad : List Nat) (b : Nat) :
    Within ps s (retire bad t b) ↔ Within ps s t := by
  simp [retire, h]

@[simp] theorem within_retireSystem (h : .loam ∈ ps) (b : Nat) :
    Within ps s (retireSystem t b) ↔ Within ps s t := by
  unfold retireSystem
  dsimp only
  repeat' split
  all_goals simp [h]

@[simp] theorem within_mirrorStale (h : ∀ p ∈ [.nts, .mit], p ∈ ps) :
    Within ps s (mirrorStale t) ↔ Within ps s t := by
  simp [mirrorStale, h]

@[simp] theorem within_commitDone (h : ∀ p ∈ [.rsp, .nts, .mit], p ∈ ps) (c : Commit) (status result segs gen : Nat) :
    Within ps s (commitDone t c status result segs gen) ↔ Within ps s t := by
  unfold commitDone
  split <;> simp [h]

@[simp] theorem within_setSlotState (h : .loam ∈ ps) (k : Nat) (st : FwState) :
    Within ps s (setSlotState t k st) ↔ Within ps s t := by
  simp [setSlotState, h]

@[simp] theorem within_noteMirrored (h : ∀ p ∈ [.rsp, .nts, .loam, .mit], p ∈ ps) (c : Commit) (serial : Nat) :
    Within ps s (noteMirrored t c serial) ↔ Within ps s t := by
  unfold noteMirrored
  split <;> simp [h]

@[simp] theorem within_settleUnreadable (h : ∀ p ∈ [.rsp, .nts, .loam], p ∈ ps) :
    Within ps s (settleUnreadable t) ↔ Within ps s t := by
  simp [settleUnreadable, h]

@[simp] theorem within_commitEffect (h : ∀ p ∈ [.rsp, .nts, .loam, .mit], p ∈ ps) (c : Commit) :
    Within ps s (commitEffect t c) ↔ Within ps s t := by
  unfold commitEffect
  dsimp only
  repeat' split
  all_goals simp [h]

@[simp] theorem within_noteMirror (h : .mit ∈ ps) (c : CurCommit) :
    Within ps s (noteMirror t c) ↔ Within ps s t := by
  simp [noteMirror, h]

@[simp] theorem within_programSegment (h : ∀ p ∈ [.stat, .loam], p ∈ ps) (c : CurCommit) (res : ProgResult) :
    Within ps s (programSegment t c res) ↔ Within ps s t := by
  obtain ⟨hs, hl⟩ : .stat ∈ ps ∧ .loam ∈ ps := by simpa using h
  unfold programSegment
  simp only [within_setLoam hl]
  split <;> simp [hs, hl]

@[simp] theorem within_powerFailOne (h : ∀ p ∈ [.rsp, .nts, .mit], p ∈ ps) (c : Commit) :
    Within ps s (powerFailOne t c) ↔ Within ps s t := by
  simp [powerFailOne, h]

theorem within_loamCommand {ok : Nat → Bool} {f : Fetched → State} (r : Nat)
    (run : ∀ x, Within ps s (f x) ↔ Within ps s t) : Within ps s (loamCommand t r ok f) ↔ Within ps s t := by
  unfold loamCommand
  split <;> simp [run]

@[simp] theorem within_loamEnd (r : Nat) (x : Fetched) (result : Nat) :
    Within ps s (loamEnd t r x result) ↔ Within ps s t := by
  simp [loamEnd]

@[simp] theorem within_takeFetched (r : Nat) (x : Fetched) :
    Within ps s (takeFetched t r x) ↔ Within ps s t := by
  simp [takeFetched]

@[simp] theorem within_hostCommit (h : .loam ∈ ps) (r : Nat) (x : Fetched) (cls : Nat) (segs : List Nat)
    (p : Option Payload) : Within ps s (hostCommit t r x cls segs p) ↔ Within ps s t := by
  unfold hostCommit
  dsimp only
  split <;> next eq => simp [within_pair eq (within_requestCommit h ..)]

@[simp] theorem within_writeFlash (h : .loam ∈ ps) (at_ : Nat) (b : Bytes) :
    Within ps s (writeFlash t at_ b) ↔ Within ps s t := by
  simp [writeFlash, h]

theorem within_fwSlotTo {f : State → State} (h : .loam ∈ ps) (r : Nat) (x : Fetched) (k : Nat) (st : FwState)
    (result : Nat) (run : ∀ u, Within ps s (f u) ↔ Within ps s u) :
    Within ps s (fwSlotTo t r x k st result f) ↔ Within ps s t := by
  unfold fwSlotTo
  split <;> next eq => simp [h, run, within_pair eq (within_fwmetaCommit h)]

@[simp] theorem within_filterDrop (h : .gnt ∈ ps) (i : Nat) :
    Within ps s (filterDrop t i) ↔ Within ps s t := by
  simp [filterDrop, h]

@[simp] theorem within_setBucket (h : .gnt ∈ ps) (idx : Nat) (b : Nat × Nat) :
    Within ps s (setBucket t idx b) ↔ Within ps s t := by
  simp [setBucket, h]

@[simp] theorem within_sampleAccess (h : .gnt ∈ ps) (idx : Nat) (f : Bytes) :
    Within ps s (sampleAccess t idx f) ↔ Within ps s t := by
  unfold sampleAccess
  dsimp only
  repeat' split
  all_goals simp [h]

@[simp] theorem within_charge (h : .gnt ∈ ps) (j k : Nat) (f : Bytes) (t' : Nat) (ntp : Bool) :
    Within ps s (charge t j k f t' ntp).1 ↔ Within ps s t := by
  unfold charge
  dsimp only
  repeat' split
  all_goals simp [h]

@[simp] theorem within_addCredit (h : .gnt ∈ ps) (j wire : Nat) :
    Within ps s (addCredit t j wire) ↔ Within ps s t := by
  simp [addCredit, h]

@[simp] theorem within_ampCheck (h : .gnt ∈ ps) (j cls wire : Nat) :
    Within ps s (ampCheck t j cls wire).1 ↔ Within ps s t := by
  unfold ampCheck
  repeat' split
  all_goals simp [h]

@[simp] theorem within_fillRegion (h : .gnt ∈ ps) (k : Nat) :
    Within ps s (fillRegion t k) ↔ Within ps s t := by
  simp [fillRegion, h]

@[simp] theorem within_fillAll (h : .gnt ∈ ps) :
    Within ps s (fillAll t) ↔ Within ps s t := by
  simp [fillAll, h]

@[simp] theorem within_sweepRegion (h : .gnt ∈ ps) (u' : Nat) (k : Nat) :
    Within ps s (sweepRegion u' t k) ↔ Within ps s t := by
  simp [sweepRegion, h]

@[simp] theorem within_keyCmdDone (h : .nts ∈ ps) (result : Nat) :
    Within ps s (keyCmdDone t result) ↔ Within ps s t := by
  simp [keyCmdDone, h]

@[simp] theorem within_setSlots (h : .nts ∈ ps) (t' : Tab KeySlot) :
    Within ps s (setSlots t t') ↔ Within ps s t := by
  unfold setSlots
  dsimp only
  simp [h]

@[simp] theorem within_dropPending (h : .nts ∈ ps) :
    Within ps s (dropPending t) ↔ Within ps s t := by
  unfold dropPending
  simp [h]

@[simp] theorem within_resolveConflict (h : .nts ∈ ps) :
    Within ps s (resolveConflict t) ↔ Within ps s t := by
  simp [resolveConflict, h]

@[simp] theorem within_requestKeys (h : ∀ p ∈ [.nts, .loam], p ∈ ps) (slots : Tab KeySlot) :
    Within ps s (requestKeys t slots).1 ↔ Within ps s t := by
  simp [requestKeys, h]

@[simp] theorem within_commitFailed (h : .nts ∈ ps) :
    Within ps s (commitFailed t) ↔ Within ps s t := by
  unfold commitFailed
  split <;> simp [h]

@[simp] theorem within_takeCommitted (h : ∀ p ∈ servingParts, p ∈ ps) :
    Within ps s (takeCommitted t) ↔ Within ps s t := by
  unfold takeCommitted
  dsimp only
  repeat' split
  all_goals simp [h]

@[simp] theorem within_keepListed (h : .nts ∈ ps) (slots : Tab KeySlot) :
    Within ps s (keepListed t slots) ↔ Within ps s t := by
  unfold keepListed
  simp [h]

@[simp] theorem within_runKeyCmd (h : ∀ p ∈ .loam :: servingParts, p ∈ ps) (c : KeyCmd) :
    Within ps s (runKeyCmd t c) ↔ Within ps s t := by
  obtain ⟨hl, hr, hn⟩ : .loam ∈ ps ∧ .rsp ∈ ps ∧ .nts ∈ ps := by simpa using h
  have requested {t u : State} {slots : Tab KeySlot} {o : Option NoCommit} (eq : requestKeys t slots = (u, o)) :
      Within ps s u ↔ Within ps s t := within_pair eq (within_requestKeys (by simp [hl, hn]) _)
  unfold runKeyCmd
  cases c with
  | rotateNow | authNew | invalid => simp [hn]
  | acceptPrev =>
    dsimp only
    split
    · split <;> next eq => simp [hn, requested eq]
    · simp [hn]
  | restorePeer rec =>
    dsimp only
    split
    · split <;> next eq => simp [hr, hn, requested eq]
    · simp [hn]

@[simp] theorem within_runHeld (h : ∀ p ∈ .loam :: servingParts, p ∈ ps) (n : Nat) :
    Within ps s (runHeld n t) ↔ Within ps s t := by
  induction n generalizing t with
  | zero => rfl
  | succ n ih =>
    unfold runHeld
    split
    · rfl
    · split <;> simp [ih, h]

@[simp] theorem within_ended (h : ∀ p ∈ [.rsp, .nts, .loam], p ∈ ps) :
    Within ps s (ended t) ↔ Within ps s t := by
  simp [ended, h]

@[simp] theorem within_keyCmd (h : ∀ p ∈ [.rsp, .nts, .loam], p ∈ ps) (c : KeyCmd) :
    Within ps s (keyCmd t c) ↔ Within ps s t := by
  simp [keyCmd, h]

@[simp] theorem within_keysStale (h : .nts ∈ ps) :
    Within ps s (keysStale t) ↔ Within ps s t := by
  simp [keysStale, h]

@[simp] theorem within_mirrorLate (h : ∀ p ∈ [.nts, .mit], p ∈ ps) (e : MirrorOut) :
    Within ps s (mirrorLate t e) ↔ Within ps s t := by
  simp [mirrorLate, h]

@[simp] theorem within_dropCount (_j : Nat) (ctr : Option Nat) :
    Within ps s (dropCount t _j ctr) ↔ Within ps s t := by
  unfold dropCount
  split <;> simp

@[simp] theorem within_setGrant (h : .rsp ∈ ps) (g : Nat) (x : Grant) :
    Within ps s (setGrant t g x) ↔ Within ps s t := by
  simp [setGrant, h]

end Sys2Proof.Machine
end

section
/-! SUPPORT. Frames of the receiver, the responder and Mitten. -/

namespace Sys2Proof.Machine

variable {ps qs : List Part} {s t u : State}

/-- What a received frame may touch once it is dispatched. -/
abbrev followParts : List Part := .stat :: .lp :: .gnt :: selectionParts

@[simp] theorem within_fmSelect (h : .rsp ∈ ps) :
    Within ps s (fmSelect t) ↔ Within ps s t := by
  simp [fmSelect, h]

@[simp] theorem within_fmFeed (h : ∀ p ∈ selectionParts, p ∈ ps) :
    Within ps s (fmFeed t) ↔ Within ps s t := by
  unfold fmFeed
  split <;> simp [h]

@[simp] theorem within_rxAnnounce (h : ∀ p ∈ selectionParts, p ∈ ps) (f b : Bytes) :
    Within ps s (rxAnnounce t f b) ↔ Within ps s t := by
  unfold rxAnnounce
  dsimp only
  repeat' split
  all_goals simp [h]

@[simp] theorem within_exchangeDone (h : ∀ p ∈ [.ref, .rsp], p ∈ ps) (mpd : Int) :
    Within ps s (exchangeDone t mpd) ↔ Within ps s t := by
  unfold exchangeDone
  dsimp only
  repeat' split
  all_goals simp [h]

@[simp] theorem within_ptpReceive (h : ∀ p ∈ selectionParts, p ∈ ps) (f : Bytes) (t' : Nat) :
    Within ps s (ptpReceive t f t') ↔ Within ps s t := by
  unfold ptpReceive
  dsimp only
  repeat' split
  all_goals simp [h]

@[simp] theorem within_toHost (h : .lp ∈ ps) (j : Nat) (frame : Bytes) (prof : Option Nat) (reason t' : Nat) (ok : Bool) :
    Within ps s (toHost t j frame prof reason t' ok) ↔ Within ps s t := by
  unfold toHost
  dsimp only
  simp [h]

@[simp] theorem within_addrConflict (_j : Nat) :
    Within ps s (addrConflict t _j) ↔ Within ps s t := by
  simp [addrConflict]

@[simp] theorem within_addrAnswer (h : ∀ p ∈ [.lp, .gnt], p ∈ ps) (j t' : Nat) (frame : Bytes) (probe : Bool) :
    Within ps s (addrAnswer t j t' frame probe) ↔ Within ps s t := by
  unfold addrAnswer
  split <;> simp [h]

theorem within_arpFrame {toRing : State → State} (h : ∀ p ∈ [.lp, .gnt], p ∈ ps) (j t' : Nat) (f : Bytes)
    (ring : ∀ u, Within ps s (toRing u) ↔ Within ps s u) : Within ps s (arpFrame t j t' f toRing) ↔ Within ps s t := by
  simp [arpFrame, ring, h]

theorem within_ndFrame {toRing : State → State} (h : ∀ p ∈ [.lp, .gnt], p ∈ ps) (j t' : Nat) (f : Bytes)
    (ring : ∀ u, Within ps s (toRing u) ↔ Within ps s u) : Within ps s (ndFrame t j t' f toRing) ↔ Within ps s t := by
  unfold ndFrame
  split <;> simp [ring, h]

@[simp] theorem within_dispatch (h : ∀ p ∈ [.lp, .rsp], p ∈ ps) (r : Req) (n : Nat) :
    Within ps s (dispatch t r n) ↔ Within ps s t := by
  simp [dispatch, h]

@[simp] theorem within_admitReq (h : ∀ p ∈ [.stat, .lp, .rsp, .gnt], p ∈ ps) (j p : Nat) (frame f : Bytes) (t' : Nat)
    (ok : Bool) : Within ps s (admitReq t j p frame f t' ok) ↔ Within ps s t := by
  obtain ⟨hs, hl, hr, hg⟩ : .stat ∈ ps ∧ .lp ∈ ps ∧ .rsp ∈ ps ∧ .gnt ∈ ps := by simpa using h
  unfold admitReq
  extract_lets pr k r s0
  have counted : Within ps s s0 ↔ Within ps s t := by simp [s0, hs]
  split
  · simp [hl, hr, counted]
  · split
    · simp [hl, hr, hg, counted]
    · split <;> next eq => simp [hs, hl, hr, hg, counted, within_pair eq (within_charge hg ..)]

@[simp] theorem within_admitHost (h : ∀ p ∈ [.stat, .lp, .gnt], p ∈ ps) (j p : Nat) (frame f : Bytes) (t' reason : Nat)
    (ok : Bool) : Within ps s (admitHost t j p frame f t' reason ok) ↔ Within ps s t := by
  obtain ⟨hs, hl, hg⟩ : .stat ∈ ps ∧ .lp ∈ ps ∧ .gnt ∈ ps := by simpa using h
  unfold admitHost
  dsimp only
  split
  · simp [hs, hl]
  · split <;> next eq => simp [hs, hl, within_pair eq (within_charge hg ..)]

@[simp] theorem within_follow (h : ∀ p ∈ followParts, p ∈ ps) (j : Nat) (frame f : Bytes) (t' : Nat) (prof : Option Nat)
    (ok : Bool) (r : Route) : Within ps s (follow t j frame f t' prof ok r) ↔ Within ps s t := by
  have hl : .lp ∈ ps := h _ (by simp)
  have toRing (u : State) : Within ps s (toHost u j frame none 5 t' ok) ↔ Within ps s u := within_toHost hl ..
  have esmc (u : State) (k : Nat) (c : Nat × Option Nat) :
      Within ps s (takeEsmc u (4 + k) c.1 c.2) ↔ Within ps s u := within_takeEsmc (by simp [h]) ..
  unfold follow
  cases r with
  | arp => exact within_arpFrame (by simp [h]) _ _ _ toRing
  | nd => exact within_ndFrame (by simp [h]) _ _ _ toRing
  | esmc => simp [esmc]
  | consumed | ptpRx | host | slow | hostProf | drop | answer => simp [h]

@[simp] theorem within_applyStaged (a mask : Nat) (w : Option Word) :
    Within ps s (applyStaged t a mask w) ↔ Within ps s t := by
  unfold applyStaged
  split <;> simp

@[simp] theorem within_profStaged (h : .rsp ∈ ps) (p : Nat) :
    Within ps s (profStaged t p) ↔ Within ps s t := by
  simp [profStaged, h]

@[simp] theorem within_releaseReq (h : .lp ∈ ps) (r : Req) :
    Within ps s (releaseReq t r) ↔ Within ps s t := by
  simp [releaseReq, h]

@[simp] theorem within_startNts (r : Req) :
    Within ps s (startNts t r).1 ↔ Within ps s t := by
  unfold startNts
  dsimp only
  repeat' split
  all_goals simp

@[simp] theorem within_queueReply (h : ∀ p ∈ [.lp, .gnt], p ∈ ps) (jb : Job) (kind : RepKind) (frame : Bytes)
    (ins : Insert) (launch : Option Nat) (extra : Nat) :
    Within ps s (queueReply t jb kind frame ins launch extra) ↔ Within ps s t := by
  unfold queueReply
  dsimp only
  split <;> next eq => simp [h, within_pair eq (within_ampCheck (h .gnt (by simp)) ..)]

@[simp] theorem within_ntpReply (h : ∀ p ∈ [.lp, .gnt], p ∈ ps) (jb : Job) :
    Within ps s (ntpReply t jb) ↔ Within ps s t := by
  unfold ntpReply
  dsimp only
  repeat' split
  all_goals simp [h]

@[simp] theorem within_ntsnReply (h : ∀ p ∈ [.lp, .gnt], p ∈ ps) (jb : Job) (p : Pkt) (uid : Bytes) :
    Within ps s (ntsnReply t jb p uid) ↔ Within ps s t := by
  simp [ntsnReply, h]

@[simp] theorem within_ntsReply (h : ∀ p ∈ [.lp, .nts, .gnt, .ent], p ∈ ps) (jb : Job) :
    Within ps s (ntsReply t jb) ↔ Within ps s t := by
  unfold ntsReply
  dsimp only
  split
  · simp [h]
  · split
    · simp [h]
    · split <;> next eq => simp [h, within_pair eq (within_ampCheck (h .gnt (by simp)) ..)]
  · rfl

@[simp] theorem within_delayResp (h : ∀ p ∈ [.lp, .gnt], p ∈ ps) (jb : Job) :
    Within ps s (delayResp t jb) ↔ Within ps s t := by
  simp [delayResp, h]

@[simp] theorem within_pdelayResp (h : ∀ p ∈ [.lp, .gnt], p ∈ ps) (jb : Job) :
    Within ps s (pdelayResp t jb) ↔ Within ps s t := by
  unfold pdelayResp
  dsimp only
  repeat' split
  all_goals simp [h]

theorem within_negotiate (h : ∀ p ∈ [.rsp, .clk], p ∈ ps) (j p : Nat) (pr : Prof) (peer b : Bytes) (acc : State × Bytes)
    (tlv : Nat × Nat × Nat) : Within ps s (negotiate j p pr peer b acc tlv).1 ↔ Within ps s acc.1 := by
  unfold negotiate
  dsimp only
  split
  · split <;> simp [h]
  · split
    · simp
    · split <;> simp [h]

@[simp] theorem within_signaling (h : ∀ p ∈ [.lp, .rsp, .gnt, .clk], p ∈ ps) (jb : Job) :
    Within ps s (signaling t jb) ↔ Within ps s t := by
  unfold signaling
  simp only [within_queueReply (show ∀ p ∈ [Part.lp, .gnt], p ∈ ps by simp [h])]
  exact List.foldlRecOn (motive := fun r : State × Bytes => Within ps s r.1 ↔ Within ps s t) _ _ Iff.rfl
    fun r hr w _ => (within_negotiate (by simp [h]) ..).trans hr

@[simp] theorem within_ptpReply (h : ∀ p ∈ [.lp, .rsp, .gnt, .clk], p ∈ ps) (jb : Job) :
    Within ps s (ptpReply t jb) ↔ Within ps s t := by
  unfold ptpReply
  split <;> simp [h]

@[simp] theorem within_loseWaiting (h : ∀ p ∈ [.lp, .rsp], p ∈ ps) : Within ps s (loseWaiting t) ↔ Within ps s t := by
  have released (u : State) (r : Req) : Within ps s (releaseReq u r) ↔ Within ps s u := within_releaseReq (h _ (by simp)) r
  simp [loseWaiting, released, h]

@[simp] theorem within_loseReq (h : .lp ∈ ps) (r : Req) :
    Within ps s (loseReq t r) ↔ Within ps s t := by
  simp [loseReq, h]

@[simp] theorem within_setMit (h : .mit ∈ ps) (m : Mit) :
    Within ps s (setMit t m) ↔ Within ps s t := by
  simp [setMit, h]

@[simp] theorem within_holdsChange (h : ∀ p ∈ [.lp, .rsp, .nts], p ∈ ps) :
    Within ps s (holdsChange t) ↔ Within ps s t := by
  simp [holdsChange, h]

@[simp] theorem within_mitTo (h : ∀ p ∈ .lp :: selectionParts, p ∈ ps) (st : MitState) :
    Within ps s (mitTo t st) ↔ Within ps s t := by
  simp [mitTo, h]

@[simp] theorem within_startMit (h : .mit ∈ ps) :
    Within ps s (startMit t) ↔ Within ps s t := by
  simp [startMit, h]

@[simp] theorem within_announcePort (h : .lp ∈ ps) (j : Nat) :
    Within ps s (announcePort t j) ↔ Within ps s t := by
  simp [announcePort, h]

@[simp] theorem within_takeover (h : ∀ p ∈ .lp :: selectionParts, p ∈ ps) (alone : Bool) :
    Within ps s (takeover t alone) ↔ Within ps s t := by
  have announced (u : State) (j : Nat) : Within ps s (announcePort u j) ↔ Within ps s u :=
    within_announcePort (h _ (by simp)) j
  have moved (u : State) (st : MitState) : Within ps s (mitTo u st) ↔ Within ps s u := within_mitTo (by simp [h]) st
  simp [takeover, announced, moved, h]

@[simp] theorem within_decideSilent (h : ∀ p ∈ .lp :: selectionParts, p ∈ ps) :
    Within ps s (decideSilent t) ↔ Within ps s t := by
  unfold decideSilent
  split <;> simp [h]

@[simp] theorem within_mirrorAll (h : .mit ∈ ps) :
    Within ps s (mirrorAll t) ↔ Within ps s t := by
  simp [mirrorAll, h]

@[simp] theorem within_setL (a : Nat) (v : Word) :
    Within ps s (setL t a v) ↔ Within ps s t := by
  simp [setL]

@[simp] theorem within_mirrorCommit (h : ∀ p ∈ [.nts, .loam, .mit], p ∈ ps) (serial cls seg : Nat) (p : Option Payload) :
    Within ps s (mirrorCommit t serial cls seg p) ↔ Within ps s t := by
  unfold mirrorCommit
  split <;> next eq => simp [h, within_pair eq (within_requestCommit (h .loam (by simp)) ..)]

@[simp] theorem within_mitCtlWritten (h : ∀ p ∈ .lp :: selectionParts, p ∈ ps) (before : State) :
    Within ps s (mitCtlWritten before t) ↔ Within ps s t := by
  simp [mitCtlWritten, h]

end Sys2Proof.Machine
end

section
/-! SUPPORT. Frames of PKE, the clocks, the timestamp units and GNSS. -/

namespace Sys2Proof.Machine

variable {ps qs : List Part} {s t u : State}

theorem within_runRecipe {f : PkeJob → Recipe} (h : .pke ∈ ps) (c op : Nat)
    (run : ∀ j, Within ps s (f j).s ↔ Within ps s t) : Within ps s (runRecipe t c op f) ↔ Within ps s t := by
  unfold runRecipe
  split <;> simp [h, run]

@[simp] theorem within_modular (h : .pke ∈ ps) (c op : Nat) (g : Nat → Nat → Nat → Nat) :
    Within ps s (modular t c op g) ↔ Within ps s t :=
  within_runRecipe h c op fun _ => Iff.rfl

@[simp] theorem within_setCore (h : .pke ∈ ps) (c : Nat) (x : Core) :
    Within ps s (setCore t c x) ↔ Within ps s t := by
  simp [setCore, h]

@[simp] theorem within_startJob (h : ∀ p ∈ [.pke, .clk], p ∈ ps) (j : PkeJob) (c : Nat) :
    Within ps s (startJob t j c) ↔ Within ps s t := by
  simp [startJob, h]

@[simp] theorem within_coreFault (h : .pke ∈ ps) (c : Nat) :
    Within ps s (coreFault t c) ↔ Within ps s t := by
  simp [coreFault, h]

@[simp] theorem within_countJob (h : .stat ∈ ps) (j : PkeJob) (result : Nat) :
    Within ps s (countJob t j result) ↔ Within ps s t := by
  simp [countJob, h]

@[simp] theorem within_abortOne (h : .pke ∈ ps) (j : PkeJob) :
    Within ps s (abortOne t j) ↔ Within ps s t := by
  simp [abortOne, h]

@[simp] theorem within_setClk (h : .clk ∈ ps) (c : Clk) :
    Within ps s (setClk t c) ↔ Within ps s t := by
  simp [setClk, h]

@[simp] theorem within_enterFailed (h : ∀ p ∈ [.glb, .lp, .rsp, .nts], p ∈ ps) (cause : Nat) :
    Within ps s (enterFailed t cause) ↔ Within ps s t := by
  simp [enterFailed, h]

@[simp] theorem within_clkForceInvalid (h : ∀ p ∈ validParts, p ∈ ps) :
    Within ps s (clkForceInvalid t) ↔ Within ps s t := by
  simp [clkForceInvalid, h]

@[simp] theorem within_switchTo (h : .clk ∈ ps) (x : ClkSrc) (d : Domain) :
    Within ps s (switchTo t x d) ↔ Within ps s t := by
  simp [switchTo, h]

@[simp] theorem within_stopClock (h : .clk ∈ ps) (d : Domain) :
    Within ps s (stopClock t d) ↔ Within ps s t := by
  simp [stopClock, h]

@[simp] theorem within_ctrlToOsc (h : .clk ∈ ps) :
    Within ps s (ctrlToOsc t) ↔ Within ps s t := by
  simp [ctrlToOsc, h]

@[simp] theorem within_allStop (h : .clk ∈ ps) :
    Within ps s (allStop t) ↔ Within ps s t := by
  simp [allStop, h]

@[simp] theorem within_foldPhase (h : .tb ∈ ps) :
    Within ps s (foldPhase t) ↔ Within ps s t := by
  simp [foldPhase, h]

@[simp] theorem within_changeMode (h : ∀ p ∈ [.tb, .clk], p ∈ ps) (uni : Bool) :
    Within ps s (changeMode t uni) ↔ Within ps s t := by
  unfold changeMode
  dsimp only
  repeat' split
  all_goals simp [h]

@[simp] theorem within_outcomeState {o : Host.Outcome State Fault Refusal} (answers : AnswersWithin ps t o) :
    Within ps s (outcomeState t o) ↔ Within ps s t := by
  cases o with
  | next u => exact within_iff (answers u rfl)
  | fault r | refused r => rfl

@[simp] theorem within_dropLaneJobs (h : ∀ p ∈ [.lp, .rsp], p ∈ ps) : Within ps s (dropLaneJobs t) ↔ Within ps s t := by
  have released (u : State) (jb : Job) : Within ps s (releaseReq u jb.req) ↔ Within ps s u :=
    within_releaseReq (h _ (by simp)) _
  have hr : .rsp ∈ ps := h _ (by simp)
  unfold dropLaneJobs
  exact within_foldl (fun t k => by simp [released, hr]) _

@[simp] theorem within_faultRunning (h : ∀ p ∈ [.gn, .pke], p ∈ ps) : Within ps s (faultRunning t) ↔ Within ps s t := by
  obtain ⟨hg, hp⟩ : .gn ∈ ps ∧ .pke ∈ ps := by simpa using h
  unfold faultRunning
  exact within_foldl (fun t j => by simp [hg, hp]) _

@[simp] theorem within_ctrlRestarts (h : .glb ∈ ps) :
    Within ps s (ctrlRestarts t) ↔ Within ps s t := by
  simp [ctrlRestarts, h]

@[simp] theorem within_rescueReset (h : ∀ p ∈ [.glb, .gn, .lp, .rsp, .pke], p ∈ ps) (x : Domain) :
    Within ps s (rescueReset t x) ↔ Within ps s t := by
  unfold rescueReset
  split <;> simp [h]

@[simp] theorem within_wakeUnit (h : ∀ p ∈ [.gn, .clk], p ∈ ps) (u' : PwrUnit) (late : Bool) :
    Within ps s (wakeUnit t u' late) ↔ Within ps s t := by
  unfold wakeUnit
  split <;> simp [h]

@[simp] theorem within_degradePort (h : .ts ∈ ps) (j : Nat) :
    Within ps s (degradePort t j) ↔ Within ps s t := by
  simp [degradePort, h]

@[simp] theorem within_latchCalSum (h : .ts ∈ ps) :
    Within ps s (latchCalSum t) ↔ Within ps s t := by
  simp [latchCalSum, h]

@[simp] theorem within_submitKroot (h : ∀ p ∈ [.gn, .pke], p ∈ ps) (k : Kroot) :
    Within ps s (submitKroot t k) ↔ Within ps s t := by
  simp [submitKroot, h]

@[simp] theorem within_setChan (h : .gn ∈ ps) (c : Nat) (x : Chan) :
    Within ps s (setChan t c x) ↔ Within ps s t := by
  simp [setChan, h]

@[simp] theorem within_setBand (h : .gn ∈ ps) (b : Nat) (x : Band) :
    Within ps s (setBand t b x) ↔ Within ps s t := by
  simp [setBand, h]

@[simp] theorem within_gnRecord (r : Nat) (body : Bytes) :
    Within ps s (gnRecord t r body) ↔ Within ps s t := by
  simp [gnRecord]

@[simp] theorem within_bandLost (h : .gn ∈ ps) (b : Nat) :
    Within ps s (bandLost t b) ↔ Within ps s t := by
  simp [bandLost, h]

@[simp] theorem within_feStart (h : .gn ∈ ps) :
    Within ps s (feStart t) ↔ Within ps s t := by
  simp [feStart, h]

@[simp] theorem within_runScript (h : .gn ∈ ps) (sec : Section) :
    Within ps s (runScript t sec) ↔ Within ps s t := by
  simp [runScript, h]

@[simp] theorem within_navParts (c : Nat) (check : NavCheck) (parts n : Nat) (starts : List Nat) (bits : List Bool) :
    Within ps s (navParts c check parts n starts bits t) ↔ Within ps s t := by
  induction n generalizing starts bits t with
  | zero => rfl
  | succ n ih => simp [navParts, ih]

@[simp] theorem within_osnmaRecord :
    Within ps s (osnmaRecord t) ↔ Within ps s t := by
  simp [osnmaRecord]

@[simp] theorem within_noteAuth (h : .gn ∈ ps) :
    Within ps s (noteAuth t) ↔ Within ps s t := by
  simp [noteAuth, h]

@[simp] theorem within_setSound (h : .gn ∈ ps) (v : Bool) :
    Within ps s (setSound t v) ↔ Within ps s t := by
  simp [setSound, h]

@[simp] theorem within_osnmaTo (h : .gn ∈ ps) (o : Osnma) (cause : Nat) :
    Within ps s (osnmaTo t o cause) ↔ Within ps s t := by
  simp [osnmaTo, h]

@[simp] theorem within_osnmaEval (h : .gn ∈ ps) :
    Within ps s (osnmaEval t) ↔ Within ps s t := by
  simp [osnmaEval, h]

@[simp] theorem within_krootTake (h : .gn ∈ ps) (k : Kroot) :
    Within ps s (krootTake t k) ↔ Within ps s t := by
  simp [krootTake, h]

@[simp] theorem within_osnmaEpoch (h : .gn ∈ ps) (sol : Solution) :
    Within ps s (osnmaEpoch t sol) ↔ Within ps s t := by
  unfold osnmaEpoch
  dsimp only
  repeat' split
  all_goals simp [h]

@[simp] theorem within_istoRecord (k : Nat) :
    Within ps s (istoRecord t k) ↔ Within ps s t := by
  simp [istoRecord]

@[simp] theorem within_takeMeas (h : .gn ∈ ps) (m : ChanMeas) :
    Within ps s (takeMeas t m) ↔ Within ps s t := by
  simp [takeMeas, h]

@[simp] theorem within_istoTake (h : .gn ∈ ps) (k : Nat) (m : IstoMeas) :
    Within ps s (istoTake t k m) ↔ Within ps s t := by
  simp [istoTake, h]

@[simp] theorem within_istoTakeAll (h : .gn ∈ ps) (k : Nat) (ms : List IstoMeas) :
    Within ps s (istoTakeAll k ms t) ↔ Within ps s t := by
  induction ms generalizing k t with
  | nil => rfl
  | cons m ms ih => simp [istoTakeAll, ih, h]

@[simp] theorem within_noteUsed (h : .gn ∈ ps) :
    Within ps s (noteUsed t) ↔ Within ps s t := by
  simp [noteUsed, h]

@[simp] theorem within_takeAssign (h : ∀ p ∈ [.gn, .clk], p ∈ ps) (a : ChanAssign) :
    Within ps s (takeAssign t a) ↔ Within ps s t := by
  simp [takeAssign, h]

@[simp] theorem within_manualStart (h : ∀ p ∈ [.gn, .clk], p ∈ ps) (c : Nat) :
    Within ps s (manualStart t c) ↔ Within ps s t := by
  simp [manualStart, h]

@[simp] theorem within_manualStarts (h : ∀ p ∈ [.gn, .clk], p ∈ ps) :
    Within ps s (manualStarts t) ↔ Within ps s t := by
  obtain ⟨hg, hc⟩ : .gn ∈ ps ∧ .clk ∈ ps := by simpa using h
  simp [manualStarts, hg, hc]

@[simp] theorem within_chanWritten (h : ∀ p ∈ [.gn, .clk], p ∈ ps) (before : State) (c : Nat) :
    Within ps s (chanWritten before t c) ↔ Within ps s t := by
  simp [chanWritten, h]

@[simp] theorem within_setSolution (h : .gn ∈ ps) (v : Bool) :
    Within ps s (setSolution t v) ↔ Within ps s t := by
  simp [setSolution, h]

@[simp] theorem within_gnCommit (h : ∀ p ∈ [.gn, .loam], p ∈ ps) :
    Within ps s (gnCommit t) ↔ Within ps s t := by
  simp [gnCommit, h]

@[simp] theorem within_surveyEnd (h : ∀ p ∈ [.gn, .loam], p ∈ ps) (sol : Solution) :
    Within ps s (surveyEnd t sol) ↔ Within ps s t := by
  simp [surveyEnd, h]

@[simp] theorem within_refTakesMessage (h : ∀ p ∈ selectionParts, p ∈ ps) (m : PpsMeas) :
    Within ps s (refTakesMessage t m) ↔ Within ps s t := by
  simp [refTakesMessage, h]

@[simp] theorem within_gnssAccept (h : ∀ p ∈ .gn :: selectionParts, p ∈ ps) (t' sec : Nat) :
    Within ps s (gnssAccept t t' sec) ↔ Within ps s t := by
  simp [gnssAccept, h]

@[simp] theorem within_gnBegin (h : ∀ p ∈ [.gn, .clk], p ∈ ps) (t' : StartType) :
    Within ps s (gnBegin t t') ↔ Within ps s t := by
  simp [gnBegin, h]

@[simp] theorem within_gnStart (h : ∀ p ∈ [.gn, .clk], p ∈ ps) :
    Within ps s (gnStart t) ↔ Within ps s t := by
  simp [gnStart, h]

@[simp] theorem within_gnWakeUp (h : .gn ∈ ps) (cause : Nat) :
    Within ps s (gnWakeUp t cause) ↔ Within ps s t := by
  simp [gnWakeUp, h]

@[simp] theorem within_gnssGone (h : ∀ p ∈ selectionParts, p ∈ ps) :
    Within ps s (gnssGone t) ↔ Within ps s t := by
  simp [gnssGone, h]

@[simp] theorem within_gnSleepNow (h : ∀ p ∈ [.glb, .tb, .ref, .dpl, .gn, .rsp, .nts, .loam, .mit], p ∈ ps) :
    Within ps s (gnSleepNow t) ↔ Within ps s t := by
  simp [gnSleepNow, h]

end Sys2Proof.Machine
end

section
/-! SUPPORT. Frames of the commands, up to the register side. -/

namespace Sys2Proof.Machine

variable {ps qs : List Part} {s t u : State}

theorem execLeapApply_within (h : .tb ∈ ps) :
    AnswersWithin ps t (execLeapApply t) := by
  unfold execLeapApply
  split <;> simp [h]

theorem execTbLeapExpired_within (h : .tb ∈ ps) :
    AnswersWithin ps t (execTbLeapExpired t) := by
  simp [execTbLeapExpired, h]

theorem execPpsOutFall_within (h : .tb ∈ ps) :
    AnswersWithin ps t (execPpsOutFall t) := by
  simp [execPpsOutFall, h]

theorem execTbDcoLoWrite_within (h : .tb ∈ ps) (value : Word) :
    AnswersWithin ps t (execTbDcoLoWrite value t) := by
  simp [execTbDcoLoWrite, h]

theorem execTbDcoHiWrite_within (h : .tb ∈ ps) (value : Word) :
    AnswersWithin ps t (execTbDcoHiWrite value t) := by
  simp [execTbDcoHiWrite, h]

theorem execSetTime_within (h : ∀ p ∈ [.glb, .tb, .ttOut, .ref, .rsp, .nts, .mit], p ∈ ps) (alsoStepNow : Bool) :
    AnswersWithin ps t (execSetTime alsoStepNow t) := by
  simp [execSetTime, h]

theorem execStepNow_within (h : ∀ p ∈ [.glb, .tb, .ttOut, .ref, .rsp, .nts, .mit], p ∈ ps) (alsoSetTime : Bool) :
    AnswersWithin ps t (execStepNow alsoSetTime t) := by
  simp [execStepNow, h]

theorem execRestep_within (h : .tb ∈ ps) :
    AnswersWithin ps t (execRestep t) := by
  simp [execRestep, h]

theorem execForceInvalid_within (h : ∀ p ∈ validParts, p ∈ ps) (hold : Bool) :
    AnswersWithin ps t (execForceInvalid hold t) := by
  simp [execForceInvalid, h]

theorem execTbNowRead_within (h : .tb ∈ ps) :
    AnswersWithin ps t (execTbNowRead t) := by
  simp [execTbNowRead, h]

theorem execServoUpdate_within (h : ∀ p ∈ [.glb, .tb, .ttOut, .ref, .dpl, .rsp, .nts, .mit], p ∈ ps) :
    AnswersWithin ps t (execServoUpdate t) := by
  unfold execServoUpdate
  dsimp only
  repeat' split
  all_goals simp [h]

theorem execTtOutEnable_within (h : .ttOut ∈ ps) (n : Fin 16) (ctl : Word) :
    AnswersWithin ps t (execTtOutEnable n ctl t) := by
  simp [execTtOutEnable, h]

theorem execTtOutStagedWrite_within (h : .ttOut ∈ ps) (n : Fin 16) (w : TtWord) (value : Word) :
    AnswersWithin ps t (execTtOutStagedWrite n w value t) := by
  simp [execTtOutStagedWrite, h]

theorem execTtOutUpdate_within (h : .ttOut ∈ ps) (n : Fin 16) :
    AnswersWithin ps t (execTtOutUpdate n t) := by
  simp [execTtOutUpdate, h]

theorem execTtPulseFire_within (h : .ttOut ∈ ps) (n : Fin 16) :
    AnswersWithin ps t (execTtPulseFire n t) := by
  simp [execTtPulseFire, h]

theorem execTtPulseEnd_within (h : .ttOut ∈ ps) (n : Fin 16) :
    AnswersWithin ps t (execTtPulseEnd n t) := by
  simp [execTtPulseEnd, h]

theorem execTtCapture_within (h : .ttIn ∈ ps) (m : Fin 16) (rising : Bool) (sub : Fin 32) :
    AnswersWithin ps t (execTtCapture m rising sub t) := by
  simp [execTtCapture, h]

theorem execRefEvaluate_within (h : ∀ p ∈ selectionParts, p ∈ ps) (freqs : List Int) :
    AnswersWithin ps t (execRefEvaluate freqs t) := by
  obtain ⟨hglb, htb, href, hdpl, hrsp, hnts, hmit⟩ :
      .glb ∈ ps ∧ .tb ∈ ps ∧ .ref ∈ ps ∧ .dpl ∈ ps ∧ .rsp ∈ ps ∧ .nts ∈ ps ∧ .mit ∈ ps := by simpa using h
  simp [execRefEvaluate, href, hdpl, h]

theorem execDpllAcquireLock_within (h : .dpl ∈ ps) (d : Fin 3) :
    AnswersWithin ps t (execDpllAcquireLock d t) := by
  simp [execDpllAcquireLock, h]

theorem execDpllNarrowDone_within (h : .dpl ∈ ps) (d : Fin 3) :
    AnswersWithin ps t (execDpllNarrowDone d t) := by
  simp [execDpllNarrowDone, h]

theorem execDplLockloss_within (h : ∀ p ∈ selectionParts, p ∈ ps) (d : Fin 3) :
    AnswersWithin ps t (execDplLockloss d t) := by
  simp [execDplLockloss, h]

theorem execHoldoverSteer_within (h : .dpl ∈ ps) (temp : Int) :
    AnswersWithin ps t (execHoldoverSteer temp t) := by
  unfold execHoldoverSteer
  dsimp only
  repeat' split
  all_goals simp [h]

theorem execHoErrUpdate_within (h : ∀ p ∈ selectionParts, p ∈ ps) (temp : Int) :
    AnswersWithin ps t (execHoErrUpdate temp t) := by
  simp [execHoErrUpdate, h]

theorem execHistSample_within (h : .dpl ∈ ps) (freq temp : Int) :
    AnswersWithin ps t (execHistSample freq temp t) := by
  simp [execHistSample, h]

theorem execRefFreqGate_within (h : ∀ p ∈ selectionParts, p ∈ ps) (i : Fin 2) (ppb : Option Int) :
    AnswersWithin ps t (execRefFreqGate i ppb t) := by
  simp [execRefFreqGate, h]

theorem execLorternoMessage_within (h : .ref ∈ ps) (input : Fin 2) (msg : Bytes) :
    AnswersWithin ps t (execLorternoMessage input msg t) := by
  simp [execLorternoMessage, h]

theorem execLorternoByteGap_within (h : .ref ∈ ps) (input : Fin 2) :
    AnswersWithin ps t (execLorternoByteGap input t) := by
  simp [execLorternoByteGap, h]

theorem execLorternoFramingError_within (h : .ref ∈ ps) (input : Fin 2) :
    AnswersWithin ps t (execLorternoFramingError input t) := by
  simp [execLorternoFramingError, h]

theorem execLorternoWindowTimeout_within (h : .ref ∈ ps) (input : Fin 2) :
    AnswersWithin ps t (execLorternoWindowTimeout input t) := by
  unfold execLorternoWindowTimeout
  split <;> simp [h]

theorem execPpsEdge_within (h : ∀ p ∈ selectionParts, p ∈ ps) (input : Fin 2) (sub : Fin 32) :
    AnswersWithin ps t (execPpsEdge input sub t) := by
  unfold execPpsEdge
  dsimp only
  repeat' split
  all_goals simp [h]

theorem execMissingSecond_within (h : ∀ p ∈ .gn :: selectionParts, p ∈ ps) (i : Fin 3) :
    AnswersWithin ps t (execMissingSecond i t) := by
  simp [execMissingSecond, h]

theorem execRefPairCompare_within (h : ∀ p ∈ selectionParts, p ∈ ps) :
    AnswersWithin ps t (execRefPairCompare t) := by
  unfold execRefPairCompare
  dsimp only
  repeat' split
  all_goals simp [h]

theorem execRefEsmcTimeout_within (h : ∀ p ∈ selectionParts, p ∈ ps) (k : Fin 2) :
    AnswersWithin ps t (execRefEsmcTimeout k t) := by
  simp [execRefEsmcTimeout, h]

theorem execLpTxStart_within (h : ∀ p ∈ [.lp, .ts, .rsp], p ∈ ps) (j : Fin 16) :
    AnswersWithin ps t (execLpTxStart j t) := by
  simp [execLpTxStart, h]

theorem execLpTxEnd_within (h : ∀ p ∈ [.stat, .lp], p ∈ ps) (j : Fin 16) :
    AnswersWithin ps t (execLpTxEnd j t) := by
  simp [execLpTxEnd, h]

theorem execLaunchInstant_within (h : ∀ p ∈ [.lp, .ts, .rsp], p ∈ ps) (j : Fin 16) :
    AnswersWithin ps t (execLaunchInstant j t) := by
  simp [execLaunchInstant, h]

theorem execLpLinkUp_within (h : ∀ p ∈ [.glb, .tb, .ref, .dpl, .lp, .rsp, .nts, .gnt, .mit], p ∈ ps) (j : Fin 16)
    (sgmii : Fin 3) :
    AnswersWithin ps t (execLpLinkUp j sgmii t) := by
  simp [execLpLinkUp, h]

theorem execLpLinkDown_within (h : ∀ p ∈ .lp :: selectionParts, p ∈ ps) (j : Fin 16) (remoteFault : Bool) :
    AnswersWithin ps t (execLpLinkDown j remoteFault t) := by
  simp [execLpLinkDown, h]

theorem execLpHoldExpired_within (h : .lp ∈ ps) (j : Fin 16) :
    AnswersWithin ps t (execLpHoldExpired j t) := by
  simp [execLpHoldExpired, h]

theorem execLpFecTryTimeout_within (h : .lp ∈ ps) (j : Fin 16) :
    AnswersWithin ps t (execLpFecTryTimeout j t) := by
  simp [execLpFecTryTimeout, h]

theorem execLpFecResolved_within (h : .lp ∈ ps) (j : Fin 16) (fec : BitVec 2) :
    AnswersWithin ps t (execLpFecResolved j fec t) := by
  simp [execLpFecResolved, h]

theorem execLpModeWrite_within (h : ∀ p ∈ .lp :: .clk :: selectionParts, p ∈ ps) (n : Fin 4) (value : Word) :
    AnswersWithin ps t (execLpModeWrite n value t) := by
  simp [execLpModeWrite, h]

theorem execLpSpeedFecWrite_within (h : ∀ p ∈ .lp :: .clk :: selectionParts, p ∈ ps) (j : Fin 16) (value : Word) :
    AnswersWithin ps t (execLpSpeedFecWrite j value t) := by
  unfold execLpSpeedFecWrite
  split <;> simp [h]

theorem execLpPortDisable_within (h : ∀ p ∈ .lp :: selectionParts, p ∈ ps) (j : Fin 16) :
    AnswersWithin ps t (execLpPortDisable j t) := by
  simp [execLpPortDisable, h]

theorem execLpPortEnable_within (h : ∀ p ∈ [.lp, .clk], p ∈ ps) (j : Fin 16) :
    AnswersWithin ps t (execLpPortEnable j t) := by
  simp [execLpPortEnable, h]

theorem execLpFecUncorr_within (j : Fin 16) :
    AnswersWithin ps t (execLpFecUncorr j t) := by
  simp [execLpFecUncorr]

theorem execPauseExpired_within (h : .lp ∈ ps) (j : Fin 16) (sc : PauseScope) :
    AnswersWithin ps t (execPauseExpired j sc t) := by
  simp [execPauseExpired, h]

theorem execLpPauseStorm_within (h : .lp ∈ ps) (j : Fin 16) (sc : PauseScope) :
    AnswersWithin ps t (execLpPauseStorm j sc t) := by
  simp [execLpPauseStorm, h]

theorem execLpPauseResume_within (h : .lp ∈ ps) (j : Fin 16) (sc : PauseScope) :
    AnswersWithin ps t (execLpPauseResume j sc t) := by
  simp [execLpPauseResume, h]

theorem execPfcRepeat_within (h : .lp ∈ ps) (j : Fin 16) (c : Fin 8) :
    AnswersWithin ps t (execPfcRepeat j c t) := by
  simp [execPfcRepeat, h]

theorem execMgFrameReceived_within (h : ∀ p ∈ [.stat, .mg, .bcp], p ∈ ps) (f : Bytes) (hostOk : Bool) :
    AnswersWithin ps t (execMgFrameReceived f hostOk t) := by
  unfold execMgFrameReceived
  dsimp only
  repeat' split
  all_goals simp [h]

theorem execMgWakeStatusWrite_within (value : Word) :
    AnswersWithin ps t (execMgWakeStatusWrite value t) := by
  simp [execMgWakeStatusWrite]

theorem execMgLink_within (h : .mg ∈ ps) (up : Bool) (speed : BitVec 2) :
    AnswersWithin ps t (execMgLink up speed t) := by
  simp [execMgLink, h]

theorem execMgPauseStorm_within (h : ∀ p ∈ [.stat, .mg], p ∈ ps) :
    AnswersWithin ps t (execMgPauseStorm t) := by
  simp [execMgPauseStorm, h]

theorem execMgPauseHoldEnd_within (h : ∀ p ∈ [.stat, .mg], p ∈ ps) :
    AnswersWithin ps t (execMgPauseHoldEnd t) := by
  simp [execMgPauseHoldEnd, h]

theorem execMgTrafficInterval_within (h : ∀ p ∈ [.mg, .bcp], p ∈ ps) (bits : Nat) (i2cOk : Bool) :
    AnswersWithin ps t (execMgTrafficInterval bits i2cOk t) := by
  simp [execMgTrafficInterval, h]

theorem execTaiSecondBoundary_within (h : ∀ p ∈ [.stat, .glb, .tb, .ttOut, .ref, .lp, .mg, .loam], p ∈ ps) :
    AnswersWithin ps t (execTaiSecondBoundary t) := by
  simp [execTaiSecondBoundary, h]

theorem execHifProdWrite_within (h : ∀ p ∈ [.lp, .mg], p ∈ ps) (r : Fin 256) (value : Word) :
    AnswersWithin ps t (execHifProdWrite r value t) := by
  simp [execHifProdWrite, h]

theorem execHifConsWrite_within (h : ∀ p ∈ [.lp, .mg], p ∈ ps) (r : Fin 256) (value : Word) :
    AnswersWithin ps t (execHifConsWrite r value t) := by
  simp [execHifConsWrite, h]

theorem execHifDescFetch_within (h : ∀ p ∈ [.stat, .lp, .mg, .pke, .loam], p ∈ ps) (r : Fin 256) (desc : Bytes)
    (data : Option Bytes) : AnswersWithin ps t (execHifDescFetch r desc data t) := by
  obtain ⟨hstat, hlp, hmg, hpke, hloam⟩ : .stat ∈ ps ∧ .lp ∈ ps ∧ .mg ∈ ps ∧ .pke ∈ ps ∧ .loam ∈ ps := by simpa using h
  refine answersWithin_next.2 ?_
  split
  · extract_lets g d idx s0 s2 g2 s1 keep
    have read : Within ps t s1 := by
      simp only [s1, s2, within_setRing]
      split <;> simp [s0]
    have kept (u : State) (b : Bool) : Within ps t (keep u b) ↔ Within ps t u := by simp [keep]
    clear_value s1 keep
    split
    · simp [read, hstat, hlp, hmg]
    split
    · simp [read, hpke]
    split
    · simp [read]
    split
    · simp [read, kept]
    · split <;> next eq => simp [kept, within_pair eq (within_fetchToken hloam _), read]
  · simp

theorem execHifRingEnable_within (h : .brim ∈ ps) (r : Fin 256) (cfg : Word) :
    AnswersWithin ps t (execHifRingEnable r cfg t) := by
  simp [execHifRingEnable, h]

theorem execHifRingDisable_within (h : ∀ p ∈ [.lp, .mg, .pke, .loam], p ∈ ps) (r : Fin 256) :
    AnswersWithin ps t (execHifRingDisable r t) := by
  unfold execHifRingDisable
  split <;> simp [h]

theorem execHifRingStopped_within (r : Fin 256) :
    AnswersWithin ps t (execHifRingStopped r t) := by
  simp [execHifRingStopped]

theorem execHifDmaFail_within (h : ∀ p ∈ [.lp, .mg], p ∈ ps) (r : Fin 256) (onFetch : Bool) :
    AnswersWithin ps t (execHifDmaFail r onFetch t) := by
  unfold execHifDmaFail
  split <;> simp [h]

theorem execMsixTimer_within (v : Fin 64) :
    AnswersWithin ps t (execMsixTimer v t) := by
  simp [execMsixTimer]

theorem execMsixUnmask_within (v : Fin 64) :
    AnswersWithin ps t (execMsixUnmask v t) := by
  simp [execMsixUnmask]

theorem execHifFlr_within (h : ∀ p ∈ [.lp, .mg, .pke, .loam], p ∈ ps) :
    AnswersWithin ps t (execHifFlr t) := by
  simp [execHifFlr, h]

theorem execHifPcieLinkDown_within (h : ∀ p ∈ [.lp, .mg], p ∈ ps) :
    AnswersWithin ps t (execHifPcieLinkDown t) := by
  obtain ⟨hlp, hmg⟩ : .lp ∈ ps ∧ .mg ∈ ps := by simpa using h
  simp [execHifPcieLinkDown, hlp, hmg]

theorem execHifPcieLink_within (speed : Fin 5) (width : PcieWidth) (ctl : PcieCtl) :
    AnswersWithin ps t (execHifPcieLink speed width ctl t) := by
  simp [execHifPcieLink]

theorem execXramAccess_within (h : ∀ p ∈ [.bcp, .xram], p ∈ ps) (offset width : Nat) (write : Option Word) :
    AnswersWithin ps t (execXramAccess offset width write t) := by
  unfold execXramAccess
  dsimp only
  repeat' split
  all_goals simp [h]

theorem execSpiWrite_within (h : ∀ p ∈ [.bcp, .xram], p ∈ ps) (instr : Byte) (addr : BitVec 24) (words : List Word)
    (fin : BusEnd) : AnswersWithin ps t (execSpiWrite instr addr words fin t) := by
  refine answersWithin_next.2 ((within_spiTransaction instr fun op n => ?_).2 .refl)
  dsimp only
  repeat' split
  all_goals simp [h]

theorem execSpiRead_within (h : .bcp ∈ ps) (instr : Byte) (addr : BitVec 24) (shifted : Nat) (fin : BusEnd) :
    AnswersWithin ps t (execSpiRead instr addr shifted fin t) := by
  refine answersWithin_next.2 ((within_spiTransaction instr fun op n => ?_).2 .refl)
  dsimp only
  repeat' split
  all_goals simp [h]

theorem execSpiBadInstr_within (instr : Byte) : AnswersWithin ps t (execSpiBadInstr instr t) :=
  answersWithin_next.2 ((within_spiTransaction instr fun _ _ => Iff.rfl).2 .refl)

theorem execSpiHdrShort_within :
    AnswersWithin ps t (execSpiHdrShort t) := by
  simp [execSpiHdrShort]

theorem execI2ctWrite_within (h : ∀ p ∈ [.bcp, .xram], p ∈ ps) (target : BitVec 7) (addr : Bytes) (words : List Word)
    (fin : BusEnd) :
    AnswersWithin ps t (execI2ctWrite target addr words fin t) := by
  unfold execI2ctWrite
  dsimp only
  repeat' split
  all_goals simp [h]

theorem execI2ctRead_within (h : .bcp ∈ ps) (target : BitVec 7) (addr : BitVec 24) (shifted : Nat) (fin : BusEnd) :
    AnswersWithin ps t (execI2ctRead target addr shifted fin t) := by
  unfold execI2ctRead
  dsimp only
  repeat' split
  all_goals simp [h]

theorem execBcpMboxToBcWrite_within (h : .bcp ∈ ps) (value : Word) :
    AnswersWithin ps t (execBcpMboxToBcWrite value t) := by
  simp [execBcpMboxToBcWrite, h]

theorem execBcpMboxFromBcRead_within (h : .bcp ∈ ps) :
    AnswersWithin ps t (execBcpMboxFromBcRead t) := by
  simp [execBcpMboxFromBcRead, h]

theorem execBcpI2cGo_within (h : .bcp ∈ ps) (c : Fin 2) :
    AnswersWithin ps t (execBcpI2cGo c t) := by
  simp [execBcpI2cGo, h]

theorem execBcpI2cDone_within (h : .bcp ∈ ps) (c : Fin 2) (e : I2cEnd) :
    AnswersWithin ps t (execBcpI2cDone c e t) := by
  unfold execBcpI2cDone
  dsimp only
  repeat' split
  all_goals simp [h]

theorem execBcpI2cRetry_within (h : .bcp ∈ ps) (c : Fin 2) :
    AnswersWithin ps t (execBcpI2cRetry c t) := by
  simp [execBcpI2cRetry, h]

theorem execBcpI2cTimeout_within (h : .bcp ∈ ps) (c : Fin 2) :
    AnswersWithin ps t (execBcpI2cTimeout c t) := by
  simp [execBcpI2cTimeout, h]

theorem execBcpDiscStuck_within (h : .brim ∈ ps) :
    AnswersWithin ps t (execBcpDiscStuck t) := by
  simp [execBcpDiscStuck, h]

theorem execBrimEnable_within (h : ∀ p ∈ [.brim, .clk], p ∈ ps) :
    AnswersWithin ps t (execBrimEnable t) := by
  simp [execBrimEnable, h]

theorem execBrimDisable_within (h : ∀ p ∈ .brim :: selectionParts, p ∈ ps) :
    AnswersWithin ps t (execBrimDisable t) := by
  simp [execBrimDisable, h]

theorem execBrimResearch_within (h : .brim ∈ ps) :
    AnswersWithin ps t (execBrimResearch t) := by
  simp [execBrimResearch, h]

theorem execBrimPresence_within (h : .brim ∈ ps) :
    AnswersWithin ps t (execBrimPresence t) := by
  simp [execBrimPresence, h]

theorem execBrimPresencePulseEnd_within (h : .brim ∈ ps) :
    AnswersWithin ps t (execBrimPresencePulseEnd t) := by
  simp [execBrimPresencePulseEnd, h]

theorem execBrimSearchStart_within (h : .brim ∈ ps) :
    AnswersWithin ps t (execBrimSearchStart t) := by
  simp [execBrimSearchStart, h]

theorem execBrimSearchPass_within (h : ∀ p ∈ .brim :: selectionParts, p ∈ ps) (others : DiscPulls)
    (east west : List (BitVec 64)) (ms : Nat) :
    AnswersWithin ps t (execBrimSearchPass others east west ms t) := by
  simp [execBrimSearchPass, h]

theorem execBrimLaneUp_within (h : .brim ∈ ps) (x : BrimSide) :
    AnswersWithin ps t (execBrimLaneUp x t) := by
  unfold execBrimLaneUp
  dsimp only
  repeat' split
  all_goals simp [h]

theorem execBrimLaneDown_within (h : ∀ p ∈ .brim :: selectionParts, p ∈ ps) (x : BrimSide) :
    AnswersWithin ps t (execBrimLaneDown x t) := by
  unfold execBrimLaneDown
  dsimp only
  repeat' split
  all_goals simp [h]

theorem execBrimExchange_within (h : ∀ p ∈ .brim :: selectionParts, p ∈ ps) (x : XLane) (e : Exchange)
    (beyond : Option Int) :
    AnswersWithin ps t (execBrimExchange x e beyond t) := by
  unfold execBrimExchange
  dsimp only
  repeat' split
  all_goals simp [h]

theorem execBrimAlignLoss_within (h : ∀ p ∈ .brim :: selectionParts, p ∈ ps) :
    AnswersWithin ps t (execBrimAlignLoss t) := by
  simp [execBrimAlignLoss, h]

theorem execBrimElection_within (h : ∀ p ∈ .brim :: selectionParts, p ∈ ps) (eqls : List (Fin 16)) (eligible : List Bool) :
    AnswersWithin ps t (execBrimElection eqls eligible t) := by
  simp [execBrimElection, h]

theorem execBrimTokenArrive_within (h : .brim ∈ ps) (side : BrimSide) (seq : BitVec 16) (rotNs : Nat) :
    AnswersWithin ps t (execBrimTokenArrive side seq rotNs t) := by
  simp [execBrimTokenArrive, h]

theorem execBrimTokenRegen_within (h : .brim ∈ ps) :
    AnswersWithin ps t (execBrimTokenRegen t) := by
  simp [execBrimTokenRegen, h]

theorem execBrimControlMessage_within (h : ∀ p ∈ .brim :: selectionParts, p ∈ ps) (m : CtrlMsg) :
    AnswersWithin ps t (execBrimControlMessage m t) := by
  unfold execBrimControlMessage
  repeat' split
  all_goals simp [h]

theorem execBrimMsgSend_within (h : .brim ∈ ps) (r : Fin 256) (data : Option Bytes) :
    AnswersWithin ps t (execBrimMsgSend r data t) := by
  have sent (x : Fetched) := within_sendMsg (ps := ps) (s := t) (t := t) (ok := destOk t.brim)
    (f := fun dest body b u =>
      setBrim u { u.brim with txq := u.brim.txq ++ [{ ring := r, idx := x.idx, dest := dest, body := body, data := b }] })
    r x data fun _ _ _ _ => by simp [h]
  unfold execBrimMsgSend
  repeat' split
  all_goals simp [sent]

theorem execBrimMsgReceive_within (r : Fin 256) (src : Fin 8) (data : Bytes) (hostOk : Bool) :
    AnswersWithin ps t (execBrimMsgReceive r src data hostOk t) := by
  simp [execBrimMsgReceive]

theorem execMitMsgSend_within (r : Fin 256) (data : Option Bytes) :
    AnswersWithin ps t (execMitMsgSend r data t) := by
  have sent (x : Fetched) := within_sendMsg (ps := ps) (s := t) (t := t) (ok := fun _ => t.mit.en && t.mit.linkUp)
    (f := fun _ body b u => complete (emit u (.brim 4 b)) r x.idx stOk body) r x data fun _ _ _ _ => by simp
  unfold execMitMsgSend
  repeat' split
  all_goals simp [sent]

theorem execMitMsgReceive_within (r : Fin 256) (data : Bytes) (hostOk : Bool) :
    AnswersWithin ps t (execMitMsgReceive r data hostOk t) := by
  simp [execMitMsgReceive]

theorem execLoamCommitStart_within (h : ∀ p ∈ [.rsp, .nts, .loam, .mit], p ∈ ps) :
    AnswersWithin ps t (execLoamCommitStart t) := by
  unfold execLoamCommitStart
  dsimp only
  repeat' split
  all_goals simp [h]

theorem execLoamSegmentDone_within (h : ∀ p ∈ [.stat, .rsp, .nts, .loam, .mit], p ∈ ps) (res : ProgResult) :
    AnswersWithin ps t (execLoamSegmentDone res t) := by
  unfold execLoamSegmentDone
  dsimp only
  repeat' split
  all_goals simp [h]

theorem execLoamRewrite_within (h : .loam ∈ ps) :
    AnswersWithin ps t (execLoamRewrite t) := by
  simp [execLoamRewrite, h]

theorem execLoamPfail_within (h : ∀ p ∈ [.lp, .rsp, .nts, .loam, .mit], p ∈ ps) :
    AnswersWithin ps t (execLoamPfail t) := by
  have failed (u : State) (c : Commit) : Within ps t (powerFailOne u c) ↔ Within ps t u :=
    within_powerFailOne (fun p hp => h p (by revert hp; simp; tauto)) c
  obtain ⟨hlp, hrsp, hnts, hloam, hmit⟩ : .lp ∈ ps ∧ .rsp ∈ ps ∧ .nts ∈ ps ∧ .loam ∈ ps ∧ .mit ∈ ps := by simpa using h
  unfold execLoamPfail
  split
  · simp
  · simp [failed, hlp, hloam]

theorem execPfailRelease_within (h : .loam ∈ ps) :
    AnswersWithin ps t (execPfailRelease t) := by
  simp [execPfailRelease, h]

theorem execPfailHoldoffEnd_within (h : .loam ∈ ps) :
    AnswersWithin ps t (execPfailHoldoffEnd t) := by
  simp [execPfailHoldoffEnd, h]

theorem execLoamWearMove_within (h : .loam ∈ ps) :
    AnswersWithin ps t (execLoamWearMove t) := by
  simp [execLoamWearMove, h]

theorem execLoamFirmwareCommit_within (h : .loam ∈ ps) (sid : SegId) (payload : Bytes) :
    AnswersWithin ps t (execLoamFirmwareCommit sid payload t) := by
  simp [execLoamFirmwareCommit, h]

theorem execLoamCommit_within (h : .loam ∈ ps) (r : Fin 256) : AnswersWithin ps t (execLoamCommit r t) := by
  refine answersWithin_next.2 ((within_loamCommand _ fun x => ?_).2 .refl)
  dsimp only
  split <;> simp [h]

theorem execLoamRead_within (r : Fin 256) (writeOk : Bool) : AnswersWithin ps t (execLoamRead r writeOk t) := by
  refine answersWithin_next.2 ((within_loamCommand _ fun x => ?_).2 .refl)
  dsimp only
  repeat' split
  all_goals simp

theorem execCsigSet_within (h : .loam ∈ ps) (r : Fin 256) (key : Option Bytes) :
    AnswersWithin ps t (execCsigSet r key t) := by
  refine answersWithin_next.2 ((within_loamCommand _ fun x => ?_).2 .refl)
  dsimp only
  repeat' split
  all_goals simp [h]

theorem execWipe_within (h : .loam ∈ ps) (r : Fin 256) : AnswersWithin ps t (execWipe r t) :=
  answersWithin_next.2 ((within_loamCommand _ fun x => by simp [h]).2 .refl)

theorem execLoamUnknownOpcode_within (r : Fin 256) : AnswersWithin ps t (execLoamUnknownOpcode r t) :=
  answersWithin_next.2 ((within_loamCommand _ fun x => by simp).2 .refl)

theorem execFwWrite_within (h : .loam ∈ ps) (r : Fin 256) (image : Option Bytes) :
    AnswersWithin ps t (execFwWrite r image t) := by
  refine answersWithin_next.2 ((within_loamCommand _ fun x => ?_).2 .refl)
  dsimp only
  repeat' split
  all_goals first
    | (simp [h]; done)
    | (rw [within_fwSlotTo h _ _ _ _ _ fun u => by simp [h]]; simp)

theorem execFwActivate_within (h : .loam ∈ ps) (r : Fin 256) (image : ImageCheck) :
    AnswersWithin ps t (execFwActivate r image t) := by
  have moved (x : Fetched) (k : Nat) (st : FwState) (n : Nat) := within_fwSlotTo (s := t) (t := t) (f := id) h r x k st n
    fun _ => Iff.rfl
  refine answersWithin_next.2 ((within_loamCommand _ fun x => ?_).2 .refl)
  simp [moved]

theorem execFwCommit_within (h : .loam ∈ ps) (r : Fin 256) : AnswersWithin ps t (execFwCommit r t) := by
  refine answersWithin_next.2 ((within_loamCommand _ fun x => ?_).2 .refl)
  simp [h]

theorem execFwTrialMinute_within (h : .loam ∈ ps) :
    AnswersWithin ps t (execFwTrialMinute t) := by
  simp [execFwTrialMinute, h]

theorem execGntRekey_within (h : .gnt ∈ ps) :
    AnswersWithin ps t (execGntRekey t) := by
  simp [execGntRekey, h]

theorem execGntKeyDrawn_within (h : ∀ p ∈ [.gnt, .ent], p ∈ ps) :
    AnswersWithin ps t (execGntKeyDrawn t) := by
  simp [execGntKeyDrawn, h]

theorem execGntSweep_within (h : .gnt ∈ ps) :
    AnswersWithin ps t (execGntSweep t) := by
  simp [execGntSweep, h]

theorem execGntPolicyWrite_within (h : .gnt ∈ ps) (k : Fin 64) (value : Word) :
    AnswersWithin ps t (execGntPolicyWrite k value t) := by
  simp [execGntPolicyWrite, h]

theorem execGntAmpCfgWrite_within (h : .gnt ∈ ps) (j : Fin 16) (value : Word) :
    AnswersWithin ps t (execGntAmpCfgWrite j value t) := by
  simp [execGntAmpCfgWrite, h]

theorem execGntSampleSecond_within (h : .gnt ∈ ps) :
    AnswersWithin ps t (execGntSampleSecond t) := by
  simp [execGntSampleSecond, h]

theorem execNtsRotationDue_within (h : .nts ∈ ps) :
    AnswersWithin ps t (execNtsRotationDue t) := by
  unfold execNtsRotationDue
  dsimp only
  repeat' split
  all_goals simp [h]

theorem execNtsKeyDrawn_within (h : ∀ p ∈ [.rsp, .nts, .ent, .loam], p ∈ ps) :
    AnswersWithin ps t (execNtsKeyDrawn t) := by
  obtain ⟨hrsp, hnts, hent, hloam⟩ : .rsp ∈ ps ∧ .nts ∈ ps ∧ .ent ∈ ps ∧ .loam ∈ ps := by simpa using h
  have requested (u : State) (slots : Tab KeySlot) : Within ps t (requestKeys u slots).1 ↔ Within ps t u :=
    within_requestKeys (by simp [hnts, hloam]) slots
  unfold execNtsKeyDrawn
  split
  · simp
  · dsimp only
    split <;> next eq => simp [within_pair eq (requested ..), within_ended, hrsp, hnts, hent, h]

theorem execNtsKeysCommitted_within (h : ∀ p ∈ [.rsp, .nts, .loam, .mit], p ∈ ps) (ok : Bool) :
    AnswersWithin ps t (execNtsKeysCommitted ok t) := by
  simp [execNtsKeysCommitted, h]

theorem execNtsMirrorWaitExpired_within (h : ∀ p ∈ [.rsp, .nts, .loam, .mit], p ∈ ps) :
    AnswersWithin ps t (execNtsMirrorWaitExpired t) := by
  unfold execNtsMirrorWaitExpired
  split <;> simp [h]

theorem execNtsRotationRetry_within (h : .nts ∈ ps) :
    AnswersWithin ps t (execNtsRotationRetry t) := by
  simp [execNtsRotationRetry, h]

theorem execRotateNow_within (h : ∀ p ∈ [.rsp, .nts, .loam], p ∈ ps) :
    AnswersWithin ps t (execRotateNow t) := by
  simp [execRotateNow, h]

theorem execAuthNew_within (h : ∀ p ∈ [.rsp, .nts, .loam], p ∈ ps) :
    AnswersWithin ps t (execAuthNew t) := by
  simp [execAuthNew, h]

theorem execAcceptPrev_within (h : ∀ p ∈ [.rsp, .nts, .loam], p ∈ ps) :
    AnswersWithin ps t (execAcceptPrev t) := by
  simp [execAcceptPrev, h]

theorem execRestorePeer_within (h : ∀ p ∈ [.rsp, .nts, .loam], p ∈ ps) (rec : MirrorRec) :
    AnswersWithin ps t (execRestorePeer rec t) := by
  simp [execRestorePeer, h]

theorem execNtsKeyCmdInvalid_within (h : ∀ p ∈ [.rsp, .nts, .loam], p ∈ ps) (_code : BitVec 3) :
    AnswersWithin ps t (execNtsKeyCmdInvalid _code t) := by
  simp [execNtsKeyCmdInvalid, h]

theorem execMint_within (h : ∀ p ∈ [.stat, .nts, .ent], p ∈ ps) (r : Fin 256) (buf : Option Bytes) (writeOk : Bool) :
    AnswersWithin ps t (execMint r buf writeOk t) := by
  unfold execMint
  dsimp only
  repeat' split
  all_goals simp [h]

theorem execRspPtpAnnTimeout_within (h : ∀ p ∈ selectionParts, p ∈ ps) :
    AnswersWithin ps t (execRspPtpAnnTimeout t) := by
  unfold execRspPtpAnnTimeout
  split <;> simp [h]

theorem execPtpDelayReqSlot_within (h : ∀ p ∈ [.lp, .rsp], p ∈ ps) :
    AnswersWithin ps t (execPtpDelayReqSlot t) := by
  simp [execPtpDelayReqSlot, h]

theorem execFrameReceived_within (h : ∀ p ∈ [.stat, .glb, .tb, .ref, .dpl, .lp, .ts, .rsp, .nts, .gnt, .mit], p ∈ ps)
    (j : Fin 16) (frame : Bytes) (ago : Nat) (hostOk : Bool) :
    AnswersWithin ps t (execFrameReceived j frame ago hostOk t) := by
  unfold execFrameReceived
  dsimp only
  repeat' split
  all_goals simp [h]

theorem execRspRuleStage_within (h : .rsp ∈ ps) (r : Fin 256) (mask : Bool) (value : Word) :
    AnswersWithin ps t (execRspRuleStage r mask value t) := by
  simp [execRspRuleStage, h]

theorem execRspRuleApply_within (h : .rsp ∈ ps) (r : Fin 256) (value : Word) :
    AnswersWithin ps t (execRspRuleApply r value t) := by
  simp [execRspRuleApply, h]

theorem execRspProfileStage_within (h : .rsp ∈ ps) (p : Fin 64) (w : ProfWord) (value : Word) :
    AnswersWithin ps t (execRspProfileStage p w value t) := by
  simp [execRspProfileStage, h]

theorem execRspProfileApply_within (h : ∀ p ∈ [.rsp, .clk], p ∈ ps) (p : Fin 64) (value : Word) :
    AnswersWithin ps t (execRspProfileApply p value t) := by
  simp [execRspProfileApply, h]

theorem execLaneAccept_within (h : ∀ p ∈ [.lp, .rsp], p ∈ ps) (lane : Fin 16) :
    AnswersWithin ps t (execLaneAccept lane t) := by
  unfold execLaneAccept
  split
  · simp
  · split
    · simp
    · dsimp only
      split
      · simp [h]
      · split
        · split <;> next eq => simp [within_pair eq (within_startNts _), h]
        · simp [h]

theorem execLaneReplyDone_within (h : ∀ p ∈ [.lp, .rsp, .nts, .gnt, .ent, .clk], p ∈ ps) (lane : Fin 16) :
    AnswersWithin ps t (execLaneReplyDone lane t) := by
  unfold execLaneReplyDone
  dsimp only
  repeat' split
  all_goals simp [h]

theorem execPdelayRespFollowUp_within (h : ∀ p ∈ [.lp, .rsp], p ∈ ps) (j : Fin 16) :
    AnswersWithin ps t (execPdelayRespFollowUp j t) := by
  unfold execPdelayRespFollowUp
  split <;> simp [h]

theorem execRspLaneFault_within (h : ∀ p ∈ [.lp, .rsp, .nts], p ∈ ps) (lane : Fin 16) :
    AnswersWithin ps t (execRspLaneFault lane t) := by
  obtain ⟨hlp, hrsp, hnts⟩ : .lp ∈ ps ∧ .rsp ∈ ps ∧ .nts ∈ ps := by simpa using h
  unfold execRspLaneFault
  split <;> simp [hlp, hrsp, hnts]

theorem execRspLaneRetest_within (h : .rsp ∈ ps) (lanes : BitVec 16) :
    AnswersWithin ps t (execRspLaneRetest lanes t) := by
  simp [execRspLaneRetest, h]

theorem execRspLaneTestDone_within (h : ∀ p ∈ servingParts, p ∈ ps) (lane : Fin 16) (pass : Bool) :
    AnswersWithin ps t (execRspLaneTestDone lane pass t) := by
  simp [execRspLaneTestDone, h]

theorem execMitEnable_within (h : ∀ p ∈ [.mit, .clk], p ∈ ps) :
    AnswersWithin ps t (execMitEnable t) := by
  simp [execMitEnable, h]

theorem execMitDisable_within (h : ∀ p ∈ .lp :: selectionParts, p ∈ ps) :
    AnswersWithin ps t (execMitDisable t) := by
  simp [execMitDisable, h]

theorem execMitLaneUp_within (h : ∀ p ∈ [.glb, .tb, .ref, .dpl, .rsp, .nts, .ent, .mit], p ∈ ps) :
    AnswersWithin ps t (execMitLaneUp t) := by
  simp [execMitLaneUp, h]

theorem execMitLaneDown_within (h : ∀ p ∈ .lp :: selectionParts, p ∈ ps) :
    AnswersWithin ps t (execMitLaneDown t) := by
  simp [execMitLaneDown, h]

theorem execMitPairingMessage_within (h : ∀ p ∈ .lp :: selectionParts, p ∈ ps) (m : PairMsg) :
    AnswersWithin ps t (execMitPairingMessage m t) := by
  simp [execMitPairingMessage, h]

theorem execMitPairingTimeout_within (h : ∀ p ∈ .lp :: selectionParts, p ∈ ps) :
    AnswersWithin ps t (execMitPairingTimeout t) := by
  simp [execMitPairingTimeout, h]

theorem execMitHeartbeatSend_within :
    AnswersWithin ps t (execMitHeartbeatSend t) := by
  simp [execMitHeartbeatSend]

theorem execMitInbandSend_within (h : .lp ∈ ps) :
    AnswersWithin ps t (execMitInbandSend t) := by
  simp [execMitInbandSend, h]

theorem execMitHeartbeatRx_within (h : ∀ p ∈ .lp :: selectionParts, p ∈ ps) (inband serving : Bool) (since : Nat) :
    AnswersWithin ps t (execMitHeartbeatRx inband serving since t) := by
  simp [execMitHeartbeatRx, h]

theorem execMitHeartbeatMissed_within (h : ∀ p ∈ .lp :: selectionParts, p ∈ ps) :
    AnswersWithin ps t (execMitHeartbeatMissed t) := by
  unfold execMitHeartbeatMissed
  dsimp only
  repeat' split
  all_goals simp [h]

theorem execMitInbandSilent_within (h : ∀ p ∈ .lp :: selectionParts, p ∈ ps) :
    AnswersWithin ps t (execMitInbandSilent t) := by
  simp [execMitInbandSilent, h]

theorem execMitLastGaspRx_within (h : ∀ p ∈ .lp :: selectionParts, p ∈ ps) :
    AnswersWithin ps t (execMitLastGaspRx t) := by
  simp [execMitLastGaspRx, h]

theorem execMitMirrorAck_within (h : ∀ p ∈ [.rsp, .nts, .loam, .mit], p ∈ ps) (sid : SegId) (serial : Nat) :
    AnswersWithin ps t (execMitMirrorAck sid serial t) := by
  unfold execMitMirrorAck
  split <;> simp [h]

theorem execMitWitnessAlive_within (h : .mit ∈ ps) :
    AnswersWithin ps t (execMitWitnessAlive t) := by
  simp [execMitWitnessAlive, h]

theorem execMitWitnessExpired_within (h : ∀ p ∈ .lp :: selectionParts, p ∈ ps) :
    AnswersWithin ps t (execMitWitnessExpired t) := by
  have taken (u : State) : Within ps t (takeover u true) ↔ Within ps t u := within_takeover h true
  unfold execMitWitnessExpired
  split
  · dsimp only
    repeat' split
    all_goals simp [taken, h]
  · simp

theorem execRelinquish_within (h : ∀ p ∈ [.lp, .mit], p ∈ ps) :
    AnswersWithin ps t (execRelinquish t) := by
  simp [execRelinquish, h]

theorem execMitTakeoverNotice_within (h : ∀ p ∈ .lp :: selectionParts, p ∈ ps) :
    AnswersWithin ps t (execMitTakeoverNotice t) := by
  simp [execMitTakeoverNotice, h]

theorem execModAdd_within (h : .pke ∈ ps) (core : Fin 12) :
    AnswersWithin ps t (execModAdd core t) := by
  simp [execModAdd, h]

theorem execModSub_within (h : .pke ∈ ps) (core : Fin 12) :
    AnswersWithin ps t (execModSub core t) := by
  simp [execModSub, h]

theorem execModMul_within (h : .pke ∈ ps) (core : Fin 12) :
    AnswersWithin ps t (execModMul core t) := by
  simp [execModMul, h]

theorem execModInv_within (h : .pke ∈ ps) (core : Fin 12) : AnswersWithin ps t (execModInv core t) := by
  refine answersWithin_next.2 ((within_runRecipe h _ _ fun j => ?_).2 .refl)
  dsimp only
  split <;> rfl

theorem execModExp_within (h : .pke ∈ ps) (core : Fin 12) :
    AnswersWithin ps t (execModExp core t) := by
  simp [execModExp, h]

theorem execEcdsaSign_within (h : .pke ∈ ps) (core : Fin 12) : AnswersWithin ps t (execEcdsaSign core t) :=
  answersWithin_next.2 ((within_runRecipe h _ _ fun _ => by rfl).2 .refl)

theorem execEcdsaVerify_within (h : .pke ∈ ps) (core : Fin 12) : AnswersWithin ps t (execEcdsaVerify core t) :=
  answersWithin_next.2 ((within_runRecipe h _ _ fun _ => by rfl).2 .refl)

theorem execEd25519Sign_within (h : .pke ∈ ps) (core : Fin 12) : AnswersWithin ps t (execEd25519Sign core t) :=
  answersWithin_next.2 ((within_runRecipe h _ _ fun _ => by rfl).2 .refl)

theorem execEd25519Verify_within (h : .pke ∈ ps) (core : Fin 12) : AnswersWithin ps t (execEd25519Verify core t) :=
  answersWithin_next.2 ((within_runRecipe h _ _ fun _ => by rfl).2 .refl)

theorem execX25519_within (h : .pke ∈ ps) (core : Fin 12) : AnswersWithin ps t (execX25519 core t) :=
  answersWithin_next.2 ((within_runRecipe h _ _ fun _ => by rfl).2 .refl)

theorem execRsaPriv_within (h : .pke ∈ ps) (core : Fin 12) : AnswersWithin ps t (execRsaPriv core t) := by
  refine answersWithin_next.2 ((within_runRecipe h _ _ fun j => ?_).2 .refl)
  dsimp only
  split <;> rfl

theorem execRsaPub_within (h : .pke ∈ ps) (core : Fin 12) : AnswersWithin ps t (execRsaPub core t) :=
  answersWithin_next.2 ((within_runRecipe h _ _ fun _ => by rfl).2 .refl)

theorem execKeyImport_within (h : .pke ∈ ps) (core : Fin 12) : AnswersWithin ps t (execKeyImport core t) := by
  refine answersWithin_next.2 ((within_runRecipe h _ _ fun j => ?_).2 .refl)
  dsimp only
  repeat' split
  all_goals simp [h]

theorem execKeyWrap_within (h : .pke ∈ ps) (core : Fin 12) : AnswersWithin ps t (execKeyWrap core t) :=
  answersWithin_next.2 ((within_runRecipe h _ _ fun _ => by rfl).2 .refl)

theorem execKeygen_within (h : .pke ∈ ps) (core : Fin 12) : AnswersWithin ps t (execKeygen core t) :=
  answersWithin_next.2 ((within_runRecipe h _ _ fun _ => by simp [h]).2 .refl)

theorem execKeyErase_within (h : .pke ∈ ps) (core : Fin 12) : AnswersWithin ps t (execKeyErase core t) :=
  answersWithin_next.2 ((within_runRecipe h _ _ fun _ => by simp [h]).2 .refl)

theorem execPkeUnknownOpcode_within (h : .pke ∈ ps) (core : Fin 12) :
    AnswersWithin ps t (execPkeUnknownOpcode core t) := by
  unfold execPkeUnknownOpcode
  split <;> simp [h]

theorem execPkeDispatch_within (h : ∀ p ∈ [.pke, .clk], p ∈ ps) :
    AnswersWithin ps t (execPkeDispatch t) := by
  unfold execPkeDispatch
  dsimp only
  repeat' split
  all_goals simp [h]

theorem execPkeDrawDone_within (h : ∀ p ∈ [.pke, .ent], p ∈ ps) (r : Fin 256) :
    AnswersWithin ps t (execPkeDrawDone r t) := by
  unfold execPkeDrawDone
  split <;> simp [h]

theorem execPkeYield_within (h : .pke ∈ ps) (core : Fin 12) (coreTime : Nat) :
    AnswersWithin ps t (execPkeYield core coreTime t) := by
  unfold execPkeYield
  split <;> simp [h]

theorem execPkeJobDone_within (h : ∀ p ∈ [.stat, .gn, .pke], p ∈ ps) (core : Fin 12) (parityError writeOk : Bool)
    (coreTime : Nat) :
    AnswersWithin ps t (execPkeJobDone core parityError writeOk coreTime t) := by
  unfold execPkeJobDone
  split <;> simp [h]

theorem execPkeCoreRetest_within (h : .pke ∈ ps) (cores : BitVec 12) :
    AnswersWithin ps t (execPkeCoreRetest cores t) := by
  simp [execPkeCoreRetest, h]

theorem execPkeCoreTestDone_within (h : .pke ∈ ps) (core : Fin 12) (pass : Bool) :
    AnswersWithin ps t (execPkeCoreTestDone core pass t) := by
  simp [execPkeCoreTestDone, h]

theorem execPkeAbort_within (h : .pke ∈ ps) (r : Fin 16) :
    AnswersWithin ps t (execPkeAbort r t) := by
  simp [execPkeAbort, h]

theorem execWrapLock_within (h : .pke ∈ ps) :
    AnswersWithin ps t (execWrapLock t) := by
  simp [execWrapLock, h]

theorem execRandom_within (h : ∀ p ∈ [.stat, .pke, .ent], p ∈ ps) (r : Fin 256) (writeOk : Bool) :
    AnswersWithin ps t (execRandom r writeOk t) := by
  unfold execRandom
  split <;> simp [h]

theorem execRandomWaitExpired_within (h : .pke ∈ ps) (r : Fin 256) :
    AnswersWithin ps t (execRandomWaitExpired r t) := by
  unfold execRandomWaitExpired
  split <;> simp [h]

theorem execClkXtalLost_within (h : ∀ p ∈ [.glb, .tb, .ref, .lp, .rsp, .nts, .mit, .clk], p ∈ ps) :
    AnswersWithin ps t (execClkXtalLost t) := by
  unfold execClkXtalLost
  dsimp only
  repeat' split
  all_goals simp [h]

theorem execClkLoinLost_within (h : ∀ p ∈ [.glb, .tb, .ref, .lp, .rsp, .nts, .mit, .clk], p ∈ ps) :
    AnswersWithin ps t (execClkLoinLost t) := by
  simp [execClkLoinLost, h]

theorem execClkFreqCheck_within (h : ∀ p ∈ [.glb, .tb, .ref, .lp, .rsp, .nts, .mit, .clk], p ∈ ps) (lo xtal sds : Int) :
    AnswersWithin ps t (execClkFreqCheck lo xtal sds t) := by
  obtain ⟨hglb, htb, href, hlp, hrsp, hnts, hmit, hclk⟩ : .glb ∈ ps ∧ .tb ∈ ps ∧ .ref ∈ ps ∧ .lp ∈ ps ∧ .rsp ∈ ps ∧
    .nts ∈ ps ∧ .mit ∈ ps ∧ .clk ∈ ps := by simpa using h
  have lostX := within_outcomeState (s := t) (execClkXtalLost_within (ps := ps) (t := t) (by simp [*]))
  have lostL := within_outcomeState (s := t) (execClkLoinLost_within (ps := ps) (t := t) (by simp [*]))
  unfold execClkFreqCheck
  split <;> simp [lostX, lostL, hclk]

theorem execUnifiedReq_within (h : ∀ p ∈ [.tb, .lp, .rsp, .nts, .clk], p ∈ ps) :
    AnswersWithin ps t (execUnifiedReq t) := by
  simp [execUnifiedReq, h]

theorem execClkReturn_within (h : ∀ p ∈ [.tb, .lp, .rsp, .nts, .clk], p ∈ ps) :
    AnswersWithin ps t (execClkReturn t) := by
  simp [execClkReturn, h]

theorem execClkMuxRescue_within (h : ∀ p ∈ [.glb, .gn, .lp, .rsp, .nts, .pke, .clk], p ∈ ps) (d : Domain) :
    AnswersWithin ps t (execClkMuxRescue d t) := by
  unfold execClkMuxRescue
  split <;> simp [h]

theorem execPwrIdlePark_within (h : .clk ∈ ps) (u' : PwrUnit) (idle : Nat) :
    AnswersWithin ps t (execPwrIdlePark u' idle t) := by
  simp [execPwrIdlePark, h]

theorem execPwrScheduledWake_within (h : ∀ p ∈ [.gn, .clk], p ∈ ps) (u' : PwrUnit) (late : Bool) :
    AnswersWithin ps t (execPwrScheduledWake u' late t) := by
  simp [execPwrScheduledWake, h]

theorem execPwrDemandWake_within (h : ∀ p ∈ [.gn, .clk], p ∈ ps) (u' : PwrUnit) (late : Bool) :
    AnswersWithin ps t (execPwrDemandWake u' late t) := by
  simp [execPwrDemandWake, h]

theorem execPwrLaneWake_within (h : .clk ∈ ps) (lanes : Nat) :
    AnswersWithin ps t (execPwrLaneWake lanes t) := by
  simp [execPwrLaneWake, h]

theorem execPwrLanePark_within (h : .clk ∈ ps) (lanes : Nat) :
    AnswersWithin ps t (execPwrLanePark lanes t) := by
  simp [execPwrLanePark, h]

theorem execMbtRun_within (h : ∀ p ∈ [.pke, .clk], p ∈ ps) (mode : Bool) (alg : BitVec 2) :
    AnswersWithin ps t (execMbtRun mode alg t) := by
  obtain ⟨hpke, hclk⟩ : .pke ∈ ps ∧ .clk ∈ ps := by simpa using h
  unfold execMbtRun
  split <;> simp [setClk, hpke, hclk]

theorem execMbtDone_within (h : ∀ p ∈ [.pke, .clk], p ∈ ps) (failRows : Nat) :
    AnswersWithin ps t (execMbtDone failRows t) := by
  simp [execMbtDone, h]

theorem execTsRegionReport_within (h : .ts ∈ ps) (temps : List Int) (supplies : List Nat) :
    AnswersWithin ps t (execTsRegionReport temps supplies t) := by
  simp [execTsRegionReport, h]

theorem execTsRestored_within (h : .ts ∈ ps) (j : Fin 16) :
    AnswersWithin ps t (execTsRestored j t) := by
  simp [execTsRestored, h]

theorem execTsCalClear_within (h : .ts ∈ ps) :
    AnswersWithin ps t (execTsCalClear t) := by
  simp [execTsCalClear, h]

theorem execTsCalSumRead_within (h : .ts ∈ ps) :
    AnswersWithin ps t (execTsCalSumRead t) := by
  simp [execTsCalSumRead, h]

theorem execTsCalEntryExpire_within (h : .ts ∈ ps) (seq : BitVec 16) :
    AnswersWithin ps t (execTsCalEntryExpire seq t) := by
  unfold execTsCalEntryExpire
  split <;> simp [h]

theorem execGnIfMeasure_within (h : .gn ∈ ps) (b : Fin 2) (hz : Nat) :
    AnswersWithin ps t (execGnIfMeasure b hz t) := by
  simp [execGnIfMeasure, h]

theorem execGnIfClockStop_within (h : .gn ∈ ps) (b : Fin 2) :
    AnswersWithin ps t (execGnIfClockStop b t) := by
  simp [execGnIfClockStop, h]

theorem execGnIfRestored_within (h : .gn ∈ ps) (b : Fin 2) :
    AnswersWithin ps t (execGnIfRestored b t) := by
  simp [execGnIfRestored, h]

theorem execGnFeGo_within (h : .gn ∈ ps) :
    AnswersWithin ps t (execGnFeGo t) := by
  simp [execGnFeGo, h]

theorem execGnFeTransferDone_within (h : .gn ∈ ps) (rx : Bytes) :
    AnswersWithin ps t (execGnFeTransferDone rx t) := by
  simp [execGnFeTransferDone, h]

theorem execGnFeScriptEnd_within (h : .gn ∈ ps) :
    AnswersWithin ps t (execGnFeScriptEnd t) := by
  simp [execGnFeScriptEnd, h]

theorem execGnSearchDone_within (h : .gn ∈ ps) (c : Fin 128) (found : Option Int) :
    AnswersWithin ps t (execGnSearchDone c found t) := by
  unfold execGnSearchDone
  split <;> simp [h]

theorem execGnPullInDone_within (h : .gn ∈ ps) (c : Fin 128) :
    AnswersWithin ps t (execGnPullInDone c t) := by
  simp [execGnPullInDone, h]

theorem execGnChannelIdle_within (h : .gn ∈ ps) (c : Fin 128) :
    AnswersWithin ps t (execGnChannelIdle c t) := by
  simp [execGnChannelIdle, h]

theorem execGnNavUnit_within (c : Fin 128) (bits : List Bool) (starts : List Nat) :
    AnswersWithin ps t (execGnNavUnit c bits starts t) := by
  simp [execGnNavUnit]

theorem execGnKrootReceived_within (h : ∀ p ∈ [.gn, .pke], p ∈ ps) (k : Kroot) :
    AnswersWithin ps t (execGnKrootReceived k t) := by
  simp [execGnKrootReceived, h]

theorem execGnKrootVerified_within (h : ∀ p ∈ [.gn, .pke], p ∈ ps) :
    AnswersWithin ps t (execGnKrootVerified t) := by
  unfold execGnKrootVerified
  split <;> simp [h]

theorem execGnOsnmaReport_within :
    AnswersWithin ps t (execGnOsnmaReport t) := by
  simp [execGnOsnmaReport]

theorem execGnEpoch_within (h : ∀ p ∈ [.gn, .loam, .clk], p ∈ ps) (sol : Solution) :
    AnswersWithin ps t (execGnEpoch sol t) := by
  obtain ⟨hgn, hloam, hclk⟩ : .gn ∈ ps ∧ .loam ∈ ps ∧ .clk ∈ ps := by simpa using h
  unfold execGnEpoch
  split <;> simp [hgn, hloam, hclk]

theorem execGnIstoReport_within :
    AnswersWithin ps t (execGnIstoReport t) := by
  simp [execGnIstoReport]

theorem execGnPpsMessage_within (h : ∀ p ∈ .gn :: selectionParts, p ∈ ps) (m : PpsMeas) :
    AnswersWithin ps t (execGnPpsMessage m t) := by
  simp [execGnPpsMessage, h]

theorem execGnRawPps_within (h : ∀ p ∈ .gn :: selectionParts, p ∈ ps) (sub : Fin 32) :
    AnswersWithin ps t (execGnRawPps sub t) := by
  unfold execGnRawPps
  dsimp only
  repeat' split
  all_goals simp [h]

theorem execGnStartHot_within (h : ∀ p ∈ [.gn, .clk], p ∈ ps) :
    AnswersWithin ps t (execGnStartHot t) := by
  simp [execGnStartHot, h]

theorem execGnStartWarm_within (h : ∀ p ∈ [.gn, .clk], p ∈ ps) :
    AnswersWithin ps t (execGnStartWarm t) := by
  simp [execGnStartWarm, h]

theorem execGnStartCold_within (h : ∀ p ∈ [.gn, .clk], p ∈ ps) :
    AnswersWithin ps t (execGnStartCold t) := by
  simp [execGnStartCold, h]

theorem execGnSleep_within (h : ∀ p ∈ [.glb, .tb, .ref, .dpl, .gn, .rsp, .nts, .loam, .mit], p ∈ ps) :
    AnswersWithin ps t (execGnSleep t) := by
  simp [execGnSleep, h]

theorem execGnWake_within (h : ∀ p ∈ [.gn, .clk], p ∈ ps) :
    AnswersWithin ps t (execGnWake t) := by
  simp [execGnWake, h]

theorem execGnSleepRefresh_within (h : ∀ p ∈ [.gn, .clk], p ∈ ps) :
    AnswersWithin ps t (execGnSleepRefresh t) := by
  simp [execGnSleepRefresh, h]

theorem execGnRefreshDone_within (h : ∀ p ∈ [.glb, .tb, .ref, .dpl, .gn, .rsp, .nts, .loam, .mit], p ∈ ps) :
    AnswersWithin ps t (execGnRefreshDone t) := by
  simp [execGnRefreshDone, h]

theorem execGnRecordCommit_within (h : ∀ p ∈ [.gn, .loam], p ∈ ps) :
    AnswersWithin ps t (execGnRecordCommit t) := by
  simp [execGnRecordCommit, h]

theorem execHistCommitDue_within (h : .loam ∈ ps) :
    AnswersWithin ps t (execHistCommitDue t) := by
  simp [execHistCommitDue, h]

end Sys2Proof.Machine
end

section
/-! SUPPORT. Frames of the register, mirror, reset and scheduler operations. -/

namespace Sys2Proof.Machine

variable {ps qs : List Part} {s t u : State}

/-- All but the queue and the fuses. -/
abbrev resetParts : List Part :=
  [.stat, .statHi, .glb, .tb, .ttOut, .ttIn, .ref, .dpl, .gn, .lp, .mg, .ts, .rsp, .nts, .gnt, .pke, .ent, .loam, .brim,
    .mit, .bcp, .xram, .clk]

/-- What a start may change. -/
abbrev startParts : List Part :=
  [.stat, .glb, .tb, .ttOut, .ref, .dpl, .gn, .lp, .rsp, .nts, .gnt, .ent, .loam, .brim, .mit, .clk]

/-- Where the state before differs within the parts only, the outcome does too. -/
theorem AnswersWithin.of_within {o : Host.Outcome State Fault Refusal} (same : Within ps t u)
    (answers : AnswersWithin ps u o) :
    AnswersWithin ps t o :=
  fun v next => same.trans (answers v next)

@[simp] theorem within_writeParts (r typ id sev parts stamp n : Nat) (b : Bytes) :
    Within ps s (writeParts r typ id sev parts stamp n t b) ↔ Within ps s t := by
  induction n generalizing t b with
  | zero => rfl
  | succ n ih => simp [writeParts, ih, writeEvent, noteRecent, setCoal, setRingDrop]

@[simp] theorem within_writeTogether (r typ id sev parts stamp : Nat) (b : Bytes) :
    Within ps s (writeTogether t r typ id sev parts stamp b) ↔ Within ps s t := by
  simp [writeTogether, tickOrder]

@[simp] theorem within_deliver (typ id sev stamp : Nat) (b : Bytes) :
    Within ps s (deliver t typ id sev stamp b).s ↔ Within ps s t := by
  unfold deliver
  dsimp only
  repeat' split
  all_goals simp [setRingDrop, setCoal, coalesce]


@[simp] theorem within_siltSummary (id : Nat) (x : Silt) :
    Within ps s (siltSummary t id x) ↔ Within ps s t := by
  unfold siltSummary
  simp

@[simp] theorem within_latchPmc (k : Nat) :
    Within ps s (latchPmc t k) ↔ Within ps s t := by
  simp [latchPmc]

@[simp] theorem within_readEffect (h : ∀ p ∈ [.statHi, .ts, .bcp], p ∈ ps) (a : Nat) :
    Within ps s (readEffect t a) ↔ Within ps s t := by
  unfold readEffect
  dsimp only
  repeat' split
  all_goals simp [h]

@[simp] theorem within_setEnt (h : .ent ∈ ps) (e : Ent) :
    Within ps s (setEnt t e) ↔ Within ps s t := by
  simp [setEnt, h]

@[simp] theorem within_startupFail (h : .ent ∈ ps) :
    Within ps s (startupFail t) ↔ Within ps s t := by
  simp [startupFail, h]

@[simp] theorem within_sourceFail (h : .ent ∈ ps) (x : Fin 4) (rct apt : Bool) :
    Within ps s (sourceFail t x rct apt) ↔ Within ps s t := by
  simp [sourceFail, h]

@[simp] theorem within_startSources (h : .ent ∈ ps) (rct apt : BitVec 4) :
    Within ps s (startSources t rct apt) ↔ Within ps s t := by
  simp [startSources, h]

@[simp] theorem within_reseed (h : .ent ∈ ps) :
    Within ps s (reseed t) ↔ Within ps s t := by
  simp [reseed, h]

@[simp] theorem within_clampXon (a : Nat) :
    Within ps s (clampXon t a) ↔ Within ps s t := by
  simp [clampXon]

@[simp] theorem within_gnStop (h : ∀ p ∈ .gn :: selectionParts, p ∈ ps) :
    Within ps s (gnStop t) ↔ Within ps s t := by
  simp [gnStop, h]

@[simp] theorem within_pairIdWritten (h : ∀ p ∈ [.glb, .tb, .ref, .dpl, .lp, .rsp, .nts, .ent, .mit], p ∈ ps) :
    Within ps s (pairIdWritten t) ↔ Within ps s t := by
  simp [pairIdWritten, h]

@[simp] theorem within_clampDeny (a : Nat) :
    Within ps s (clampDeny t a) ↔ Within ps s t := by
  simp [clampDeny]

@[simp] theorem within_afterWrite (h : ∀ p ∈ [.glb, .tb, .ref, .dpl, .gn, .lp, .mg, .rsp, .nts, .ent, .mit, .bcp,
    .clk], p ∈ ps)
    (a : Nat) : Within ps s (afterWrite u t a) ↔ Within ps s t := by
  have set (v : State) (k n : Nat) : Within ps s (setUnit v k n) ↔ Within ps s v := within_setUnit (h _ (by simp)) ..
  unfold afterWrite
  simp [set, h]

@[simp] theorem within_writeTtCtl (h : .ttOut ∈ ps) (a : Nat) (v : Word) :
    Within ps s (writeTtCtl t a v) ↔ Within ps s t := by
  simp [writeTtCtl, h]

@[simp] theorem within_plainWrite (h : .ttOut ∈ ps) (a : Nat) (v : Word) :
    Within ps s (plainWrite t a v) ↔ Within ps s t := by
  unfold plainWrite
  dsimp only
  repeat' split
  all_goals simp [h]

@[simp] theorem within_marchTest (h : .clk ∈ ps) (rows : List (Nat × Nat × Nat)) :
    Within ps s (marchTest t rows) ↔ Within ps s t := by
  simp [marchTest, h]

@[simp] theorem within_takeVote (h : .loam ∈ ps) (e : Nat × Nat) (v : Vote) :
    Within ps s (takeVote t e v) ↔ Within ps s t := by
  unfold takeVote
  split <;> simp [h]

@[simp] theorem within_noteUnreadable (h : .loam ∈ ps) (e : Nat × Nat) :
    Within ps s (noteUnreadable t e) ↔ Within ps s t := by
  simp [noteUnreadable, h]

@[simp] theorem within_voteAll (h : .loam ∈ ps) (blind : List Nat) :
    Within ps s (voteAll t blind) ↔ Within ps s t := by
  simp [voteAll, h]

@[simp] theorem within_markBlind (h : .loam ∈ ps) (blind : List Nat) :
    Within ps s (markBlind t blind) ↔ Within ps s t := by
  simp [markBlind, h]

@[simp] theorem within_queueCommit (h : .loam ∈ ps) (by_ : CommitBy) (cls : Nat) (p : Option Payload) :
    Within ps s (queueCommit t by_ cls p) ↔ Within ps s t := by
  simp [queueCommit, h]

@[simp] theorem within_bootCommit (h : ∀ p ∈ [.stat, .loam], p ∈ ps) (b : Boot) (v : Vote) :
    Within ps s (bootCommit t b v) ↔ Within ps s t := by
  simp [bootCommit, h]

@[simp] theorem within_rollBack (h : .loam ∈ ps) (cause : Nat) :
    Within ps s (rollBack t cause) ↔ Within ps s t := by
  simp [rollBack, h]

@[simp] theorem within_restoreReg (reached : Nat → Bool) (e : Nat × Word) :
    Within ps s (restoreReg reached t e) ↔ Within ps s t := by
  simp [restoreReg]

@[simp] theorem within_restoreRegs (reached : Nat → Bool) :
    Within ps s (restoreRegs reached t) ↔ Within ps s t := by
  refine within_foldl (fun u e => ?_) _
  repeat' split
  all_goals simp

@[simp] theorem within_restoreKeys (h : .nts ∈ ps) (blind : List Nat) :
    Within ps s (restoreKeys t blind) ↔ Within ps s t := by
  simp [restoreKeys, h]

@[simp] theorem within_restorePolicies (h : .gnt ∈ ps) :
    Within ps s (restorePolicies t) ↔ Within ps s t := by
  simp [restorePolicies, h]

@[simp] theorem within_startCredits (h : .gnt ∈ ps) :
    Within ps s (startCredits t) ↔ Within ps s t := by
  simp [startCredits, h]

@[simp] theorem within_restoreModel (h : .dpl ∈ ps) :
    Within ps s (restoreModel t) ↔ Within ps s t := by
  unfold restoreModel
  split <;> simp [h]

@[simp] theorem within_preloadDpll (h : .dpl ∈ ps) (temp : Int) :
    Within ps s (preloadDpll t temp) ↔ Within ps s t := by
  simp [preloadDpll, h]

@[simp] theorem within_startEnt (h : .ent ∈ ps) (env : StartEnv) :
    Within ps s (startEnt t env) ↔ Within ps s t := by
  simp [startEnt, h]

@[simp] theorem within_startPorts (h : ∀ p ∈ [.lp, .clk], p ∈ ps) :
    Within ps s (startPorts t) ↔ Within ps s t :=
  within_foldl (fun _ _ => by simp [h]) _

@[simp] theorem within_startTriggers (h : .ttOut ∈ ps) :
    Within ps s (startTriggers t) ↔ Within ps s t := by
  refine within_foldl (fun u n => ?_) _
  exact within_outcomeState (AnswersWithin.of_within (by simp) (execTtOutEnable_within h _ _))

@[simp] theorem within_startGnss (h : ∀ p ∈ [.gn, .clk], p ∈ ps) :
    Within ps s (startGnss t) ↔ Within ps s t := by
  simp [startGnss, h]

@[simp] theorem within_startBrim (h : ∀ p ∈ [.brim, .clk], p ∈ ps) :
    Within ps s (startBrim t) ↔ Within ps s t := by
  unfold startBrim
  split
  · exact within_outcomeState (execBrimEnable_within h)
  · rfl

@[simp] theorem within_startKept (h : ∀ p ∈ [.tb, .ttOut, .dpl, .gn, .lp, .rsp, .nts, .brim, .clk], p ∈ ps)
    (env : StartEnv) :
    Within ps s (startKept t env) ↔ Within ps s t := by
  have united := within_outcomeState (s := s) (execUnifiedReq_within (ps := ps) (t := t) (by simp [h]))
  obtain ⟨htt, hdpl, hgn, hbrim, hclk⟩ : .ttOut ∈ ps ∧ .dpl ∈ ps ∧ .gn ∈ ps ∧ .brim ∈ ps ∧ .clk ∈ ps := by simp [h]
  unfold startKept
  split <;> simp [united, htt, hdpl, hgn, hbrim, hclk]

@[simp] theorem within_startDone (h : .glb ∈ ps) :
    Within ps s (startDone t) ↔ Within ps s t := by
  simp [startDone, h]

@[simp] theorem within_restoreStep (h : ∀ p ∈ [.glb, .nts, .gnt, .loam], p ∈ ps) (reached : Nat → Bool)
    (env : StartEnv) (b : Boot) :
    Within ps s (restoreStep reached env b t) ↔ Within ps s t := by
  simp [restoreStep, h]

@[simp] theorem within_bootState (h : .loam ∈ ps) (b : Boot) (key : Option Bytes) (pfail : Bool) :
    Within ps s (bootState t b key pfail) ↔ Within ps s t := by
  simp [bootState, h]

@[simp] theorem within_startUp (h : ∀ p ∈ startParts, p ∈ ps) (full rollback : Bool) (reached : Nat → Bool)
    (env : StartEnv) : Within ps s (startUp full rollback reached env t) ↔ Within ps s t := by
  have failed (u : State) (n : Nat) : Within ps s (enterFailed u n) ↔ Within ps s u := within_enterFailed (by simp [h]) n
  have kept (u : State) : Within ps s (startKept u env) ↔ Within ps s u := within_startKept (by simp [h]) env
  have restored (u : State) (b : Boot) : Within ps s (restoreStep reached env b u) ↔ Within ps s u :=
    within_restoreStep (by simp [h]) reached env b
  unfold startUp
  extract_lets g0 c0 s0
  have same0 : Within ps s s0 ↔ Within ps s t := by simp [s0, h]
  clear_value s0
  split
  · rw [failed, same0]
  · extract_lets b s1 g2 s2 s3 s4 tb4 s5 s6
    have same2 : Within ps s s2 ↔ Within ps s t := by simp [s2, s1, h, same0]
    have same3 : Within ps s s3 ↔ Within ps s t := by simp [s3, failed, same2]
    have same6 : Within ps s s6 ↔ Within ps s t := by simp [s6, s5, s4, h, kept, restored, same3]
    clear_value s2 s3 s6
    split
    · rw [failed, same0]
    · split
      · rw [failed, same2]
      · simp [h, same6]

@[simp] theorem within_applyCfg (seg : Nat) (ws : List (Nat × Word)) :
    Within ps s (applyCfg t seg ws) ↔ Within ps s t := by
  simp [applyCfg]

@[simp] theorem within_mirroredPort (h : ∀ p ∈ .lp :: .clk :: selectionParts, p ∈ ps) (before : State) (j : Nat) :
    Within ps s (mirroredPort before t j) ↔ Within ps s t := by
  simp [mirroredPort, h]

@[simp] theorem within_mirroredPolicy (h : .gnt ∈ ps) (before : State) (k : Nat) :
    Within ps s (mirroredPolicy before t k) ↔ Within ps s t := by
  simp [mirroredPolicy, h]

@[simp] theorem within_mirroredTrigger (h : .ttOut ∈ ps) (before : State) (a : Nat) :
    Within ps s (mirroredTrigger before t a) ↔ Within ps s t := by
  unfold mirroredTrigger
  split
  · split
    · exact within_outcomeState (AnswersWithin.of_within (by simp) (execTtOutEnable_within h _ _))
    · simp [h]
  · rfl

@[simp] theorem within_mirrorEffect (h : ∀ p ∈ [.glb, .tb, .ttOut, .ref, .dpl, .gn, .lp, .mg, .rsp, .nts, .gnt, .ent,
    .mit, .bcp, .clk], p ∈ ps)
    (before : State) (a : Nat) : Within ps s (mirrorEffect before t a) ↔ Within ps s t := by
  have united := within_outcomeState (s := s) (execUnifiedReq_within (ps := ps) (t := t) (by simp [h]))
  have held (v : State) : Within ps s (holdsChange v) ↔ Within ps s v := within_holdsChange (by simp [h])
  have written : Within ps s (afterWrite before t a) ↔ Within ps s t := within_afterWrite (by simp [h]) a
  have credited (k n : Nat) : Within ps s (setCredit t k n) ↔ Within ps s t := within_setCredit (by simp [h]) ..
  have hgnt : .gnt ∈ ps := by simp [h]
  have htt : .ttOut ∈ ps := by simp [h]
  unfold mirrorEffect
  split
  · simp [h]
  · simp [h]
  · simp [hgnt]
  · simp [htt, credited, united, held, written]

@[simp] theorem within_takeMirroredCfg (h : ∀ p ∈ [.glb, .tb, .ttOut, .ref, .dpl, .gn, .lp, .mg, .rsp, .nts, .gnt,
    .ent, .mit, .bcp, .clk], p ∈ ps) (seg : Nat) (ws : List (Nat × Word)) :
    Within ps s (takeMirroredCfg t seg ws) ↔ Within ps s t := by
  have effect (u : State) (a : Nat) : Within ps s (mirrorEffect t u a) ↔ Within ps s u := within_mirrorEffect h t a
  simp [takeMirroredCfg, effect]

@[simp] theorem within_dropRegs (h : ∀ p ∈ [.stat, .statHi], p ∈ ps) (p : Nat → Bool) :
    Within ps s (dropRegs t p) ↔ Within ps s t := by
  simp [dropRegs, h]

@[simp] theorem within_fusedCold (h : .gnt ∈ ps) :
    Within ps s (fusedCold t) ↔ Within ps s t := by
  simp [fusedCold, h]

@[simp] theorem within_coldAll (h : ∀ p ∈ resetParts, p ∈ ps) (p : Nat → Bool) :
    Within ps s (coldAll t p) ↔ Within ps s t := by
  refine within_iff fun q hq => ?_
  cases q <;> first
    | rfl
    | exact absurd (h _ (by simp)) hq

@[simp] theorem within_dropSynce (h : ∀ p ∈ selectionParts, p ∈ ps) :
    Within ps s (dropSynce t) ↔ Within ps s t := by
  simp [dropSynce, h]

@[simp] theorem within_coldWarm (h : ∀ p ∈ resetParts, p ∈ ps) :
    Within ps s (coldWarm t) ↔ Within ps s t := by
  simp [coldWarm, h]

@[simp] theorem within_cutCommit (h : .loam ∈ ps) :
    Within ps s (cutCommit t) ↔ Within ps s t := by
  unfold cutCommit
  split <;> simp [h]

@[simp] theorem within_causeBit (i : Nat) :
    Within ps s (causeBit t i) ↔ Within ps s t := by
  simp [causeBit]

@[simp] theorem within_actChip (h : ∀ p ∈ resetParts, p ∈ ps) (env : StartEnv) :
    Within ps s (actChip env t) ↔ Within ps s t := by
  simp [actChip, h]

@[simp] theorem within_actWarm (h : ∀ p ∈ resetParts, p ∈ ps) (esc rollback : Bool) (env : StartEnv) :
    Within ps s (actWarm esc rollback env t) ↔ Within ps s t := by
  simp [actWarm, h]

@[simp] theorem within_requestWarm (h : ∀ p ∈ resetParts, p ∈ ps) (esc rollback : Bool) (env : StartEnv) :
    Within ps s (requestWarm esc rollback env t) ↔ Within ps s t := by
  simp [requestWarm, h]

@[simp] theorem within_ctrlRestart (h : ∀ p ∈ resetParts, p ∈ ps) (env : StartEnv) :
    Within ps s (ctrlRestart env t) ↔ Within ps s t := by
  simp [ctrlRestart, h]

@[simp] theorem within_dropBackup :
    Within ps s (dropBackup t) ↔ Within ps s t := by
  simp [dropBackup]

@[simp] theorem within_keepAliveLost (h : .loam ∈ ps) :
    Within ps s (keepAliveLost t) ↔ Within ps s t := by
  simp [keepAliveLost, h]

@[simp] theorem within_nextSeq (h : .rsp ∈ ps) (k : Nat) :
    Within ps s (nextSeq t k) ↔ Within ps s t := by
  simp [nextSeq, h]

@[simp] theorem within_sendSync (h : ∀ p ∈ [.lp, .rsp], p ∈ ps) (j p stream : Nat) (d : PtpDst) (uni : Bool) :
    Within ps s (sendSync t j p stream d uni) ↔ Within ps s t := by
  unfold sendSync
  dsimp only
  repeat' split
  all_goals simp [h]

@[simp] theorem within_sendAnnounce (h : ∀ p ∈ [.lp, .rsp], p ∈ ps) (j p stream : Nat) (d : PtpDst) (uni : Bool) :
    Within ps s (sendAnnounce t j p stream d uni) ↔ Within ps s t := by
  simp [sendAnnounce, h]

@[simp] theorem within_sendBroadcast (h : .lp ∈ ps) (p j : Nat) (src : Bytes) :
    Within ps s (sendBroadcast t p j src) ↔ Within ps s t := by
  unfold sendBroadcast
  dsimp only
  repeat' split
  all_goals simp [h]

end Sys2Proof.Machine
end

section
/-! SUPPORT. Frames of the register, mirror, reset and scheduler commands. -/

namespace Sys2Proof.Machine

variable {ps qs : List Part} {s t u : State}


theorem execSiltWindowEnd_within (i : Fin 384) :
    AnswersWithin ps t (execSiltWindowEnd i t) := by
  simp [execSiltWindowEnd]

theorem execEvtAlarmAck_within (value : Word) :
    AnswersWithin ps t (execEvtAlarmAck value t) := by
  simp [execEvtAlarmAck]

theorem execDropCounterClear_within (addr : Nat) :
    AnswersWithin ps t (execDropCounterClear addr t) := by
  simp [execDropCounterClear]

theorem execStatCounterRead_within (h : ∀ p ∈ [.statHi, .ts, .bcp], p ∈ ps) (bar : Bar) (addr : Nat) :
    AnswersWithin ps t (execStatCounterRead bar addr t) := by
  unfold execStatCounterRead
  split <;> simp [h]

theorem execPmcClear_within (k : Fin 64) :
    AnswersWithin ps t (execPmcClear k t) := by
  simp [execPmcClear]

theorem execClearAll_within :
    AnswersWithin ps t (execClearAll t) := by
  simp [execClearAll]

theorem execFreeze_within (on : Bool) :
    AnswersWithin ps t (execFreeze on t) := by
  simp [execFreeze]

theorem execPmcCtlWrite_within (k : Fin 64) (value : Word) :
    AnswersWithin ps t (execPmcCtlWrite k value t) := by
  simp [execPmcCtlWrite]

theorem execPmcLoRead_within (k : Fin 64) :
    AnswersWithin ps t (execPmcLoRead k t) := by
  simp [execPmcLoRead]

theorem execPmcWrap_within (k : Fin 64) (n : Nat) :
    AnswersWithin ps t (execPmcWrap k n t) := by
  simp [execPmcWrap, pmcAdd]

theorem execEsmcPduSend_within (h : .lp ∈ ps) :
    AnswersWithin ps t (execEsmcPduSend t) := by
  simp [execEsmcPduSend, h]

theorem execEntReady_within (h : ∀ p ∈ [.glb, .rsp, .nts, .ent], p ∈ ps) :
    AnswersWithin ps t (execEntReady t) := by
  simp [execEntReady, h]

theorem execEntSourceFail_within (h : .ent ∈ ps) (x : Fin 4) (rct apt : Bool) :
    AnswersWithin ps t (execEntSourceFail x rct apt t) := by
  simp [execEntSourceFail, h]

theorem execEntSourceRecover_within (h : .ent ∈ ps) (x : Fin 4) :
    AnswersWithin ps t (execEntSourceRecover x t) := by
  simp [execEntSourceRecover, h]

theorem execEntReseedDue_within (h : .ent ∈ ps) :
    AnswersWithin ps t (execEntReseedDue t) := by
  simp [execEntReseedDue, h]

theorem execReseedNow_within (h : .ent ∈ ps) :
    AnswersWithin ps t (execReseedNow t) := by
  simp [execReseedNow, h]

theorem execEntReseedDone_within (h : ∀ p ∈ [.stat, .rsp, .nts, .ent], p ∈ ps) :
    AnswersWithin ps t (execEntReseedDone t) := by
  simp [execEntReseedDone, h]

theorem execEntBlocked_within (h : ∀ p ∈ [.pke, .ent], p ∈ ps) :
    AnswersWithin ps t (execEntBlocked t) := by
  simp [execEntBlocked, h]

theorem execRegisterWrite_within (h : ∀ p ∈ [.glb, .tb, .ttOut, .ref, .dpl, .gn, .lp, .mg, .rsp, .nts, .ent, .mit,
    .bcp, .clk], p ∈ ps)
    (bar : Bar) (addr : Nat) (value : Word) : AnswersWithin ps t (execRegisterWrite bar addr value t) := by
  cases bar with
  | bar2 =>
    have prod (r : Fin 256) := execHifProdWrite_within (ps := ps) (t := t) (by simp [h]) r value
    have cons (r : Fin 256) := execHifConsWrite_within (ps := ps) (t := t) (by simp [h]) r value
    unfold execRegisterWrite bar2Write
    dsimp only
    repeat' split
    all_goals simp [prod, cons]
  | bar0 =>
    have written (u v : State) (a : Nat) : Within ps t (afterWrite u v a) ↔ Within ps t v := within_afterWrite
      (by simp [h]) a
    have htt : .ttOut ∈ ps := by simp [h]
    simp [execRegisterWrite, written, htt]

theorem execBar0BadAccess_within (bar : Bar) (write : Bool) :
    AnswersWithin ps t (execBar0BadAccess bar write t) := by
  simp [execBar0BadAccess]

theorem execMitMirrorReceive_within (h : ∀ p ∈ [.glb, .tb, .ttOut, .ref, .dpl, .gn, .lp, .mg, .rsp, .nts, .gnt, .ent,
    .loam, .mit, .bcp, .clk], p ∈ ps) (rec : MirrorRec) (serial : Nat) (tag : Bytes) :
    AnswersWithin ps t (execMitMirrorReceive rec serial tag t) := by
  simp [execMitMirrorReceive, h]

theorem execPor_within (h : ∀ p ∈ resetParts, p ∈ ps) (env : StartEnv) :
    AnswersWithin ps t (execPor env t) := by
  have cold (u : State) (p : Nat → Bool) : Within ps t (coldAll u p) ↔ Within ps t u := within_coldAll h p
  have started (u : State) : Within ps t (startUp true false (fun _ => true) env u) ↔ Within ps t u :=
    within_startUp (by simp [h]) ..
  have hglb : .glb ∈ ps := by simp [h]
  have hloam : .loam ∈ ps := by simp [h]
  simp [execPor, cold, started, hglb, hloam]

theorem execResetPin_within (h : ∀ p ∈ resetParts, p ∈ ps) :
    AnswersWithin ps t (execResetPin t) := by
  have cold (u : State) (p : Nat → Bool) : Within ps t (coldAll u p) ↔ Within ps t u := within_coldAll h p
  have hglb : .glb ∈ ps := by simp [h]
  have hloam : .loam ∈ ps := by simp [h]
  simp [execResetPin, cold, hglb, hloam]

theorem execResetNRelease_within (h : ∀ p ∈ startParts, p ∈ ps) (env : StartEnv) :
    AnswersWithin ps t (execResetNRelease env t) := by
  have started (u : State) : Within ps t (startUp true false (fun _ => true) env u) ↔ Within ps t u :=
    within_startUp (by simp [h]) ..
  have hglb : .glb ∈ ps := by simp [h]
  unfold execResetNRelease
  split <;> simp [started, hglb]

theorem execChip_within (h : ∀ p ∈ resetParts, p ∈ ps) (env : StartEnv) :
    AnswersWithin ps t (execChip env t) := by
  have acted (u : State) : Within ps t (actChip env u) ↔ Within ps t u := within_actChip h env
  have hglb : .glb ∈ ps := by simp [h]
  unfold execChip
  split <;> simp [acted, hglb]

theorem execWarm_within (h : ∀ p ∈ resetParts, p ∈ ps) (env : StartEnv) :
    AnswersWithin ps t (execWarm env t) := by
  have asked (u : State) : Within ps t (requestWarm false false env u) ↔ Within ps t u := within_requestWarm h ..
  simp [execWarm, asked]

theorem execDeferredResetAct_within (h : ∀ p ∈ resetParts, p ∈ ps) (env : StartEnv) :
    AnswersWithin ps t (execDeferredResetAct env t) := by
  unfold execDeferredResetAct
  split
  · simp
  · split
    · simp
    · exact answersWithin_next.2 ((within_actChip h env).2 .refl)
    · exact answersWithin_next.2 ((within_actWarm h _ _ env).2 .refl)

theorem execFwRollback_within (h : ∀ p ∈ resetParts, p ∈ ps) (r : Fin 256) (env : StartEnv) :
    AnswersWithin ps t (execFwRollback r env t) := by
  have hloam : .loam ∈ ps := by simp [h]
  refine answersWithin_next.2 ((within_loamCommand _ fun x => ?_).2 .refl)
  split
  · rw [within_requestWarm h]
    simp [hloam]
  · simp

theorem execCtrl_within (h : ∀ p ∈ resetParts, p ∈ ps) (env : StartEnv) :
    AnswersWithin ps t (execCtrl env t) := by
  have restarted (u : State) : Within ps t (ctrlRestart env u) ↔ Within ps t u := within_ctrlRestart h env
  simp [execCtrl, restarted]

theorem execCtrlWatchdog_within (h : ∀ p ∈ resetParts, p ∈ ps) (env : StartEnv) :
    AnswersWithin ps t (execCtrlWatchdog env t) := by
  have restarted (u : State) : Within ps t (ctrlRestart env u) ↔ Within ps t u := within_ctrlRestart h env
  simp [execCtrlWatchdog, restarted]

theorem execPke_within (h : ∀ p ∈ [.stat, .statHi, .pke], p ∈ ps) :
    AnswersWithin ps t (execPke t) := by
  simp [execPke, h]

theorem execPerst_within (h : ∀ p ∈ [.stat, .statHi, .lp, .mg, .pke, .loam], p ∈ ps) :
    AnswersWithin ps t (execPerst t) := by
  simp [execPerst, h]

theorem execSupplyLoss_within (h : ∀ p ∈ resetParts, p ∈ ps) :
    AnswersWithin ps t (execSupplyLoss t) := by
  have cold (u : State) (p : Nat → Bool) : Within ps t (coldAll u p) ↔ Within ps t u := within_coldAll h p
  have hglb : .glb ∈ ps := by simp [h]
  have hloam : .loam ∈ ps := by simp [h]
  simp [execSupplyLoss, cold, hglb, hloam]

theorem execVbatLoss_within (h : .loam ∈ ps) :
    AnswersWithin ps t (execVbatLoss t) := by
  simp [execVbatLoss, h]

theorem execVbatLow_within (h : .loam ∈ ps) (low : Bool) :
    AnswersWithin ps t (execVbatLow low t) := by
  simp [execVbatLow, h]

theorem execPtpSyncSlot_within (h : ∀ p ∈ [.lp, .rsp], p ∈ ps) (p : Fin 64) (j : Fin 16) :
    AnswersWithin ps t (execPtpSyncSlot p j t) := by
  simp [execPtpSyncSlot, h]

theorem execPtpAnnounceSlot_within (h : ∀ p ∈ [.lp, .rsp], p ∈ ps) (p : Fin 64) (j : Fin 16) :
    AnswersWithin ps t (execPtpAnnounceSlot p j t) := by
  simp [execPtpAnnounceSlot, h]

theorem execPtpFollowUp_within (h : ∀ p ∈ [.lp, .rsp], p ∈ ps) (j : Fin 16) :
    AnswersWithin ps t (execPtpFollowUp j t) := by
  unfold execPtpFollowUp
  split <;> simp [h]

theorem execGrantSlot_within (h : ∀ p ∈ [.lp, .rsp], p ∈ ps) (g : Fin 4096) :
    AnswersWithin ps t (execGrantSlot g t) := by
  simp [execGrantSlot, h]

theorem execGrantExpired_within (h : .rsp ∈ ps) (g : Fin 4096) :
    AnswersWithin ps t (execGrantExpired g t) := by
  simp [execGrantExpired, h]

theorem execNtpBroadcastSlot_within (h : .lp ∈ ps) (p : Fin 64) :
    AnswersWithin ps t (execNtpBroadcastSlot p t) := by
  unfold execNtpBroadcastSlot
  dsimp only
  repeat' split
  all_goals simp [h]

end Sys2Proof.Machine
end

section
/-! SUPPORT. Every command stays within the parts of its family (O56), and so keeps the fused values and the queue (O4). -/

namespace Sys2Proof.Machine

variable {ps : List Part} {s t : State}

/-- The parts that the commands of a family may change. -/
def Family.parts : Family → List Part
  | .timebase => [.stat, .glb, .tb, .ttOut, .ref, .dpl, .lp, .mg, .rsp, .nts, .loam, .mit]
  | .trigger => [.ttOut, .ttIn]
  | .reference => [.glb, .tb, .ref, .dpl, .gn, .rsp, .nts, .mit]
  | .kaolin => [.glb, .tb, .ref, .dpl, .rsp, .nts, .loam, .mit]
  | .gnss => [.glb, .tb, .ref, .dpl, .gn, .rsp, .nts, .pke, .loam, .mit, .clk]
  | .linePort => [.stat, .glb, .tb, .ref, .dpl, .lp, .ts, .rsp, .nts, .gnt, .mit, .clk]
  | .management => [.stat, .mg, .bcp]
  | .timestamp => [.ts]
  | .scheduler => [.lp, .rsp]
  | .responder => [.lp, .rsp, .nts, .gnt, .ent, .clk]
  | .gauntlet => [.gnt, .ent]
  | .nts => [.stat, .rsp, .nts, .ent, .loam, .mit]
  | .ring => [.stat, .lp, .mg, .pke, .loam, .brim]
  | .pke => [.stat, .gn, .pke, .ent, .clk]
  | .entropy => [.stat, .glb, .rsp, .nts, .pke, .ent]
  | .loam => [.stat, .lp, .rsp, .nts, .loam, .mit]
  | .brim => [.glb, .tb, .ref, .dpl, .rsp, .nts, .brim, .mit, .clk]
  | .mitten => [.glb, .tb, .ref, .dpl, .lp, .rsp, .nts, .ent, .loam, .mit, .clk]
  | .board => [.brim, .bcp]
  | .clock => [.glb, .tb, .ref, .gn, .lp, .rsp, .nts, .pke, .mit, .clk]
  | .counter => [.statHi, .ts, .bcp]
  | .register => [.glb, .tb, .ttOut, .ref, .dpl, .gn, .lp, .mg, .rsp, .nts, .ent, .mit, .bcp, .clk]
  | .mirror => [.glb, .tb, .ttOut, .ref, .dpl, .gn, .lp, .mg, .rsp, .nts, .gnt, .ent, .loam, .mit, .bcp, .clk]
  | .message => [.brim]
  | .reset => resetParts

/-- The parts that a command may change: those of its family, and the exchange RAM where it writes that. -/
def commandParts : Instr → List Part
  | .xramAccess .. | .spiWrite .. | .i2ctWrite .. => [.bcp, .xram]
  | c => (familyOf c).parts

/-- Every command stays within its parts. -/
theorem exec_within (c : Instr) (s : State) : AnswersWithin (commandParts c) s (exec c s) :=
  match c with
  | .registerWrite bar addr value => execRegisterWrite_within (ps := Family.parts .register) (by decide) bar addr value
  | .bar0BadAccess bar write => execBar0BadAccess_within (ps := Family.parts .register) bar write
  | .frameReceived j frame ago hostOk => execFrameReceived_within (ps := Family.parts .linePort) (by decide) j frame
    ago hostOk
  | .laneAccept lane => execLaneAccept_within (ps := Family.parts .responder) (by decide) lane
  | .laneReplyDone lane => execLaneReplyDone_within (ps := Family.parts .responder) (by decide) lane
  | .lpTxStart j => execLpTxStart_within (ps := Family.parts .linePort) (by decide) j
  | .lpTxEnd j => execLpTxEnd_within (ps := Family.parts .linePort) (by decide) j
  | .launchInstant j => execLaunchInstant_within (ps := Family.parts .linePort) (by decide) j
  | .taiSecondBoundary => execTaiSecondBoundary_within (ps := Family.parts .timebase) (by decide)
  | .ppsOutFall => execPpsOutFall_within (ps := Family.parts .timebase) (by decide)
  | .servoUpdate => execServoUpdate_within (ps := Family.parts .timebase) (by decide)
  | .tbDcoLoWrite value => execTbDcoLoWrite_within (ps := Family.parts .timebase) (by decide) value
  | .tbDcoHiWrite value => execTbDcoHiWrite_within (ps := Family.parts .timebase) (by decide) value
  | .setTime alsoStepNow => execSetTime_within (ps := Family.parts .timebase) (by decide) alsoStepNow
  | .stepNow alsoSetTime => execStepNow_within (ps := Family.parts .timebase) (by decide) alsoSetTime
  | .restep => execRestep_within (ps := Family.parts .timebase) (by decide)
  | .forceInvalid hold => execForceInvalid_within (ps := Family.parts .timebase) (by decide) hold
  | .tbNowRead => execTbNowRead_within (ps := Family.parts .timebase) (by decide)
  | .leapApply => execLeapApply_within (ps := Family.parts .timebase) (by decide)
  | .tbLeapExpired => execTbLeapExpired_within (ps := Family.parts .timebase) (by decide)
  | .ttOutEnable n ctl => execTtOutEnable_within (ps := Family.parts .trigger) (by decide) n ctl
  | .ttOutStagedWrite n w value => execTtOutStagedWrite_within (ps := Family.parts .trigger) (by decide) n w value
  | .ttOutUpdate n => execTtOutUpdate_within (ps := Family.parts .trigger) (by decide) n
  | .ttPulseFire n => execTtPulseFire_within (ps := Family.parts .trigger) (by decide) n
  | .ttPulseEnd n => execTtPulseEnd_within (ps := Family.parts .trigger) (by decide) n
  | .ttCapture m rising sub => execTtCapture_within (ps := Family.parts .trigger) (by decide) m rising sub
  | .refFreqGate i ppb => execRefFreqGate_within (ps := Family.parts .reference) (by decide) i ppb
  | .ppsEdge input sub => execPpsEdge_within (ps := Family.parts .reference) (by decide) input sub
  | .missingSecond i => execMissingSecond_within (ps := Family.parts .reference) (by decide) i
  | .refPairCompare => execRefPairCompare_within (ps := Family.parts .reference) (by decide)
  | .lorternoMessage input msg => execLorternoMessage_within (ps := Family.parts .reference) (by decide) input msg
  | .lorternoByteGap input => execLorternoByteGap_within (ps := Family.parts .reference) (by decide) input
  | .lorternoWindowTimeout input => execLorternoWindowTimeout_within (ps := Family.parts .reference) (by decide) input
  | .refEsmcTimeout k => execRefEsmcTimeout_within (ps := Family.parts .reference) (by decide) k
  | .rspPtpAnnTimeout => execRspPtpAnnTimeout_within (ps := Family.parts .reference) (by decide)
  | .refEvaluate freqs => execRefEvaluate_within (ps := Family.parts .reference) (by decide) freqs
  | .dpllAcquireLock d => execDpllAcquireLock_within (ps := Family.parts .kaolin) (by decide) d
  | .dpllNarrowDone d => execDpllNarrowDone_within (ps := Family.parts .kaolin) (by decide) d
  | .dplLockloss d => execDplLockloss_within (ps := Family.parts .kaolin) (by decide) d
  | .holdoverSteer temp => execHoldoverSteer_within (ps := Family.parts .kaolin) (by decide) temp
  | .hoErrUpdate temp => execHoErrUpdate_within (ps := Family.parts .kaolin) (by decide) temp
  | .histSample freq temp => execHistSample_within (ps := Family.parts .kaolin) (by decide) freq temp
  | .histCommitDue => execHistCommitDue_within (ps := Family.parts .kaolin) (by decide)
  | .gnIfMeasure b hz => execGnIfMeasure_within (ps := Family.parts .gnss) (by decide) b hz
  | .gnIfClockStop b => execGnIfClockStop_within (ps := Family.parts .gnss) (by decide) b
  | .gnIfRestored b => execGnIfRestored_within (ps := Family.parts .gnss) (by decide) b
  | .gnFeGo => execGnFeGo_within (ps := Family.parts .gnss) (by decide)
  | .gnFeTransferDone rx => execGnFeTransferDone_within (ps := Family.parts .gnss) (by decide) rx
  | .gnFeScriptEnd => execGnFeScriptEnd_within (ps := Family.parts .gnss) (by decide)
  | .gnSearchDone c found => execGnSearchDone_within (ps := Family.parts .gnss) (by decide) c found
  | .gnChannelIdle c => execGnChannelIdle_within (ps := Family.parts .gnss) (by decide) c
  | .gnNavUnit c bits starts => execGnNavUnit_within (ps := Family.parts .gnss) c bits starts
  | .gnEpoch sol => execGnEpoch_within (ps := Family.parts .gnss) (by decide) sol
  | .gnIstoReport => execGnIstoReport_within (ps := Family.parts .gnss)
  | .gnPpsMessage m => execGnPpsMessage_within (ps := Family.parts .gnss) (by decide) m
  | .gnRawPps sub => execGnRawPps_within (ps := Family.parts .gnss) (by decide) sub
  | .gnKrootReceived k => execGnKrootReceived_within (ps := Family.parts .gnss) (by decide) k
  | .gnKrootVerified => execGnKrootVerified_within (ps := Family.parts .gnss) (by decide)
  | .gnOsnmaReport => execGnOsnmaReport_within (ps := Family.parts .gnss)
  | .gnStartHot => execGnStartHot_within (ps := Family.parts .gnss) (by decide)
  | .gnStartWarm => execGnStartWarm_within (ps := Family.parts .gnss) (by decide)
  | .gnStartCold => execGnStartCold_within (ps := Family.parts .gnss) (by decide)
  | .gnSleep => execGnSleep_within (ps := Family.parts .gnss) (by decide)
  | .gnWake => execGnWake_within (ps := Family.parts .gnss) (by decide)
  | .gnSleepRefresh => execGnSleepRefresh_within (ps := Family.parts .gnss) (by decide)
  | .gnRefreshDone => execGnRefreshDone_within (ps := Family.parts .gnss) (by decide)
  | .gnRecordCommit => execGnRecordCommit_within (ps := Family.parts .gnss) (by decide)
  | .lpLinkUp j sgmii => execLpLinkUp_within (ps := Family.parts .linePort) (by decide) j sgmii
  | .lpLinkDown j remoteFault => execLpLinkDown_within (ps := Family.parts .linePort) (by decide) j remoteFault
  | .lpFecTryTimeout j => execLpFecTryTimeout_within (ps := Family.parts .linePort) (by decide) j
  | .lpFecResolved j fec => execLpFecResolved_within (ps := Family.parts .linePort) (by decide) j fec
  | .lpModeWrite n value => execLpModeWrite_within (ps := Family.parts .linePort) (by decide) n value
  | .lpSpeedFecWrite j value => execLpSpeedFecWrite_within (ps := Family.parts .linePort) (by decide) j value
  | .lpPortDisable j => execLpPortDisable_within (ps := Family.parts .linePort) (by decide) j
  | .lpPortEnable j => execLpPortEnable_within (ps := Family.parts .linePort) (by decide) j
  | .lpFecUncorr j => execLpFecUncorr_within (ps := Family.parts .linePort) j
  | .pauseExpired j sc => execPauseExpired_within (ps := Family.parts .linePort) (by decide) j sc
  | .lpPauseStorm j sc => execLpPauseStorm_within (ps := Family.parts .linePort) (by decide) j sc
  | .lpPauseResume j sc => execLpPauseResume_within (ps := Family.parts .linePort) (by decide) j sc
  | .pfcRepeat j c => execPfcRepeat_within (ps := Family.parts .linePort) (by decide) j c
  | .lpHoldExpired j => execLpHoldExpired_within (ps := Family.parts .linePort) (by decide) j
  | .mgFrameReceived frame hostOk => execMgFrameReceived_within (ps := Family.parts .management) (by decide) frame hostOk
  | .mgWakeStatusWrite value => execMgWakeStatusWrite_within (ps := Family.parts .management) value
  | .mgLink up speed => execMgLink_within (ps := Family.parts .management) (by decide) up speed
  | .mgPauseStorm => execMgPauseStorm_within (ps := Family.parts .management) (by decide)
  | .mgTrafficInterval bits i2cOk => execMgTrafficInterval_within (ps := Family.parts .management) (by decide) bits i2cOk
  | .tsRegionReport temps supplies => execTsRegionReport_within (ps := Family.parts .timestamp) (by decide) temps supplies
  | .tsRestored j => execTsRestored_within (ps := Family.parts .timestamp) (by decide) j
  | .tsCalClear => execTsCalClear_within (ps := Family.parts .timestamp) (by decide)
  | .tsCalSumRead => execTsCalSumRead_within (ps := Family.parts .timestamp) (by decide)
  | .tsCalEntryExpire seq => execTsCalEntryExpire_within (ps := Family.parts .timestamp) (by decide) seq
  | .rspRuleStage r mask value => execRspRuleStage_within (ps := Family.parts .responder) (by decide) r mask value
  | .rspRuleApply r value => execRspRuleApply_within (ps := Family.parts .responder) (by decide) r value
  | .rspProfileStage p w value => execRspProfileStage_within (ps := Family.parts .responder) (by decide) p w value
  | .rspProfileApply p value => execRspProfileApply_within (ps := Family.parts .responder) (by decide) p value
  | .ntpBroadcastSlot p => execNtpBroadcastSlot_within (ps := Family.parts .scheduler) (by decide) p
  | .ptpSyncSlot p j => execPtpSyncSlot_within (ps := Family.parts .scheduler) (by decide) p j
  | .ptpAnnounceSlot p j => execPtpAnnounceSlot_within (ps := Family.parts .scheduler) (by decide) p j
  | .ptpFollowUp j => execPtpFollowUp_within (ps := Family.parts .scheduler) (by decide) j
  | .pdelayRespFollowUp j => execPdelayRespFollowUp_within (ps := Family.parts .responder) (by decide) j
  | .grantSlot g => execGrantSlot_within (ps := Family.parts .scheduler) (by decide) g
  | .grantExpired g => execGrantExpired_within (ps := Family.parts .scheduler) (by decide) g
  | .ptpDelayReqSlot => execPtpDelayReqSlot_within (ps := Family.parts .scheduler) (by decide)
  | .rspLaneFault lane => execRspLaneFault_within (ps := Family.parts .responder) (by decide) lane
  | .rspLaneRetest lanes => execRspLaneRetest_within (ps := Family.parts .responder) (by decide) lanes
  | .rspLaneTestDone lane pass => execRspLaneTestDone_within (ps := Family.parts .responder) (by decide) lane pass
  | .ntsRotationDue => execNtsRotationDue_within (ps := Family.parts .nts) (by decide)
  | .ntsKeyDrawn => execNtsKeyDrawn_within (ps := Family.parts .nts) (by decide)
  | .ntsKeysCommitted ok => execNtsKeysCommitted_within (ps := Family.parts .nts) (by decide) ok
  | .ntsMirrorWaitExpired => execNtsMirrorWaitExpired_within (ps := Family.parts .nts) (by decide)
  | .ntsRotationRetry => execNtsRotationRetry_within (ps := Family.parts .nts) (by decide)
  | .rotateNow => execRotateNow_within (ps := Family.parts .nts) (by decide)
  | .authNew => execAuthNew_within (ps := Family.parts .nts) (by decide)
  | .acceptPrev => execAcceptPrev_within (ps := Family.parts .nts) (by decide)
  | .restorePeer rec => execRestorePeer_within (ps := Family.parts .nts) (by decide) rec
  | .ntsKeyCmdInvalid code => execNtsKeyCmdInvalid_within (ps := Family.parts .nts) (by decide) code
  | .mint r buf writeOk => execMint_within (ps := Family.parts .nts) (by decide) r buf writeOk
  | .gntRekey => execGntRekey_within (ps := Family.parts .gauntlet) (by decide)
  | .gntKeyDrawn => execGntKeyDrawn_within (ps := Family.parts .gauntlet) (by decide)
  | .gntSweep => execGntSweep_within (ps := Family.parts .gauntlet) (by decide)
  | .gntPolicyWrite k value => execGntPolicyWrite_within (ps := Family.parts .gauntlet) (by decide) k value
  | .gntAmpCfgWrite j value => execGntAmpCfgWrite_within (ps := Family.parts .gauntlet) (by decide) j value
  | .gntSampleSecond => execGntSampleSecond_within (ps := Family.parts .gauntlet) (by decide)
  | .hifProdWrite r value => execHifProdWrite_within (ps := Family.parts .ring) (by decide) r value
  | .hifConsWrite r value => execHifConsWrite_within (ps := Family.parts .ring) (by decide) r value
  | .hifDescFetch r desc data => execHifDescFetch_within (ps := Family.parts .ring) (by decide) r desc data
  | .hifRingEnable r cfg => execHifRingEnable_within (ps := Family.parts .ring) (by decide) r cfg
  | .hifRingDisable r => execHifRingDisable_within (ps := Family.parts .ring) (by decide) r
  | .hifRingStopped r => execHifRingStopped_within (ps := Family.parts .ring) r
  | .hifDmaFail r onFetch => execHifDmaFail_within (ps := Family.parts .ring) (by decide) r onFetch
  | .msixTimer v => execMsixTimer_within (ps := Family.parts .ring) v
  | .msixUnmask v => execMsixUnmask_within (ps := Family.parts .ring) v
  | .hifFlr => execHifFlr_within (ps := Family.parts .ring) (by decide)
  | .hifPcieLinkDown => execHifPcieLinkDown_within (ps := Family.parts .ring) (by decide)
  | .hifPcieLink speed width ctl => execHifPcieLink_within (ps := Family.parts .ring) speed width ctl
  | .modAdd core => execModAdd_within (ps := Family.parts .pke) (by decide) core
  | .modSub core => execModSub_within (ps := Family.parts .pke) (by decide) core
  | .modMul core => execModMul_within (ps := Family.parts .pke) (by decide) core
  | .modInv core => execModInv_within (ps := Family.parts .pke) (by decide) core
  | .modExp core => execModExp_within (ps := Family.parts .pke) (by decide) core
  | .ecdsaSign core => execEcdsaSign_within (ps := Family.parts .pke) (by decide) core
  | .ecdsaVerify core => execEcdsaVerify_within (ps := Family.parts .pke) (by decide) core
  | .ed25519Sign core => execEd25519Sign_within (ps := Family.parts .pke) (by decide) core
  | .ed25519Verify core => execEd25519Verify_within (ps := Family.parts .pke) (by decide) core
  | .x25519 core => execX25519_within (ps := Family.parts .pke) (by decide) core
  | .rsaPriv core => execRsaPriv_within (ps := Family.parts .pke) (by decide) core
  | .rsaPub core => execRsaPub_within (ps := Family.parts .pke) (by decide) core
  | .keyImport core => execKeyImport_within (ps := Family.parts .pke) (by decide) core
  | .keyWrap core => execKeyWrap_within (ps := Family.parts .pke) (by decide) core
  | .keygen core => execKeygen_within (ps := Family.parts .pke) (by decide) core
  | .keyErase core => execKeyErase_within (ps := Family.parts .pke) (by decide) core
  | .random r writeOk => execRandom_within (ps := Family.parts .pke) (by decide) r writeOk
  | .pkeUnknownOpcode core => execPkeUnknownOpcode_within (ps := Family.parts .pke) (by decide) core
  | .pkeDispatch => execPkeDispatch_within (ps := Family.parts .pke) (by decide)
  | .pkeDrawDone r => execPkeDrawDone_within (ps := Family.parts .pke) (by decide) r
  | .pkeYield core coreTime => execPkeYield_within (ps := Family.parts .pke) (by decide) core coreTime
  | .pkeJobDone core parityError writeOk coreTime => execPkeJobDone_within (ps := Family.parts .pke) (by decide) core
    parityError writeOk coreTime
  | .pkeCoreRetest cores => execPkeCoreRetest_within (ps := Family.parts .pke) (by decide) cores
  | .pkeCoreTestDone core pass => execPkeCoreTestDone_within (ps := Family.parts .pke) (by decide) core pass
  | .pkeAbort r => execPkeAbort_within (ps := Family.parts .pke) (by decide) r
  | .wrapLock => execWrapLock_within (ps := Family.parts .pke) (by decide)
  | .randomWaitExpired r => execRandomWaitExpired_within (ps := Family.parts .pke) (by decide) r
  | .entReady => execEntReady_within (ps := Family.parts .entropy) (by decide)
  | .entSourceFail s rct apt => execEntSourceFail_within (ps := Family.parts .entropy) (by decide) s rct apt
  | .entSourceRecover s => execEntSourceRecover_within (ps := Family.parts .entropy) (by decide) s
  | .entReseedDue => execEntReseedDue_within (ps := Family.parts .entropy) (by decide)
  | .reseedNow => execReseedNow_within (ps := Family.parts .entropy) (by decide)
  | .entReseedDone => execEntReseedDone_within (ps := Family.parts .entropy) (by decide)
  | .entBlocked => execEntBlocked_within (ps := Family.parts .entropy) (by decide)
  | .loamCommit r => execLoamCommit_within (ps := Family.parts .loam) (by decide) r
  | .loamRead r writeOk => execLoamRead_within (ps := Family.parts .loam) r writeOk
  | .fwWrite r image => execFwWrite_within (ps := Family.parts .loam) (by decide) r image
  | .fwActivate r image => execFwActivate_within (ps := Family.parts .loam) (by decide) r image
  | .fwCommit r => execFwCommit_within (ps := Family.parts .loam) (by decide) r
  | .fwRollback r env => execFwRollback_within (ps := Family.parts .reset) (by decide) r env
  | .csigSet r key => execCsigSet_within (ps := Family.parts .loam) (by decide) r key
  | .wipe r => execWipe_within (ps := Family.parts .loam) (by decide) r
  | .loamUnknownOpcode r => execLoamUnknownOpcode_within (ps := Family.parts .loam) r
  | .loamFirmwareCommit sid payload => execLoamFirmwareCommit_within (ps := Family.parts .loam) (by decide) sid payload
  | .loamCommitStart => execLoamCommitStart_within (ps := Family.parts .loam) (by decide)
  | .loamSegmentDone res => execLoamSegmentDone_within (ps := Family.parts .loam) (by decide) res
  | .loamRewrite => execLoamRewrite_within (ps := Family.parts .loam) (by decide)
  | .loamPfail => execLoamPfail_within (ps := Family.parts .loam) (by decide)
  | .pfailRelease => execPfailRelease_within (ps := Family.parts .loam) (by decide)
  | .pfailHoldoffEnd => execPfailHoldoffEnd_within (ps := Family.parts .loam) (by decide)
  | .loamWearMove => execLoamWearMove_within (ps := Family.parts .loam) (by decide)
  | .vbatLoss => execVbatLoss_within (ps := Family.parts .loam) (by decide)
  | .fwTrialMinute => execFwTrialMinute_within (ps := Family.parts .loam) (by decide)
  | .brimEnable => execBrimEnable_within (ps := Family.parts .brim) (by decide)
  | .brimResearch => execBrimResearch_within (ps := Family.parts .brim) (by decide)
  | .brimPresence => execBrimPresence_within (ps := Family.parts .brim) (by decide)
  | .brimPresencePulseEnd => execBrimPresencePulseEnd_within (ps := Family.parts .brim) (by decide)
  | .brimSearchStart => execBrimSearchStart_within (ps := Family.parts .brim) (by decide)
  | .brimSearchPass others east west ms => execBrimSearchPass_within (ps := Family.parts .brim) (by decide) others
    east west ms
  | .brimLaneUp x => execBrimLaneUp_within (ps := Family.parts .brim) (by decide) x
  | .brimLaneDown x => execBrimLaneDown_within (ps := Family.parts .brim) (by decide) x
  | .brimExchange x e beyond => execBrimExchange_within (ps := Family.parts .brim) (by decide) x e beyond
  | .brimElection eqls eligible => execBrimElection_within (ps := Family.parts .brim) (by decide) eqls eligible
  | .brimTokenArrive side seq rotNs => execBrimTokenArrive_within (ps := Family.parts .brim) (by decide) side seq rotNs
  | .brimTokenRegen => execBrimTokenRegen_within (ps := Family.parts .brim) (by decide)
  | .brimControlMessage m => execBrimControlMessage_within (ps := Family.parts .brim) (by decide) m
  | .brimMsgSend r data => execBrimMsgSend_within (ps := Family.parts .message) (by decide) r data
  | .brimMsgReceive r src data hostOk => execBrimMsgReceive_within (ps := Family.parts .message) r src data hostOk
  | .mitMsgSend r data => execMitMsgSend_within (ps := Family.parts .message) r data
  | .mitMsgReceive r data hostOk => execMitMsgReceive_within (ps := Family.parts .message) r data hostOk
  | .brimAlignLoss => execBrimAlignLoss_within (ps := Family.parts .brim) (by decide)
  | .mitLaneUp => execMitLaneUp_within (ps := Family.parts .mitten) (by decide)
  | .mitLaneDown => execMitLaneDown_within (ps := Family.parts .mitten) (by decide)
  | .mitPairingMessage m => execMitPairingMessage_within (ps := Family.parts .mitten) (by decide) m
  | .mitPairingTimeout => execMitPairingTimeout_within (ps := Family.parts .mitten) (by decide)
  | .mitHeartbeatSend => execMitHeartbeatSend_within (ps := Family.parts .mitten)
  | .mitInbandSend => execMitInbandSend_within (ps := Family.parts .mitten) (by decide)
  | .mitHeartbeatRx inband serving since => execMitHeartbeatRx_within (ps := Family.parts .mitten) (by decide) inband
    serving since
  | .mitHeartbeatMissed => execMitHeartbeatMissed_within (ps := Family.parts .mitten) (by decide)
  | .mitInbandSilent => execMitInbandSilent_within (ps := Family.parts .mitten) (by decide)
  | .mitLastGaspRx => execMitLastGaspRx_within (ps := Family.parts .mitten) (by decide)
  | .mitMirrorReceive rec serial tag => execMitMirrorReceive_within (ps := Family.parts .mirror) (by decide) rec serial tag
  | .mitMirrorAck sid serial => execMitMirrorAck_within (ps := Family.parts .mitten) (by decide) sid serial
  | .mitWitnessAlive => execMitWitnessAlive_within (ps := Family.parts .mitten) (by decide)
  | .mitWitnessExpired => execMitWitnessExpired_within (ps := Family.parts .mitten) (by decide)
  | .relinquish => execRelinquish_within (ps := Family.parts .mitten) (by decide)
  | .mitTakeoverNotice => execMitTakeoverNotice_within (ps := Family.parts .mitten) (by decide)
  | .spiWrite instr addr words fin => execSpiWrite_within (ps := [.bcp, .xram]) (by decide) instr addr words fin
  | .spiRead instr addr shifted fin => execSpiRead_within (ps := Family.parts .board) (by decide) instr addr shifted fin
  | .spiBadInstr instr => execSpiBadInstr_within (ps := Family.parts .board) instr
  | .i2ctWrite target addr words fin => execI2ctWrite_within (ps := [.bcp, .xram]) (by decide) target addr words fin
  | .i2ctRead target addr shifted fin => execI2ctRead_within (ps := Family.parts .board) (by decide) target addr shifted fin
  | .bcpMboxToBcWrite value => execBcpMboxToBcWrite_within (ps := Family.parts .board) (by decide) value
  | .bcpMboxFromBcRead => execBcpMboxFromBcRead_within (ps := Family.parts .board) (by decide)
  | .xramAccess offset width write => execXramAccess_within (ps := [.bcp, .xram]) (by decide) offset width write
  | .bcpI2cGo c => execBcpI2cGo_within (ps := Family.parts .board) (by decide) c
  | .bcpI2cDone c e => execBcpI2cDone_within (ps := Family.parts .board) (by decide) c e
  | .bcpI2cRetry c => execBcpI2cRetry_within (ps := Family.parts .board) (by decide) c
  | .bcpI2cTimeout c => execBcpI2cTimeout_within (ps := Family.parts .board) (by decide) c
  | .bcpDiscStuck => execBcpDiscStuck_within (ps := Family.parts .board) (by decide)
  | .clkXtalLost => execClkXtalLost_within (ps := Family.parts .clock) (by decide)
  | .clkLoinLost => execClkLoinLost_within (ps := Family.parts .clock) (by decide)
  | .clkFreqCheck lo xtal sds => execClkFreqCheck_within (ps := Family.parts .clock) (by decide) lo xtal sds
  | .unifiedReq => execUnifiedReq_within (ps := Family.parts .clock) (by decide)
  | .clkReturn => execClkReturn_within (ps := Family.parts .clock) (by decide)
  | .clkMuxRescue d => execClkMuxRescue_within (ps := Family.parts .clock) (by decide) d
  | .pwrIdlePark u idle => execPwrIdlePark_within (ps := Family.parts .clock) (by decide) u idle
  | .pwrScheduledWake u late => execPwrScheduledWake_within (ps := Family.parts .clock) (by decide) u late
  | .pwrDemandWake u late => execPwrDemandWake_within (ps := Family.parts .clock) (by decide) u late
  | .pwrLaneWake lanes => execPwrLaneWake_within (ps := Family.parts .clock) (by decide) lanes
  | .pwrLanePark lanes => execPwrLanePark_within (ps := Family.parts .clock) (by decide) lanes
  | .mbtRun mode alg => execMbtRun_within (ps := Family.parts .clock) (by decide) mode alg
  | .mbtDone failRows => execMbtDone_within (ps := Family.parts .clock) (by decide) failRows
  | .siltWindowEnd i => execSiltWindowEnd_within (ps := Family.parts .counter) i
  | .evtAlarmAck value => execEvtAlarmAck_within (ps := Family.parts .counter) value
  | .dropCounterClear addr => execDropCounterClear_within (ps := Family.parts .counter) addr
  | .statCounterRead bar addr => execStatCounterRead_within (ps := Family.parts .counter) (by decide) bar addr
  | .pmcClear k => execPmcClear_within (ps := Family.parts .counter) k
  | .clearAll => execClearAll_within (ps := Family.parts .counter)
  | .freeze on => execFreeze_within (ps := Family.parts .counter) on
  | .pmcCtlWrite k value => execPmcCtlWrite_within (ps := Family.parts .counter) k value
  | .pmcLoRead k => execPmcLoRead_within (ps := Family.parts .counter) k
  | .pmcWrap k n => execPmcWrap_within (ps := Family.parts .counter) k n
  | .por env => execPor_within (ps := Family.parts .reset) (by decide) env
  | .resetPin => execResetPin_within (ps := Family.parts .reset) (by decide)
  | .chip env => execChip_within (ps := Family.parts .reset) (by decide) env
  | .warm env => execWarm_within (ps := Family.parts .reset) (by decide) env
  | .ctrl env => execCtrl_within (ps := Family.parts .reset) (by decide) env
  | .pke => execPke_within (ps := Family.parts .reset) (by decide)
  | .ctrlWatchdog env => execCtrlWatchdog_within (ps := Family.parts .reset) (by decide) env
  | .perst => execPerst_within (ps := Family.parts .reset) (by decide)
  | .deferredResetAct env => execDeferredResetAct_within (ps := Family.parts .reset) (by decide) env
  | .supplyLoss => execSupplyLoss_within (ps := Family.parts .reset) (by decide)
  | .lorternoFramingError input => execLorternoFramingError_within (ps := Family.parts .reference) (by decide) input
  | .gnPullInDone c => execGnPullInDone_within (ps := Family.parts .gnss) (by decide) c
  | .mgPauseHoldEnd => execMgPauseHoldEnd_within (ps := Family.parts .management) (by decide)
  | .esmcPduSend => execEsmcPduSend_within (ps := Family.parts .scheduler) (by decide)
  | .spiHdrShort => execSpiHdrShort_within (ps := Family.parts .board)
  | .resetNRelease env => execResetNRelease_within (ps := Family.parts .reset) (by decide) env
  | .brimDisable => execBrimDisable_within (ps := Family.parts .brim) (by decide)
  | .mitEnable => execMitEnable_within (ps := Family.parts .mitten) (by decide)
  | .mitDisable => execMitDisable_within (ps := Family.parts .mitten) (by decide)
  | .vbatLow low => execVbatLow_within (ps := Family.parts .loam) (by decide) low

/-- A state that differs within the parts only is the one before, but for those parts and the event side. -/
theorem Within.eq_mk (h : Within ps s t) :
    t = { t with
      pending := if .pending ∈ ps then t.pending else s.pending, fuse := if .fuse ∈ ps then t.fuse else s.fuse,
      stat := if .stat ∈ ps then t.stat else s.stat, statHi := if .statHi ∈ ps then t.statHi else s.statHi,
      glb := if .glb ∈ ps then t.glb else s.glb, tb := if .tb ∈ ps then t.tb else s.tb,
      ttOut := if .ttOut ∈ ps then t.ttOut else s.ttOut, ttIn := if .ttIn ∈ ps then t.ttIn else s.ttIn,
      ref := if .ref ∈ ps then t.ref else s.ref, dpl := if .dpl ∈ ps then t.dpl else s.dpl,
      gn := if .gn ∈ ps then t.gn else s.gn, lp := if .lp ∈ ps then t.lp else s.lp,
      mg := if .mg ∈ ps then t.mg else s.mg, ts := if .ts ∈ ps then t.ts else s.ts,
      rsp := if .rsp ∈ ps then t.rsp else s.rsp, nts := if .nts ∈ ps then t.nts else s.nts,
      gnt := if .gnt ∈ ps then t.gnt else s.gnt, pke := if .pke ∈ ps then t.pke else s.pke,
      ent := if .ent ∈ ps then t.ent else s.ent, loam := if .loam ∈ ps then t.loam else s.loam,
      brim := if .brim ∈ ps then t.brim else s.brim, mit := if .mit ∈ ps then t.mit else s.mit,
      bcp := if .bcp ∈ ps then t.bcp else s.bcp, clk := if .clk ∈ ps then t.clk else s.clk } := by
  have part {α : Type} {a b : α} (p : Part) (same : p ∉ ps → b = a) : b = if p ∈ ps then b else a := by
    split
    · rfl
    · next listed => exact same listed
  cases t
  congr 1
  exacts [part _ (h .pending), part _ (h .fuse), part _ (h .stat), part _ (h .statHi), part _ (h .glb), part _ (h .tb),
    part _ (h .ttOut), part _ (h .ttIn), part _ (h .ref), part _ (h .dpl), part _ (h .gn), part _ (h .lp), part _ (h .mg),
    part _ (h .ts), part _ (h .rsp), part _ (h .nts), part _ (h .gnt), part _ (h .pke), part _ (h .ent), part _ (h .loam),
    part _ (h .brim), part _ (h .mit), part _ (h .bcp), part _ (h .clk)]

/-- A state that differs within the parts of a family and the exchange RAM keeps the family's frame. -/
theorem familyFrame_of_within (f : Family) (h : Within (.xram :: f.parts) s t) : FamilyFrame f s t := by
  cases f <;> exact h.eq_mk

theorem commandParts_subset (c : Instr) : ∀ p ∈ commandParts c, p ∈ .xram :: (familyOf c).parts := by
  unfold commandParts
  split
  case h_4 => exact fun p hp => .tail _ hp
  all_goals exact (by decide : ∀ p ∈ [Part.bcp, .xram], p ∈ .xram :: Family.parts .board)

/-- Settles O56: `exec_within` has one frame for each command. -/
theorem familiesKeepTheirFrames : Obligations.FamiliesKeepTheirFrames := by
  unfold Obligations.FamiliesKeepTheirFrames
  intro c s t next
  exact familyFrame_of_within _ ((exec_within c s t next).mono (commandParts_subset c))

end Sys2Proof.Machine
end

section
/-! SUPPORT. What every command completes, and what it keeps: the fused values, the queue (O4), and the canonical form of
the exchange RAM (O3). -/

namespace Sys2Proof.Machine

variable {ps : List Part} {s t : State}

/-! ## The fused values and the queue -/

theorem fuse_notMem_commandParts (c : Instr) : .fuse ∉ commandParts c := fun listed => by
  have := commandParts_subset c _ listed
  revert this
  cases familyOf c <;> decide

theorem pending_notMem_commandParts (c : Instr) : .pending ∉ commandParts c := fun listed => by
  have := commandParts_subset c _ listed
  revert this
  cases familyOf c <;> decide

theorem exec_fuseQueueKept {c : Instr} (next : exec c s = .next t) : FuseQueueKept s t :=
  ⟨exec_within c s t next _ (fuse_notMem_commandParts c), exec_within c s t next _ (pending_notMem_commandParts c)⟩

/-! ## Every command in its window completes -/

theorem exec_registerWrite_next {bar : Bar} {a : Nat} {v : Word} (inside : inWindow (.registerWrite bar a v) = true) :
    ∃ t, exec (.registerWrite bar a v) s = .next t := by
  cases bar with
  | bar2 =>
    simp only [exec, execRegisterWrite, bar2Write]
    repeat' split
    all_goals exact ⟨_, rfl⟩
  | bar0 =>
    have below : ¬0x2000000 ≤ a := by simpa [inWindow] using inside
    simp only [exec, execRegisterWrite, if_neg below]
    split <;> exact ⟨_, rfl⟩

theorem exec_dropCounterClear_next {a : Nat} (inside : inWindow (.dropCounterClear a) = true) :
    ∃ t, exec (.dropCounterClear a) s = .next t := by
  have below : ¬0x2000000 ≤ a := by simpa [inWindow] using inside
  simp only [exec, execDropCounterClear, if_neg below]
  split <;> exact ⟨_, rfl⟩

theorem exec_statCounterRead_next {bar : Bar} {a : Nat} (inside : inWindow (.statCounterRead bar a) = true) :
    ∃ t, exec (.statCounterRead bar a) s = .next t := by
  cases bar with
  | bar2 => exact ⟨_, rfl⟩
  | bar0 =>
    have below : ¬0x2000000 ≤ a := by simpa [inWindow] using inside
    simp only [exec, execStatCounterRead, if_neg below]
    split <;> exact ⟨_, rfl⟩

theorem exec_xramAccess_next {off width : Nat} {w : Option Word} (inside : inWindow (.xramAccess off width w) = true) :
    ∃ t, exec (.xramAccess off width w) s = .next t := by
  have below : ¬65536 ≤ off := by simpa [inWindow] using inside
  simp only [exec, execXramAccess, if_neg below]
  split <;> exact ⟨_, rfl⟩

theorem exec_next (c : Instr) (inside : inWindow c = true) : ∃ t, exec c s = .next t := by
  cases c
  case registerWrite => exact exec_registerWrite_next inside
  case dropCounterClear => exact exec_dropCounterClear_next inside
  case statCounterRead => exact exec_statCounterRead_next inside
  case xramAccess => exact exec_xramAccess_next inside
  all_goals exact ⟨_, rfl⟩

theorem gives_fuseQueueKept {c : Instr} (inside : inWindow c = true) : Gives c s (FuseQueueKept s) :=
  (exec_next c inside).imp fun _ next => ⟨next, exec_fuseQueueKept next⟩

/-- Settles O4: no command lists the fuses or the queue among its parts, and only the accesses of a window can fault. -/
theorem fusesAndQueueKept : Obligations.FusesAndQueueKept := by
  unfold Obligations.FusesAndQueueKept
  have kept {c : Instr} {s : State} (inside : inWindow c = true) : Gives c s (FuseQueueKept s) := gives_fuseQueueKept inside
  exact ⟨fun _ _ _ => exec_fuseQueueKept, fun c _ => exec_next c,
    fun _ _ => kept rfl, fun _ _ => kept rfl, fun _ _ => kept rfl, fun _ _ => kept rfl, fun _ _ _ => kept rfl,
    fun _ _ _ _ => kept rfl, fun _ _ _ => kept rfl, fun _ _ _ _ => kept rfl, fun _ _ _ => kept rfl,
    fun _ _ => kept rfl, fun _ _ _ => kept rfl, fun _ _ _ => kept rfl, fun _ _ => kept rfl, fun _ _ => kept rfl,
    fun _ _ => kept rfl, fun _ _ => kept rfl, fun _ => kept rfl, fun _ => kept rfl, fun _ => kept rfl,
    fun _ => kept rfl, fun _ _ => kept rfl, fun _ => kept rfl, fun _ => kept rfl,
    fun _ => ⟨kept rfl, kept rfl, kept rfl⟩, fun _ _ => kept rfl, fun _ _ => kept rfl, fun _ _ _ _ => kept rfl,
    fun _ _ => ⟨kept rfl, kept rfl, kept rfl⟩, fun _ => kept rfl, fun _ => kept rfl, fun _ _ _ _ => kept rfl,
    fun _ => kept rfl, fun _ => kept rfl, fun _ _ => kept rfl⟩

/-! ## The exchange RAM -/

theorem xramOk_iff_of_within (h : Within ps s t) (kept : .xram ∉ ps) : XramOk t ↔ XramOk s := by
  have same : t.bcp.xram = s.bcp.xram := h _ kept
  simp only [XramOk, same]

theorem xramOk_foldl {α : Type} {f : State → α → State} (step : ∀ t x, XramOk t → XramOk (f t x)) (l : List α)
    (ok : XramOk s) : XramOk (l.foldl f s) :=
  List.foldlRecOn l f ok fun t h x _ => step t x h

theorem xramOk_setXbyte (a : Nat) (b : Byte) (ok : XramOk s) : XramOk (setXbyte s a b) := by
  obtain ⟨canonical, inside⟩ := ok
  refine ⟨twf_tset _ _ _ canonical, fun e he => ?_⟩
  rcases keys_tset (d := fun _ => 0) (t := s.bcp.xram) he with key | old
  · rw [key]
    exact Nat.mod_lt _ (by decide)
  · exact inside e old

theorem xramOk_xaccess_iff {pcie write : Bool} {w : Nat} : XramOk (xaccess s pcie w write).1 ↔ XramOk s :=
  xramOk_iff_of_within (ps := [.bcp]) ((within_xaccess (by decide) ..).2 .refl) (by decide)

theorem xramOk_xnote_iff {pcie : Bool} {w : Nat} {data : Option Nat} : XramOk (xnote s pcie w data) ↔ XramOk s :=
  xramOk_iff_of_within (ps := [.bcp]) ((within_xnote (by decide) ..).2 .refl) (by decide)

theorem xramOk_meetWords_iff {a width : Nat} {write : Bool} : XramOk (meetWords s a width write).1 ↔ XramOk s :=
  xramOk_iff_of_within (ps := [.bcp]) ((within_meetWords (by decide) ..).2 .refl) (by decide)

theorem xramOk_xwrite (a : Nat) (bs : Bytes) (ok : XramOk s) : XramOk (xwrite s a bs) :=
  xramOk_foldl (fun _ _ h => xramOk_setXbyte _ _ h) _ ok

theorem xramOk_xramDo (a width : Nat) (write : Option Word) (ok : XramOk s) : XramOk (xramDo s a width write) := by
  cases write with
  | none =>
    rw [xramDo_read]
    exact xramOk_foldl (fun _ _ h => xramOk_xnote_iff.2 h) _ (xramOk_meetWords_iff.2 ok)
  | some v =>
    rw [xramDo_write]
    exact xramOk_foldl (fun _ _ h => xramOk_xnote_iff.2 h) _
      (xramOk_foldl (fun _ _ h => xramOk_setXbyte _ _ h) _ (xramOk_meetWords_iff.2 ok))

theorem xramOk_bcWrite (bad a : Nat) (v : Word) (ok : XramOk s) : XramOk (bcWrite s bad a v) := by
  by_cases ram : a < 65536
  · simp only [bcWrite, if_pos ram]
    exact xramOk_xnote_iff.2 (xramOk_xwrite _ _ (xramOk_xaccess_iff.2 ok))
  · refine (xramOk_iff_of_within (ps := [.bcp]) ?_ (by decide)).2 ok
    simp [bcWrite, if_neg ram]

theorem xramOk_bcWrites (bad : Nat) (vs : List Word) (a : Nat) (ok : XramOk s) : XramOk (bcWrites bad vs a s) := by
  induction vs generalizing a s with
  | nil => exact ok
  | cons v vs ih => exact ih _ (xramOk_bcWrite bad a v ok)

theorem exec_xramAccess_xramOk {off width : Nat} {w : Option Word} (next : exec (.xramAccess off width w) s = .next t)
    (ok : XramOk s) : XramOk t := by
  simp only [exec, execXramAccess] at next
  split at next
  · cases next
  split at next
  · cases next
    refine (xramOk_iff_of_within (ps := []) ?_ (by decide)).2 ok
    split <;> simp
  · cases next
    exact xramOk_xramDo _ _ _ ok

theorem exec_spiWrite_xramOk {instr : Byte} {addr : BitVec 24} {words : List Word} {fin : BusEnd}
    (next : exec (.spiWrite instr addr words fin) s = .next t) (ok : XramOk s) : XramOk t := by
  have error {u : State} (ctr : Nat) (h : XramOk u) : XramOk (spiErr u ctr) :=
    (xramOk_iff_of_within (ps := []) ((within_spiErr ctr).2 .refl) (by decide)).2 h
  cases next
  simp only [spiTransaction]
  have counted {a : Nat} : XramOk (bump s a 1) := (xramOk_iff_of_within (ps := []) (by simp) (by decide)).2 ok
  split
  · exact counted
  · repeat' split
    · exact ok
    · exact counted
    · exact error _ (xramOk_bcWrites _ _ _ ok)
    · exact error _ (xramOk_bcWrites _ _ _ ok)
    · exact xramOk_bcWrites _ _ _ ok

theorem exec_i2ctWrite_xramOk {target : BitVec 7} {addr : Bytes} {words : List Word} {fin : BusEnd}
    (next : exec (.i2ctWrite target addr words fin) s = .next t) (ok : XramOk s) : XramOk t := by
  have error {u : State} (h : XramOk u) : XramOk (i2ctErr u) :=
    (xramOk_iff_of_within (ps := []) (within_i2ctErr.2 .refl) (by decide)).2 h
  cases next
  dsimp only
  repeat' split
  · exact ok
  · exact error ok
  · exact error (xramOk_bcWrites _ _ _ ok)
  · exact xramOk_bcWrites _ _ _ ok

/-! ## Resets -/

theorem xramOk_cold : twf (fun _ => (0 : Byte)) Bcp.cold.xram = true ∧ ∀ e ∈ Bcp.cold.xram, e.1 < 65536 := by decide

theorem xramOk_coldAll (p : Nat → Bool) : XramOk (coldAll s p) := xramOk_cold

theorem xramOk_coldWarm : XramOk (coldWarm s) := by
  have kept {u : State} : XramOk (fusedCold (dropSynce (dropRegs u warmReaches))) ↔ XramOk u :=
    xramOk_iff_of_within (ps := .stat :: .statHi :: .gnt :: selectionParts) (by simp) (by decide)
  exact kept.2 xramOk_cold

theorem xramOk_startUp_iff {full rollback : Bool} {reached : Nat → Bool} {env : StartEnv} :
    XramOk (startUp full rollback reached env s) ↔ XramOk s :=
  xramOk_iff_of_within (ps := startParts) ((within_startUp (fun _ h => h) ..).2 .refl) (by decide)

theorem xramOk_actChip (env : StartEnv) : XramOk (actChip env s) := xramOk_startUp_iff.2 (xramOk_coldAll _)

theorem xramOk_actWarm (esc rollback : Bool) (env : StartEnv) : XramOk (actWarm esc rollback env s) := by
  have failed {u : State} (n : Nat) : XramOk (enterFailed u n) ↔ XramOk u :=
    xramOk_iff_of_within (ps := startParts) ((within_enterFailed (by simp) n).2 .refl) (by decide)
  unfold actWarm
  extract_lets esced g0 s1
  have started : XramOk s1 := xramOk_startUp_iff.2 xramOk_coldWarm
  clear_value s1 esced
  split
  · exact (failed 3).2 started
  · exact started

theorem xramOk_causeBit_iff {i : Nat} : XramOk (causeBit s i) ↔ XramOk s := Iff.rfl

theorem xramOk_gaspFirst_iff : XramOk (gaspFirst s) ↔ XramOk s :=
  xramOk_iff_of_within (ps := []) (within_gaspFirst.2 .refl) (by decide)

theorem xramOk_requestWarm (esc rollback : Bool) (env : StartEnv) (ok : XramOk s) :
    XramOk (requestWarm esc rollback env s) := by
  unfold requestWarm
  generalize (if esc then 4 else 3) = cause
  dsimp only
  split
  · exact xramOk_gaspFirst_iff.2 ok
  · exact xramOk_actWarm _ _ _

theorem xramOk_ctrlRestart (env : StartEnv) (ok : XramOk s) : XramOk (ctrlRestart env s) := by
  have restarted {u : State} : XramOk (ctrlRestarts u) ↔ XramOk u :=
    xramOk_iff_of_within (ps := [.glb]) ((within_ctrlRestarts (by decide)).2 .refl) (by decide)
  have back {u : State} : XramOk (ctrlBack u) ↔ XramOk u :=
    xramOk_iff_of_within (ps := [.glb]) ((within_ctrlBack (by decide)).2 .refl) (by decide)
  unfold ctrlRestart
  dsimp only
  split
  · exact xramOk_requestWarm _ _ _ (restarted.2 ok)
  · exact back.2 (restarted.2 ok)

theorem execChip_xramOk {env : StartEnv} (next : execChip env s = .next t) (ok : XramOk s) : XramOk t := by
  cases next
  dsimp only
  split
  · exact ok
  split
  · exact xramOk_gaspFirst_iff.2 ok
  · exact xramOk_actChip env

theorem execDeferredResetAct_xramOk {env : StartEnv} (next : execDeferredResetAct env s = .next t) (ok : XramOk s) :
    XramOk t := by
  cases next
  repeat' split
  · exact ok
  · exact ok
  · exact xramOk_actChip env
  · exact xramOk_actWarm _ _ env

theorem execFwRollback_xramOk {r : Fin 256} {env : StartEnv} (next : execFwRollback r env s = .next t) (ok : XramOk s) :
    XramOk t := by
  have ended {u : State} {x : Fetched} (n : Nat) : XramOk (loamEnd u r x n) ↔ XramOk u :=
    xramOk_iff_of_within (ps := []) ((within_loamEnd ..).2 .refl) (by decide)
  have rejected {k : Nat} {st : FwState} : XramOk (setSlotState s k st) ↔ XramOk s :=
    xramOk_iff_of_within (ps := [.loam]) ((within_setSlotState (by decide) ..).2 .refl) (by decide)
  have completed {x : Fetched} {status : Nat} {b : Bytes} : XramOk (complete s r x.idx status b) ↔ XramOk s :=
    xramOk_iff_of_within (ps := []) ((within_complete ..).2 .refl) (by decide)
  cases next
  unfold loamCommand
  repeat' split
  · exact ok
  · exact ok
  · exact completed.2 ok
  · exact xramOk_requestWarm _ _ _ ((ended 0).2 (rejected.2 ok))
  · exact (ended 1).2 ok
  · exact ok

/-- A reset keeps the exchange RAM or clears it. -/
theorem exec_reset_xramOk {c : Instr} (reset : familyOf c = .reset) (next : exec c s = .next t) (ok : XramOk s) :
    XramOk t := by
  cases c
  case fwRollback => exact execFwRollback_xramOk next ok
  case chip => exact execChip_xramOk next ok
  case deferredResetAct => exact execDeferredResetAct_xramOk next ok
  case por env =>
    cases next
    dsimp only
    split
    · exact xramOk_coldAll (s := cutCommit s) porReaches
    · exact xramOk_startUp_iff.2 (xramOk_coldAll (s := cutCommit s) porReaches)
  case resetPin => cases next; exact xramOk_coldAll (s := cutCommit (gaspFirst s)) chipReaches
  case resetNRelease env =>
    exact (xramOk_iff_of_within (execResetNRelease_within (ps := startParts) (fun _ h => h) env t next) (by decide)).2 ok
  case warm env =>
    cases next
    split
    · exact ok
    · exact xramOk_requestWarm _ _ _ ok
  case ctrl env =>
    cases next
    split
    · exact ok
    · exact xramOk_ctrlRestart _ ok
  case ctrlWatchdog env =>
    cases next
    split
    · exact ok
    · exact xramOk_ctrlRestart _ ok
  case pke => cases next; exact ok
  case perst =>
    exact (xramOk_iff_of_within (execPerst_within (ps := [.stat, .statHi, .lp, .mg, .pke, .loam]) (by decide) t next)
      (by decide)).2 ok
  case supplyLoss =>
    have lost {u : State} : XramOk (keepAliveLost u) ↔ XramOk u :=
      xramOk_iff_of_within (ps := [.loam]) ((within_keepAliveLost (by decide)).2 .refl) (by decide)
    cases next
    dsimp only
    split
    · exact lost.2 (xramOk_coldAll (s := cutCommit s) porReaches)
    · exact xramOk_coldAll (s := cutCommit s) porReaches
  all_goals cases reset

/-! ## Every step -/

theorem xram_notMem_parts {f : Family} (other : f ≠ .reset) : .xram ∉ f.parts := by
  cases f
  case reset => exact absurd rfl other
  all_goals decide

theorem exec_xramOk (c : Instr) (next : exec c s = .next t) (ok : XramOk s) : XramOk t := by
  by_cases reset : familyOf c = .reset
  · exact exec_reset_xramOk reset next ok
  · have frame := exec_within c s t next
    revert frame
    unfold commandParts
    split
    · exact fun _ => exec_xramAccess_xramOk next ok
    · exact fun _ => exec_spiWrite_xramOk next ok
    · exact fun _ => exec_i2ctWrite_xramOk next ok
    · exact fun frame => (xramOk_iff_of_within frame (xram_notMem_parts reset)).2 ok

theorem xramOk_idleTick_iff : XramOk (idleTick s) ↔ XramOk s :=
  xramOk_iff_of_within (ps := [.stat, .glb, .tb, .ttOut, .ref, .lp, .mg]) (by simp [idleTick]) (by decide)

/-- Settles O3: a step writes the exchange RAM through `setXbyte` only, or clears it. -/
theorem exchangeRamStaysCanonical : Obligations.ExchangeRamStaysCanonical := by
  unfold Obligations.ExchangeRamStaysCanonical
  intro s t ok next
  unfold step at next
  split at next
  · cases next
    exact xramOk_idleTick_iff.2 ok
  · exact exec_xramOk _ next ok

end Sys2Proof.Machine
end

section
/-! SUPPORT. The queue, the state after reset, the words of the timebase and the timestamp units (O1, O2, O5, O21). -/

namespace Sys2Proof.Machine

variable {s t : State}

/-- Settles O1, by the two branches of `step`. -/
theorem stepRunsFrontCommand : Obligations.StepRunsFrontCommand := by
  unfold Obligations.StepRunsFrontCommand
  refine ⟨fun _ _ _ => rfl, fun s empty => ?_⟩
  simp only [step, empty]

/-- Settles O2: the reset state holds empty tables. -/
theorem resetHoldsColdValues : Obligations.ResetHoldsColdValues := by
  unfold Obligations.ResetHoldsColdValues
  exact ⟨fun _ => rfl, rfl, rfl, rfl, rfl, fun _ => rfl, fun _ => rfl, fun _ => rfl, xramOk_cold⟩

/-- Settles O5: each word's command is one record update. -/
theorem timebaseWordsTakeEffect : Obligations.TimebaseWordsTakeEffect := by
  unfold Obligations.TimebaseWordsTakeEffect
  refine ⟨fun _ => rfl, fun s v manual => ?_, fun s v w manual staged => exec_tbDcoHiWrite_manual v staged manual,
    fun s v other => ⟨?_, ?_⟩, fun _ => rfl, fun _ => rfl⟩
  · simp [exec, execTbDcoLoWrite, manual]
  · simp [exec, execTbDcoLoWrite, other]
  · simp [exec, execTbDcoHiWrite, other]

/-! ## Timestamp units -/

theorem degradePort_temps_volts (s : State) (j : Nat) :
    (degradePort s j).ts.temps = s.ts.temps ∧ (degradePort s j).ts.volts = s.ts.volts := by
  unfold degradePort
  split <;> simp [orReg, wr, setTsPort]

theorem foldl_degradePort_temps_volts (s : State) (l : List Nat) :
    (l.foldl degradePort s).ts.temps = s.ts.temps ∧ (l.foldl degradePort s).ts.volts = s.ts.volts :=
  List.foldlRecOn (motive := fun t => t.ts.temps = s.ts.temps ∧ t.ts.volts = s.ts.volts) l degradePort ⟨rfl, rfl⟩
    fun t ⟨temps, volts⟩ j _ =>
      ⟨(degradePort_temps_volts t j).1.trans temps, (degradePort_temps_volts t j).2.trans volts⟩

theorem exec_tsRestored_recovers {j : Fin 16} (degraded : (tsPort s j).degraded = true)
    (within : outOfLimits s (j.val / 4) = false) :
    Gives (.tsRestored j) s fun t => (tsPort t j).degraded = false := by
  refine ⟨_, rfl, ?_⟩
  rw [if_pos ⟨degraded, within⟩]
  dsimp only
  split <;> simp [tsPort, setTsPort]

theorem exec_tsCalEntryExpire_counts {q : BitVec 16} {e : Nat × Nat}
    (found : s.ts.cal.find? (fun e => decide (e.1 = q.toNat)) = some e) :
    Gives (.tsCalEntryExpire q) s fun t => t.ts.cal = s.ts.cal.erase e ∧ Counted s t 0xA00914 1 := by
  refine ⟨_, rfl, ?_⟩
  simp only [found]
  exact ⟨by simp, bump_counted { s with ts := { s.ts with cal := s.ts.cal.erase e } } 1 (by decide)⟩

/-- Settles O21. -/
theorem timestampUnitsTakeEffect : Obligations.TimestampUnitsTakeEffect := by
  unfold Obligations.TimestampUnitsTakeEffect
  exact ⟨fun s ts vs => ⟨_, rfl, foldl_degradePort_temps_volts _ _⟩,
    fun _ _ degraded within => exec_tsRestored_recovers degraded within,
    fun _ => ⟨_, rfl, rfl, rfl, rfl, rd_wr_same ..⟩, fun _ => rfl, fun _ _ _ found => exec_tsCalEntryExpire_counts found⟩

end Sys2Proof.Machine
end

section
/-! SUPPORT. R45 to R59: setting and stepping the time, TIME_VALID, seconds, leaps and the servo's offset (O6, O7, O8). -/

namespace Sys2Proof.Machine

variable {s t u : State}

/-! ## TIME_VALID -/

theorem setValid_tb_of_ne {v : Bool} (other : s.tb.timeValid ≠ v) :
    (setValid s v).tb = { s.tb with timeValid := v, everValid := s.tb.everValid || v } := by
  have checked (x : State) : (mitReadyCheck x).tb = x.tb :=
    ((within_mitReadyCheck (ps := [.mit]) (by decide)).2 .refl) .tb (by decide)
  have served (x : State) : (refreshServing x).tb = x.tb :=
    ((within_refreshServing (ps := servingParts) (by decide)).2 .refl) .tb (by decide)
  have noted (x : State) : (noteStep x 8).tb = x.tb :=
    ((within_noteStep (ps := [.glb]) (by decide) 8).2 .refl) .tb (by decide)
  have rotated (x : State) : (beginRotation x none false).tb = x.tb :=
    ((within_beginRotation (ps := [.nts]) (by decide) none false).2 .refl) .tb (by decide)
  unfold setValid
  rw [if_neg other]
  extract_lets g0 s1 r1 s2 s3 s4
  have valid : s4.tb = s1.tb := by
    have raised : s3.tb = s1.tb := by
      cases v <;> simp [s3, s2]
    have stepped : (if v && s.ent.ready then noteStep s3 8 else s3).tb = s3.tb := by
      split
      · exact noted s3
      · rfl
    exact (checked _).trans ((served _).trans (stepped.trans raised))
  split
  · exact (rotated _).trans valid
  · exact valid

/-- Clearing TIME_VALID changes nothing else of the timebase. -/
theorem setValid_false_tb (s : State) : (setValid s false).tb = { s.tb with timeValid := false } := by
  by_cases fallen : s.tb.timeValid = false
  · have same : setValid s false = s := by rw [setValid, if_pos fallen]
    rw [same, ← fallen]
  · rw [setValid_tb_of_ne fallen, Bool.or_false]

theorem setValid_timeValid (s : State) (v : Bool) : (setValid s v).tb.timeValid = v := by
  by_cases same : s.tb.timeValid = v
  · rw [setValid, if_pos same, same]
  · rw [setValid_tb_of_ne same]

/-- The fields of the timebase that neither a tick nor TIME_VALID touches. -/
structure ServoKept (s t : State) : Prop where
  offset : t.tb.offset = s.tb.offset
  holdover : t.tb.holdover = s.tb.holdover
  lastUpdate : t.tb.lastUpdate = s.tb.lastUpdate
  forceInvalid : t.tb.forceInvalid = s.tb.forceInvalid

theorem ServoKept.trans (h : ServoKept s t) (k : ServoKept t u) : ServoKept s u :=
  ⟨k.offset.trans h.offset, k.holdover.trans h.holdover, k.lastUpdate.trans h.lastUpdate,
    k.forceInvalid.trans h.forceInvalid⟩

theorem ServoKept.of_tb (h : t.tb = s.tb) : ServoKept s t := by
  constructor <;> rw [h]

theorem setValid_servoKept (s : State) (v : Bool) : ServoKept s (setValid s v) := by
  by_cases same : s.tb.timeValid = v
  · rw [setValid, if_pos same]
    exact .of_tb rfl
  · constructor <;> rw [setValid_tb_of_ne same]

theorem tryRise_servoKept (s : State) : ServoKept s (tryRise s) := by
  unfold tryRise
  split
  · exact setValid_servoKept s true
  · exact .of_tb rfl

theorem judge_servoKept (s : State) (e16 : Int) (stepped : Bool) : ServoKept s (judge s e16 stepped) := by
  unfold judge
  extract_lets a bad good tb s1
  have judged : ServoKept s s1 := ⟨rfl, rfl, rfl, rfl⟩
  repeat' split
  · exact judged.trans (setValid_servoKept s1 false)
  · exact judged
  · exact judged
  · exact judged.trans (tryRise_servoKept s1)

/-! ## Phase steps -/

/-- What an anchor, a leap and its expiry leave of the timebase. -/
structure ClockKept (s t : State) : Prop extends ServoKept s t where
  counter : t.tb.counter = s.tb.counter
  ticks : t.tb.ticks = s.tb.ticks
  stepCnt : t.tb.stepCnt = s.tb.stepCnt
  good : t.tb.good = s.tb.good
  timeValid : t.tb.timeValid = s.tb.timeValid

theorem ClockKept.trans (h : ClockKept s t) (k : ClockKept t u) : ClockKept s u :=
  ⟨h.toServoKept.trans k.toServoKept, k.counter.trans h.counter, k.ticks.trans h.ticks, k.stepCnt.trans h.stepCnt,
    k.good.trans h.good, k.timeValid.trans h.timeValid⟩

theorem ClockKept.of_tb (h : t.tb = s.tb) : ClockKept s t := by
  refine ⟨.of_tb h, ?_, ?_, ?_, ?_, ?_⟩ <;> rw [h]

theorem leapSchedule_clockKept (s : State) : ClockKept s (leapSchedule s) := by
  unfold leapSchedule touchLeap
  repeat' split
  all_goals exact ⟨⟨rfl, rfl, rfl, rfl⟩, rfl, rfl, rfl, rfl, rfl⟩

theorem leapAfterStep_clockKept (s : State) : ClockKept s (leapAfterStep s) :=
  .trans (t := { s with tb := { s.tb with
    flagLeap := s.tb.flagLeap.filter fun l => decide (l.at_ = monthEnd (utcSec s))
    lastLeap := s.tb.lastLeap.filter fun l => decide (changeT16 l ≤ nowT16 s) } })
    ⟨⟨rfl, rfl, rfl, rfl⟩, rfl, rfl, rfl, rfl, rfl⟩ (leapSchedule_clockKept _)

theorem checkExpiry_clockKept (s : State) : ClockKept s (checkExpiry s) := by
  unfold checkExpiry
  extract_lets e tb s1
  have expired : ClockKept s s1 := ⟨⟨rfl, rfl, rfl, rfl⟩, rfl, rfl, rfl, rfl, rfl⟩
  repeat' split
  · exact .of_tb rfl
  · exact expired.trans (.of_tb (raiseN_tb ..))
  · exact expired

theorem phaseStep_clockKept (s : State) (before would after : Nat) :
    ClockKept { s with tb := { s.tb with counter := after, stepCnt := s.tb.stepCnt + 1, good := 0 } }
      (phaseStep s before would after) := by
  unfold phaseStep
  extract_lets shift pps tb ref s1 s2 s3
  have anchored : ClockKept s1 s2 := ⟨⟨rfl, rfl, rfl, rfl⟩, rfl, rfl, rfl, rfl, rfl⟩
  have raised : ClockKept s2 s3 := .of_tb ((raiseSev_tb ..).trans (raiseSev_tb ..))
  have stepped : ClockKept s3 (ttStepAll would (s.ttOut.map (·.1)) s3) :=
    .of_tb (((within_ttStepAll (ps := [.ttOut]) (by decide) ..).2 .refl) .tb (by decide))
  have first : ClockKept { s with tb := { s.tb with counter := after, stepCnt := s.tb.stepCnt + 1, good := 0 } } s1 :=
    .of_tb rfl
  exact first.trans (anchored.trans (raised.trans (stepped.trans
    ((checkExpiry_clockKept _).trans (leapAfterStep_clockKept _)))))

/-! ## Ticks -/

theorem tick_of_runs (runs : clkRuns s.clk.tbclk = true) : tick s = tickOn s := if_pos runs

theorem tick_load {v : Nat} (runs : clkRuns s.clk.tbclk = true) (staged : s.tb.stepNext = some (.load v)) :
    (tick s).tb.counter = v ∧ (tick s).tb.stepCnt = s.tb.stepCnt + 1 ∧ (tick s).tb.timeValid = s.tb.timeValid ∧
      (tick s).tb.good = 0 := by
  simp only [tick_of_runs runs, tickOn, staged]
  have stepped := phaseStep_clockKept
  exact ⟨(stepped ..).counter, (stepped ..).stepCnt, (stepped ..).timeValid, (stepped ..).good⟩

theorem tick_add {d : Int} (runs : clkRuns s.clk.tbclk = true) (staged : s.tb.stepNext = some (.add d)) :
    (tick s).tb.counter =
        (((s.tb.counter + tickInc (paceWord s (s.tb.dcoNext.getD s.tb.dco)) : Nat) : Int) + d * 2 ^ 60).toNat ∧
      (tick s).tb.stepCnt = s.tb.stepCnt + 1 ∧ (tick s).tb.timeValid = s.tb.timeValid := by
  simp only [tick_of_runs runs, tickOn, staged]
  have stepped := phaseStep_clockKept
  exact ⟨(stepped ..).counter, (stepped ..).stepCnt, (stepped ..).timeValid⟩

theorem tick_servoKept (s : State) : ServoKept s (tick s) ∧ (tick s).tb.timeValid = s.tb.timeValid := by
  unfold tick
  split
  · unfold tickOn
    extract_lets dco c tb s1
    have ticked : ServoKept s s1 := ⟨rfl, rfl, rfl, rfl⟩
    split
    · exact ⟨ticked, rfl⟩
    · have stepped := phaseStep_clockKept
      exact ⟨ticked.trans ⟨(stepped ..).offset, (stepped ..).holdover, (stepped ..).lastUpdate, (stepped ..).forceInvalid⟩,
        (stepped ..).timeValid⟩
    · have stepped := phaseStep_clockKept
      exact ⟨ticked.trans ⟨(stepped ..).offset, (stepped ..).holdover, (stepped ..).lastUpdate, (stepped ..).forceInvalid⟩,
        (stepped ..).timeValid⟩
  · exact ⟨⟨rfl, rfl, rfl, rfl⟩, rfl⟩

/-! ## SET_TIME, STEP_NOW and FORCE_INVALID -/

theorem exec_setTime_loads (free : setRefusable s = false) (below : (rd s 0x300070).toNat < 10 ^ 9)
    (runs : clkRuns s.clk.tbclk = true) :
    Gives (.setTime false) s fun t =>
      t.tb.counter = ofWords (rd s 0x300070).toNat (rd s 0x300074).toNat (rd s 0x300078).toNat ∧
      t.tb.stepCnt = s.tb.stepCnt + 1 ∧ t.tb.timeValid = false ∧ t.tb.good = 0 := by
  have clk : (setValid s false).clk = s.clk :=
    ((within_setValid (ps := validParts) (by decide) false).2 .refl) .clk (by decide)
  have accepted : ¬(false || setRefusable s || decide (10 ^ 9 ≤ (rd s 0x300070).toNat)) = true := by
    simpa [free] using below
  refine ⟨_, rfl, ?_⟩
  rw [if_neg accepted]
  obtain ⟨counter, stepCnt, timeValid, good⟩ := tick_load (s := { setValid s false with
    tb := { (setValid s false).tb with
      stepNext := some (.load (ofWords (rd s 0x300070).toNat (rd s 0x300074).toNat (rd s 0x300078).toNat)) } })
    (by rwa [← clk] at runs) rfl
  refine ⟨counter, stepCnt.trans ?_, timeValid.trans (setValid_timeValid s false), good⟩
  simp only [setValid_false_tb]

theorem exec_stepNow_subtracts (free : setRefusable s = false) (runs : clkRuns s.clk.tbclk = true) :
    Gives (.stepNow false) s fun t =>
      t.tb.counter = (((s.tb.counter + tickInc (paceWord s (s.tb.dcoNext.getD s.tb.dco)) : Nat) : Int)
        + -(s.tb.offset * 16) * 2 ^ 60).toNat ∧
      t.tb.stepCnt = s.tb.stepCnt + 1 ∧ t.tb.timeValid = false := by
  have fallen : Within validParts s (setValid s false) := (within_setValid (by decide) false).2 .refl
  have clk : (setValid s false).clk = s.clk := fallen .clk (by decide)
  have dpl : (setValid s false).dpl = s.dpl := fallen .dpl (by decide)
  have accepted : ¬(false || setRefusable s) = true := by simp [free]
  refine ⟨_, rfl, ?_⟩
  rw [if_neg accepted]
  obtain ⟨counter, stepCnt, timeValid⟩ := tick_add (s := { setValid s false with
    tb := { (setValid s false).tb with stepNext := some (.add (-((setValid s false).tb.offset * 16))) } })
    (by rwa [← clk] at runs) rfl
  refine ⟨counter.trans ?_, stepCnt.trans ?_, timeValid.trans (setValid_timeValid s false)⟩
  · simp only [paceWord, clk, dpl, setValid_false_tb]
  · simp only [setValid_false_tb]

theorem exec_setTime_refused (b : Bool) (refusable : setRefusable s = true) :
    exec (.setTime b) s = .next (orReg s 0x300008 0x10000) := by
  simp [exec, execSetTime, refusable, setRefused]

theorem exec_stepNow_refused (b : Bool) (refusable : setRefusable s = true) :
    exec (.stepNow b) s = .next (orReg s 0x300008 0x10000) := by
  simp [exec, execStepNow, refusable, setRefused]

theorem exec_forceInvalid_rises (ref : timeReference s = true) (auto : tbMode s ≠ 2)
    (good : rf s 0x300000 8 4 ≤ s.tb.good) :
    Gives (.forceInvalid false) s fun t => t.tb.timeValid = true := by
  refine ⟨_, rfl, ?_⟩
  simp only [Bool.false_eq_true, if_false]
  by_cases valid : s.tb.timeValid = true
  · unfold tryRise
    rw [if_neg (by simp [valid])]
    exact valid
  · unfold tryRise
    rw [if_pos ⟨by simpa using valid, ref, rfl, fun both => auto both.1, good⟩]
    exact setValid_timeValid ..

/-- Settles O6. -/
theorem setTimeStepNowAndForceInvalidAct : Obligations.SetTimeStepNowAndForceInvalidAct := by
  unfold Obligations.SetTimeStepNowAndForceInvalidAct
  refine ⟨fun _ free below runs => exec_setTime_loads free below runs, fun _ free runs => exec_stepNow_subtracts free runs,
    fun _ b refusable => ⟨exec_setTime_refused b refusable, exec_stepNow_refused b refusable⟩, fun s => ⟨_, rfl, ?_⟩,
    fun s => ⟨_, rfl, ?_⟩, fun _ ref auto good => exec_forceInvalid_rises ref auto good⟩
  · exact ⟨setValid_timeValid _ false, (setValid_servoKept _ false).forceInvalid⟩
  · exact (tryRise_servoKept _).forceInvalid

/-! ## Seconds -/

theorem RegsKept.foldl {own : Nat → Bool} {α : Type} {f : State → α → State} (kept : ∀ s a, RegsKept own s (f s a))
    (l : List α) (s : State) : RegsKept own s (l.foldl f s) :=
  List.foldlRecOn l f (.refl own s) fun t h a _ => h.trans (kept t a)

theorem raiseOvf_kept (own : Nat → Bool) (s : State) : RegsKept own s (raiseOvf s) :=
  .trans (t := { s with evt := { s.evt with ovfDue := 0 } }) (.of_regs rfl)
    (.foldl (fun t _ => raiseN_kept own t 369 0 []) _ _)

theorem occSub_regs (s : State) (j c n : Nat) : (occSub s j c n).regs = s.regs := by
  unfold occSub
  extract_lets s1 p s2
  repeat' split
  all_goals rfl

theorem releaseHeld_kept (own : Nat → Bool) (s : State) : RegsKept own s (releaseHeld s) := by
  refine .foldl (fun t j => ?_) _ s
  have released (u : State) := RegsKept.foldl (own := own) (fun u (e : Nat × Nat) => .of_regs (occSub_regs u j e.1 e.2))
    (portOf t j).hostHeld u
  dsimp only
  split
  · exact released t
  · exact .trans (t := setPort t j { portOf t j with hostHeld := [] }) (.of_regs rfl) (released _)

theorem mgSend_regs (s : State) (i : TxItem) : (mgSend s i).regs = s.regs := by
  unfold mgSend finishItem
  split
  · exact complete_regs ..
  · rfl

theorem mgDrain_kept (own : Nat → Bool) (s : State) : RegsKept own s (mgDrain s) := by
  unfold mgDrain
  split
  · exact .trans (t := { s with mg := { s.mg with queue := [], paused := false } }) (.of_regs rfl)
      (.foldl (fun t i => .of_regs (mgSend_regs t i)) _ _)
  · exact .refl own s

theorem ctrlBack_kept (own : Nat → Bool) (s : State) : RegsKept own s (ctrlBack s) := by
  unfold ctrlBack
  split
  · exact .refl own s
  · exact .trans (.trans (t := { s with glb := { s.glb with ctrlUntil := 0 } }) (.of_regs rfl) (raiseN_kept own _ _ _ _))
      (.foldl (fun t k => .of_regs (flushCompl_regs ..)) _ _)

/-- What is done before a second's boundary and after it leaves the timebase and the clocks. -/
theorem beforeSecond_timingKept (s : State) : TimingKept s (releaseHeld (raiseOvf s)) :=
  (raiseOvf_quiet s).timingKept.trans (releaseHeld_timingKept _)

theorem afterSecond_timingKept (s : State) : TimingKept s (ctrlBack (mgDrain s)) :=
  (mgDrain_timingKept s).trans (ctrlBack_timingKept _)

/-- n ticks of one pace, without a phase step. -/
def ticksAt (s0 : State) (n inc : Nat) : State :=
  let s1 := levelCount n s0
  { s1 with tb := { s1.tb with counter := s1.tb.counter + n * inc, ticks := s1.tb.ticks + n } }

theorem toBoundary_eq (s : State) : toBoundary s =
    if s.tb.anchorSec < nowSec s then s
    else
      let s0 := tick (levelCount 1 s)
      if s0.tb.anchorSec < nowSec s0 then s0
      else
        let inc := tickInc (paceWord s0 s0.tb.dco)
        ticksAt s0 (ceilDiv ((s0.tb.counter / secUnits + 1) * secUnits - s0.tb.counter) inc) inc := rfl

theorem ticksAt_timeValid (s : State) (n inc : Nat) : (ticksAt s n inc).tb.timeValid = s.tb.timeValid := by
  unfold ticksAt
  dsimp only
  rw [(levelCount_timingKept n s).tb]

theorem toBoundary_timeValid (s : State) : (toBoundary s).tb.timeValid = s.tb.timeValid := by
  have ticked : (tick (levelCount 1 s)).tb.timeValid = s.tb.timeValid :=
    (tick_servoKept _).2.trans (congrArg Tb.timeValid (levelCount_timingKept 1 s).tb)
  rw [toBoundary_eq]
  split
  · rfl
  dsimp only
  split
  · exact ticked
  · rw [ticksAt_timeValid, ticked]

theorem raise_quiet (s : State) (id inst : Nat) (b : Bytes) : Quiet s (raise s id inst b) := raiseSev_quiet ..

/-- What a second does once its boundary is reached (R41, R58). -/
def startSecond (s1 : State) : State :=
  let s2 : State := { s1 with tb := { s1.tb with
    anchorNs := 0, anchorSec := nowSec s1, anchorStep := s1.tb.stepCnt,
    ppsOut := s1.tb.ppsOut || s1.tb.timeValid } }
  let align := s2.tb.timeValid && rb s2 0x1100114 0
  let s3 : State := if align then
      { s2 with loam := { s2.loam with rtcBase := nowSec s2 * 32768, rtcTick := s2.tb.ticks, rtcValid := true,
                                       rtcAlign := nowSec s2 % 2 ^ 32 } }
    else s2
  userTouch (raise s3 48 0 (anchorPayload s3))

theorem exec_taiSecondBoundary (runs : clkRuns s.clk.tbclk = true) : exec .taiSecondBoundary s =
    .next (startSecond (ctrlBack (mgDrain (toBoundary (releaseHeld (raiseOvf s)))))) := by
  show Host.Outcome.next (if _ then _ else _) = _
  rw [if_neg (by simp [runs])]
  rfl

theorem startSecond_tb (s : State) : (startSecond s).tb = { s.tb with
    anchorNs := 0, anchorSec := nowSec s, anchorStep := s.tb.stepCnt, ppsOut := s.tb.ppsOut || s.tb.timeValid } := by
  unfold startSecond
  extract_lets tb2 s2 align loam3 s3
  have raised : (userTouch (raise s3 48 0 (anchorPayload s3))).tb = s3.tb := (raise_quiet s3 48 0 (anchorPayload s3)).tb
  rw [raised]
  unfold s3
  split <;> rfl

theorem startSecond_loam (valid : s.tb.timeValid = true) (follows : rb s 0x1100114 0 = true) :
    (startSecond s).loam = { s.loam with
      rtcBase := nowSec s * 32768, rtcTick := s.tb.ticks, rtcValid := true, rtcAlign := nowSec s % 2 ^ 32 } := by
  unfold startSecond
  extract_lets tb2 s2 align loam3 s3
  have aligned : align = true := Bool.and_eq_true_iff.2 ⟨valid, follows⟩
  have raised : (userTouch (raise s3 48 0 (anchorPayload s3))).loam = s3.loam :=
    (raise_quiet s3 48 0 (anchorPayload s3)).loam
  rw [raised]
  unfold s3
  rw [if_pos aligned]
  rfl

theorem exec_taiSecondBoundary_anchors (runs : clkRuns s.clk.tbclk = true) :
    Gives .taiSecondBoundary s fun t =>
      t.tb.anchorNs = 0 ∧ t.tb.anchorSec = nowSec t ∧ (s.tb.timeValid = true → t.tb.ppsOut = true) := by
  refine ⟨_, exec_taiSecondBoundary runs, ?_⟩
  have valid : (ctrlBack (mgDrain (toBoundary (releaseHeld (raiseOvf s))))).tb.timeValid = s.tb.timeValid := by
    rw [(afterSecond_timingKept _).tb, toBoundary_timeValid, (beforeSecond_timingKept s).tb]
  generalize ctrlBack _ = s1 at valid
  simp only [nowSec, startSecond_tb]
  exact ⟨trivial, trivial, fun was => by simp [valid, was]⟩

theorem exec_taiSecondBoundary_aligns (runs : clkRuns s.clk.tbclk = true) (past : s.tb.anchorSec < nowSec s)
    (was : s.tb.timeValid = true) (follows : rb s 0x1100114 0 = true) :
    Gives .taiSecondBoundary s fun t =>
      t.loam.rtcBase = nowSec s * 32768 ∧ t.loam.rtcTick = t.tb.ticks ∧ t.loam.rtcValid = true := by
  have before := beforeSecond_timingKept s
  have reached : toBoundary (releaseHeld (raiseOvf s)) = releaseHeld (raiseOvf s) := by
    rw [toBoundary_eq, if_pos (by rw [nowSec, before.tb]; exact past)]
  have tb : (ctrlBack (mgDrain (releaseHeld (raiseOvf s)))).tb = s.tb := (afterSecond_timingKept _).tb.trans before.tb
  have regs : RegsKept (fun _ => false) s (ctrlBack (mgDrain (releaseHeld (raiseOvf s)))) :=
    (raiseOvf_kept _ s).trans ((releaseHeld_kept _ _).trans ((mgDrain_kept _ _).trans (ctrlBack_kept _ _)))
  refine ⟨_, exec_taiSecondBoundary runs, ?_⟩
  rw [reached]
  generalize ctrlBack _ = s1 at tb regs
  have asked : rb s1 0x1100114 0 = true := (congrArg (flag · 0) (regs 0x1100114 (by decide) rfl)).trans follows
  rw [startSecond_tb, startSecond_loam (by rw [tb, was]) asked]
  simp only [nowSec, tb, and_self]

/-! ## Leaps -/

theorem exec_leapApply_applies {a : Nat} {n : Int} (change : nextChange s = some (a, n))
    (due : (nowSec s : Int) = applySec a (utcOfs s) n) (leap : n = utcOfs s + 1 ∨ n = utcOfs s - 1) :
    Gives .leapApply s fun t =>
      rd t 0x300080 = putFld (rd s 0x300080) 0 16 (twos 16 n) ∧
      t.tb.lastLeap = some { at_ := a, old := utcOfs s, new := n } ∧ t.tb.flagLeap = none := by
  have other : n ≠ utcOfs s := by omega
  refine ⟨_, rfl, ?_⟩
  simp only [change]
  rw [if_neg (by simp [due, other]), if_pos leap]
  exact ⟨rd_wr_same .., rfl, rfl⟩

theorem leapSchedule_leapExpired (s : State) : (leapSchedule s).tb.leapExpired = s.tb.leapExpired := by
  unfold leapSchedule touchLeap
  repeat' split
  all_goals rfl

theorem exec_tbLeapExpired_notices (due : ((rd s 0x300084).toNat : Int) ≤ utcSec s) (fresh : s.tb.leapExpired = false) :
    Gives .tbLeapExpired s fun t => t.tb.leapExpired = true := by
  refine ⟨_, rfl, (leapSchedule_leapExpired _).trans ?_⟩
  simp [checkExpiry, due, fresh]

/-- Settles O7. -/
theorem secondsAndLeapsAreApplied : Obligations.SecondsAndLeapsAreApplied := by
  unfold Obligations.SecondsAndLeapsAreApplied
  exact ⟨fun _ runs => exec_taiSecondBoundary_anchors runs,
    fun _ runs past was follows => exec_taiSecondBoundary_aligns runs past was follows,
    fun _ _ _ change due leap => exec_leapApply_applies change due leap,
    fun _ due fresh => exec_tbLeapExpired_notices due fresh⟩

/-! ## The servo -/

theorem piLaw_servoKept (s : State) (e16 : Int) : ServoKept s (piLaw s e16) := by
  unfold piLaw
  extract_lets lim integ raw f tb s1
  have stepped : ServoKept s s1 := ⟨rfl, rfl, rfl, rfl⟩
  clear_value s1
  split
  · exact stepped
  · exact stepped.trans (.of_tb (raiseN_tb ..))

theorem servoWith_offset (s : State) (e16 : Int) :
    (servoWith s e16).tb.offset = clampInt (-(2 ^ 31) + 1) (2 ^ 31 - 1) (roundDiv e16 16) ∧
      (servoWith s e16).tb.holdover = s.tb.holdover ∧ (servoWith s e16).tb.lastUpdate = s.tb.lastUpdate := by
  unfold servoWith
  extract_lets tb s1 big steps tb1 s2
  have law : ServoKept s1 s2 := by
    unfold s2
    repeat' split
    · exact .trans (t := { s1 with tb := { s1.tb with stepNext := some (.add (-e16)), stepArmed := false } })
        ⟨rfl, rfl, rfl, rfl⟩ (tick_servoKept _).1
    · exact .of_tb rfl
    · exact piLaw_servoKept s1 e16
  have judged := law.trans (judge_servoKept s2 e16 steps)
  exact ⟨judged.offset, judged.holdover, judged.lastUpdate⟩

theorem endHold_holdover (s : State) : (endHold s).tb.holdover = false := by
  unfold endHold
  split
  · rfl
  · next out => simpa using out

/-- The end of holdover leaves what the offset is taken from. -/
theorem servoOffset_endHold (s : State) (n : Nat) :
    servoOffset { endHold s with tb := { (endHold s).tb with lastUpdate := n } } = servoOffset s := by
  unfold endHold
  split <;> rfl

theorem exec_servoUpdate_takes {e : Int} (own : servoSource s < 6) (offset : servoOffset s = some e) :
    Gives .servoUpdate s fun t =>
      t.tb.offset = clampInt (-(2 ^ 31) + 1) (2 ^ 31 - 1) (roundDiv e 16) ∧ t.tb.holdover = false ∧
      t.tb.lastUpdate = s.tb.counter := by
  refine ⟨_, rfl, ?_⟩
  extract_lets src s0 tb1 s1 s2 s3 lock mit4
  have taken : s2 = servoWith (clearOffsets s1) e := by
    have same : servoOffset s1 = some e := (servoOffset_endHold s _).trans offset
    simp only [s2, same]
  have updated : s1.tb.lastUpdate = s.tb.counter := if_pos own
  obtain ⟨value, hold, update⟩ := servoWith_offset (clearOffsets s1) e
  rw [if_neg (by omega), if_neg (by omega)]
  refine ⟨?_, ?_, ?_⟩
  · exact (congrArg (·.tb.offset) taken).trans value
  · exact (congrArg (·.tb.holdover) taken).trans (hold.trans (endHold_holdover s))
  · exact (congrArg (·.tb.lastUpdate) taken).trans (update.trans updated)

theorem servoHold_holds (s : State) : (servoHold s).tb.holdover = true ∧ (servoHold s).tb.counter = s.tb.counter ∧
    (servoHold s).tb.offset = s.tb.offset := by
  have entered : (enterHold s).tb.holdover = true ∧ (enterHold s).tb.counter = s.tb.counter ∧
      (enterHold s).tb.offset = s.tb.offset := by
    unfold enterHold
    split
    · next held => exact ⟨held, rfl, rfl⟩
    · exact ⟨rfl, rfl, rfl⟩
  unfold servoHold
  dsimp only
  split
  · exact entered
  · exact entered

/-- Settles O8. -/
theorem servoTakesTheMeanOffset : Obligations.ServoTakesTheMeanOffset := by
  unfold Obligations.ServoTakesTheMeanOffset
  refine ⟨fun _ _ own offset => exec_servoUpdate_takes own offset, fun s none => ⟨_, rfl, ?_⟩⟩
  rw [if_pos none]
  exact servoHold_holds (clearOffsets s)

end Sys2Proof.Machine
end

section
/-! SUPPORT. R69 to R75: trigger outputs and capture inputs (O9), and the bits of a word one field of which is replaced. -/

namespace Sys2Proof.Machine

variable {s t u : State}

/-! ## Fields of a word -/

/-- A replaced field holds the new value's bits; the other bits stay. -/
theorem getLsbD_putFld (w : Word) (lo len v : Nat) {i : Nat} (bit : i < 32) :
    (putFld w lo len v).getLsbD i = if lo ≤ i ∧ i < lo + len then v.testBit (i - lo) else w.getLsbD i := by
  have mask : ((2 ^ len - 1) * 2 ^ lo).testBit i = decide (lo ≤ i ∧ i < lo + len) := by
    rw [Nat.testBit_mul_two_pow, Nat.testBit_two_pow_sub_one, ← Bool.decide_and]
    exact decide_eq_decide.2 (by omega)
  have value : (v % 2 ^ len * 2 ^ lo).testBit i = (decide (lo ≤ i ∧ i < lo + len) && v.testBit (i - lo)) := by
    rw [Nat.testBit_mul_two_pow, Nat.testBit_mod_two_pow, ← Bool.and_assoc, ← Bool.decide_and]
    congr 1
    exact decide_eq_decide.2 (by omega)
  simp only [putFld, BitVec.getLsbD_or, BitVec.getLsbD_and, BitVec.getLsbD_not, BitVec.getLsbD_ofNat, bit, mask, value]
  by_cases mem : lo ≤ i ∧ i < lo + len <;> simp only [mem, decide_true, decide_false, if_false] <;> simp

theorem flag_putFld_of_mem (w : Word) (v : Nat) {lo len i : Nat} (bit : i < 32) (mem : lo ≤ i ∧ i < lo + len) :
    flag (putFld w lo len v) i = v.testBit (i - lo) := by
  rw [flag, getLsbD_putFld w lo len v bit, if_pos mem]

theorem flag_putFld_of_notMem (w : Word) (v : Nat) {lo len i : Nat} (bit : i < 32) (out : ¬(lo ≤ i ∧ i < lo + len)) :
    flag (putFld w lo len v) i = flag w i := by
  rw [flag, getLsbD_putFld w lo len v bit, if_neg out, flag]

theorem rd_wrf_same (s : State) (a lo len v : Nat) : rd (wrf s a lo len v) a = putFld (rd s a) lo len v := rd_wr_same ..

theorem rd_wrf_ne (s : State) {a b : Nat} (lo len v : Nat) (h : b ≠ a) : rd (wrf s a lo len v) b = rd s b := rd_wr_ne s _ h

/-! ## Trigger outputs -/

/-- What a pulse leaves of an output behind it. -/
structure PulseKept (n : Nat) (s t : State) : Prop where
  emitted : (ttOutOf t n).emitted = (ttOutOf s n).emitted
  lastFired : (ttOutOf t n).lastFired = (ttOutOf s n).lastFired
  pulse : (ttOutOf t n).pulse = (ttOutOf s n).pulse

theorem PulseKept.trans {n : Nat} (h : PulseKept n s t) (k : PulseKept n t u) : PulseKept n s u :=
  ⟨k.emitted.trans h.emitted, k.lastFired.trans h.lastFired, k.pulse.trans h.pulse⟩

theorem PulseKept.of_ttOut {n : Nat} (h : t.ttOut = s.ttOut) : PulseKept n s t := by
  constructor <;> rw [ttOutOf, h, ← ttOutOf]

theorem setTtOut_pulseKept {n : Nat} {x : TtOut} (emitted : x.emitted = (ttOutOf s n).emitted)
    (lastFired : x.lastFired = (ttOutOf s n).lastFired) (pulse : x.pulse = (ttOutOf s n).pulse) :
    PulseKept n s (setTtOut s n x) := by
  constructor <;> rw [ttOutOf_setTtOut] <;> assumption

theorem ttRecord_pulseKept (s : State) (n typ : Nat) (t16 : Int) : PulseKept n s (ttRecord s n typ t16) := by
  unfold ttRecord
  extract_lets x r edge body seq s1 s2
  split
  · exact .trans (t := setTtOut s n { x with seq := seq, dropped := 0 }) (setTtOut_pulseKept rfl rfl rfl)
      (.of_ttOut (writeRecord_ttOut ..))
  · have counted : s2.ttOut = s1.ttOut := by
      unfold s2
      split <;> simp
    exact .trans (t := s1) (setTtOut_pulseKept rfl rfl rfl) (.of_ttOut ((raiseLim_ttOut ..).trans counted))

theorem ttDone_pulseKept (s : State) (n : Nat) : PulseKept n s (ttDone s n) :=
  .trans (t := orReg s (ttOutA n + 0x24) 16) (.of_ttOut rfl)
    (.trans (t := ttFinish (orReg s (ttOutA n + 0x24) 16) n) (setTtOut_pulseKept rfl rfl rfl)
      (.of_ttOut (raiseN_ttOut ..)))

theorem ttApply_ttOut (s : State) (n : Nat) (ws : List (TtWord × Word)) : (ttApply n ws s).ttOut = s.ttOut := by
  induction ws generalizing s with
  | nil => rfl
  | cons w ws ih => exact (ih _).trans (storeMask_ttOut ..)

theorem ttAdvance_pulseKept (s : State) (n : Nat) (nominal : Int) : PulseKept n s (ttAdvance s n nominal) := by
  unfold ttAdvance
  extract_lets x s2 s1 per x1
  have applied : PulseKept n s s1 := by
    have same : ttOutOf s2 n = ttOutOf s n := congrArg (fun o => tget _ o n) (ttApply_ttOut s n _)
    unfold s1
    split
    · exact .trans (.of_ttOut (ttApply_ttOut s n _))
        (setTtOut_pulseKept (by rw [same]) (by rw [same]) (by rw [same]))
    · exact .of_ttOut rfl
  clear_value s1
  split
  · exact applied.trans (ttDone_pulseKept s1 n)
  · exact applied.trans (setTtOut_pulseKept rfl rfl rfl)

theorem exec_ttOutEnable_starts {n : Fin 16} {ctl : Word} (idle : rb s (ttOutA n) 0 = false)
    (none : (ttOutOf s n).startKept = []) (good : ttBad (storeMask s (ttOutA n) 0xFE ctl) n = false)
    (ahead : (nowT16 s : Int) + 32000 ≤ fireInstant (storeMask s (ttOutA n) 0xFE ctl) n
      (ttStart (storeMask s (ttOutA n) 0xFE ctl) n)) :
    Gives (.ttOutEnable n ctl) s fun t =>
      (ttOutOf t n).running = true ∧ (ttOutOf t n).next = ttStart (storeMask s (ttOutA n) 0xFE ctl) n ∧
      rb t (ttOutA n) 0 = true := by
  generalize starting : storeMask s (ttOutA n) 0xFE ctl = s1 at *
  have now : nowT16 s1 = nowT16 s := by rw [← starting, nowT16, storeMask_tb, nowT16]
  have word (k : Nat) (other : k ≠ 0) : rd (wrf s1 (ttOutA n) 0 1 1) (ttOutA n + k) = rd s1 (ttOutA n + k) :=
    rd_wrf_ne s1 0 1 1 (by omega)
  have start : ttStart (wrf s1 (ttOutA n) 0 1 1) n = ttStart s1 n := by
    simp only [ttStart, word _ (by decide : 4 ≠ 0), word _ (by decide : 8 ≠ 0), word _ (by decide : 12 ≠ 0)]
  have fires (x : TtOut) (nominal : Int) :
      fireInstant (setTtOut (wrf s1 (ttOutA n) 0 1 1) n x) n nominal = fireInstant s1 n nominal := by
    have delay : rd (setTtOut (wrf s1 (ttOutA n) 0 1 1) n x) (ttOutA n + 0x20) = rd s1 (ttOutA n + 0x20) :=
      word _ (by decide)
    simp only [fireInstant, rsf, delay]
  refine ⟨_, rfl, ?_⟩
  simp only [idle, none, starting, List.filter_nil, ttApply, good, Bool.false_eq_true, if_false]
  unfold ttBegin
  extract_lets start1 per soon x s2 first
  have due : soon ≤ first := by
    have started : soon = (nowT16 s : Int) + 32000 := congrArg (fun k : Nat => (k : Int) + 32000) now
    have at_ : first = fireInstant s1 n (ttStart s1 n) := (fires _ _).trans (congrArg _ start)
    rw [at_, started]
    exact ahead
  rw [if_pos due]
  refine ⟨by rw [ttOutOf_setTtOut], by rw [ttOutOf_setTtOut]; exact start, ?_⟩
  show flag (rd (wrf s1 (ttOutA n) 0 1 1) (ttOutA n)) 0 = true
  rw [rd_wrf_same, flag_putFld_of_mem _ _ (by decide) (by decide)]
  decide

theorem exec_ttOutUpdate_stages {n : Fin 16}
    (good : ttBad (ttApply n (ttOutOf s n).staged (ttApply n (ttOutOf s n).startKept s)) n = false)
    (running : (ttOutOf s n).running = true) (noCount : ∀ e ∈ (ttOutOf s n).staged, e.1 ≠ .count) :
    Gives (.ttOutUpdate n) s fun t =>
      (ttOutOf t n).staged = [] ∧ (ttOutOf t n).update = true ∧ (ttOutOf t n).running = true := by
  have counts : (ttOutOf s n).staged.filter (fun e => decide (e.1 = .count)) = [] := by
    simpa [List.filter_eq_nil_iff] using noCount
  refine ⟨_, rfl, ?_⟩
  simp [good, running, counts, ttApply]

theorem exec_ttPulseFire_fires {n : Fin 16} (running : (ttOutOf s n).running = true) (valid : s.tb.timeValid = true) :
    Gives (.ttPulseFire n) s fun t =>
      (ttOutOf t n).emitted = (ttOutOf s n).emitted + 1 ∧ (ttOutOf t n).lastFired = some (ttOutOf s n).next ∧
      (ttOutOf t n).pulse = true := by
  refine ⟨_, rfl, ?_⟩
  extract_lets x nominal at_ per skipped s1 s2 s3
  rw [if_neg (by simp [x, running]), if_neg (by simp [valid])]
  have counted : PulseKept n s1 s2 := .of_ttOut rfl
  have recorded : PulseKept n s2 s3 := by
    unfold s3
    split
    · exact ttRecord_pulseKept ..
    · exact .of_ttOut rfl
  have fired : (ttOutOf s1 n).emitted = (ttOutOf s n).emitted + 1 ∧ (ttOutOf s1 n).lastFired = some (ttOutOf s n).next ∧
      (ttOutOf s1 n).pulse = true := by
    simp [s1, x, nominal]
  have kept {t : State} (h : PulseKept n s3 t) : (ttOutOf t n).emitted = (ttOutOf s n).emitted + 1 ∧
      (ttOutOf t n).lastFired = some (ttOutOf s n).next ∧ (ttOutOf t n).pulse = true := by
    have all := counted.trans (recorded.trans h)
    exact ⟨all.emitted.trans fired.1, all.lastFired.trans fired.2.1, all.pulse.trans fired.2.2⟩
  split
  · exact kept (ttDone_pulseKept s3 n)
  · exact kept (ttAdvance_pulseKept s3 n nominal)

/-! ## Capture inputs -/

theorem ttInRecord_keeps (s : State) (m : Nat) (rising : Bool) :
    (ttInOf (ttInRecord s m rising) m).stamp = (ttInOf s m).stamp ∧
      (ttInOf (ttInRecord s m rising) m).count = (ttInOf s m).count ∧
      (ttInOf (ttInRecord s m rising) m).last = (ttInOf s m).last := by
  unfold ttInRecord
  extract_lets x r flags body seq s1 s2
  split
  · rw [ttInOf, writeRecord_ttIn, ← ttInOf, ttInOf_setTtIn]
    exact ⟨rfl, rfl, rfl⟩
  · have counted : s2.ttIn = s1.ttIn := by
      unfold s2
      split <;> simp
    have noted : ttInOf s1 m = { x with seq := seq, dropped := x.dropped + 1 } :=
      ttInOf_setTtIn s m { x with seq := seq, dropped := x.dropped + 1 }
    rw [ttInOf, raiseLim_ttIn, counted, ← ttInOf, noted]
    exact ⟨rfl, rfl, rfl⟩

theorem exec_ttCapture_stamps {m : Fin 16} {rising : Bool} {sub : Fin 32} (selected : ttEdgeSelected s m rising = true)
    (apart : ∀ l, (ttInOf s m).last = some l → l + 256 ≤ s.tb.ticks * 32 + sub.val) :
    Gives (.ttCapture m rising sub) s fun t =>
      (ttInOf t m).stamp = ((nowT16 s : Int) + sub.val - rsf s (ttInA m + 4) 0 32).toNat ∧
      (ttInOf t m).count = ((ttInOf s m).count + 1) % 2 ^ 32 ∧
      (ttInOf t m).last = some (s.tb.ticks * 32 + sub.val) := by
  refine ⟨_, rfl, ?_⟩
  rw [if_neg (by simp [selected])]
  extract_lets x at_ lost stamp s1
  have taken : lost = false := by
    unfold lost
    split
    · next l last => exact decide_eq_false (Nat.not_lt.2 (apart l last))
    · rfl
  have captured : ttInOf s1 m = { x with last := some at_, stamp := stamp, count := (x.count + 1) % 2 ^ 32 } :=
    ttInOf_setTtIn ..
  rw [if_neg (by simp [taken])]
  beta_reduce
  split
  · obtain ⟨stamped, counted, last⟩ := ttInRecord_keeps s1 m rising
    rw [stamped, counted, last, captured]
    exact ⟨rfl, rfl, rfl⟩
  · rw [captured]
    exact ⟨rfl, rfl, rfl⟩

/-- Settles O9. -/
theorem triggersFireAndCapture : Obligations.TriggersFireAndCapture := by
  unfold Obligations.TriggersFireAndCapture
  refine ⟨fun _ _ _ idle none good ahead => exec_ttOutEnable_starts idle none good ahead, fun s n w v idle => ?_,
    fun s n w v enabled => ⟨_, rfl, ?_⟩, fun _ _ good running noCount => exec_ttOutUpdate_stages good running noCount,
    fun _ _ running valid => exec_ttPulseFire_fires running valid, fun _ _ => rfl,
    fun _ _ _ _ selected apart => exec_ttCapture_stamps selected apart⟩
  · simp [exec, execTtOutStagedWrite, idle]
  · rw [if_pos enabled]
    exact ⟨by simp, rfl⟩

end Sys2Proof.Machine
end

section
/-! SUPPORT. R93 to R97, R537: Lorterno messages (O10). -/

namespace Sys2Proof.Machine

variable {s t u : State}

theorem Counted.raiseN {a n : Nat} (h : Counted s t a n) (id inst : Nat) (ns : List Nat) (plain : eventReg a = false) :
    Counted s (raiseN t id inst ns) a n := by
  rw [Counted, rd_raiseN t id inst ns plain]
  exact h

/-! ## The receiver -/

/-- A message in progress on an input: nothing else differs but the tables of the PPS inputs. -/
def Hunting (p : Nat) (s u : State) (rx : Bytes) : Prop :=
  u = { s with ref := { s.ref with pps := u.ref.pps } } ∧ ppsOf u p = { ppsOf s p with rx := rx }

theorem Hunting.step {p : Nat} {rx : Bytes} (h : Hunting p s u rx) (rx' : Bytes) :
    Hunting p s (setPps u p { ppsOf u p with rx := rx' }) rx' := by
  obtain ⟨frame, hunting⟩ := h
  constructor
  · conv_lhs => rw [setPps, frame]
    rfl
  · rw [ppsOf_setPps, hunting]

theorem byteAt_eq_getElem {m : Bytes} {k : Nat} (inside : k < m.length) : byteAt m k = (m[k]).toNat := by
  simp [byteAt, inside]

theorem be16_zero {a b : Byte} {m : Bytes} : be16 (a :: b :: m) 0 = a.toNat * 256 + b.toNat := by
  simp [be16, subPad, sub, beNat, leNat]
  omega

theorem be16_sync {a b : Byte} {m : Bytes} (sync : be16 (a :: b :: m) 0 = 0x4C54) : a = 0x4C ∧ b = 0x54 := by
  rw [be16_zero] at sync
  have := a.isLt
  have := b.isLt
  constructor <;> apply BitVec.eq_of_toNat_eq <;> simp <;> omega

/-- The bytes of a message of its own length are gathered up to the last, which completes it. -/
theorem huntByte_take {m : Bytes} (sync : be16 m 0 = 0x4C54) (whole : m.length = 6 + byteAt m 3) {k : Nat}
    (inside : k < m.length) :
    huntByte (m.take k) m[k] = if k + 1 = m.length then ([], some m) else (m.take (k + 1), none) := by
  obtain ⟨a, b, rest, rfl⟩ : ∃ a b rest, m = a :: b :: rest := by
    match m, whole with
    | a :: b :: rest, _ => exact ⟨a, b, rest, rfl⟩
    | [_], whole | [], whole => simp at whole; omega
  obtain ⟨rfl, rfl⟩ := be16_sync sync
  match k with
  | 0 => simp [huntByte]
  | 1 =>
    have more : rest ≠ [] := by rintro rfl; simp at whole; omega
    simp [huntByte, more]
  | k + 2 =>
    generalize hm : (0x4C : Byte) :: 0x54 :: rest = m at *
    have len : (m.take (k + 2)).length = k + 2 := by rw [List.length_take]; omega
    have grown : m.take (k + 2) ++ [m[k + 2]] = m.take (k + 3) := by rw [List.take_append_getElem]
    have grownLen : (m.take (k + 3)).length = k + 3 := by rw [List.length_take]; omega
    unfold huntByte
    rw [if_neg (by omega), if_neg (by omega), grown]
    dsimp only
    rw [grownLen]
    by_cases last : k + 3 = m.length
    · have all : m.take (k + 3) = m := List.take_of_length_le (by omega)
      rw [if_pos last, all, if_pos ⟨by omega, by omega⟩]
    · rw [if_neg last]
      by_cases header : 4 ≤ k + 3
      · have third : byteAt (m.take (k + 3)) 3 = byteAt m 3 := by
          simp [byteAt, List.getD_eq_getElem?_getD, List.getElem?_take_of_lt (show 3 < k + 3 by omega)]
        rw [third, if_neg (by omega)]
      · rw [if_neg (by omega)]

/-- From the bytes that are left of a message, the receiver ends with the whole message. -/
theorem todBytes_drop {p : Nat} {m : Bytes} (sync : be16 m 0 = 0x4C54) (whole : m.length = 6 + byteAt m 3) (k : Nat)
    (inside : k < m.length) (gathered : Hunting p s u (m.take k)) :
    ∃ v, Hunting p s v [] ∧ todBytes p (m.drop k) u = wholeMessage v p m := by
  induction len : m.length - k generalizing k u with
  | zero => omega
  | succ n ih =>
    have hunted := huntByte_take sync whole inside
    rw [← List.cons_getElem_drop_succ (h := inside), todBytes, todByte, congrArg PpsIn.rx gathered.2]
    dsimp only
    rw [hunted]
    by_cases last : k + 1 = m.length
    · rw [if_pos last, List.drop_of_length_le (by omega)]
      exact ⟨_, gathered.step [], rfl⟩
    · rw [if_neg last]
      exact ih (k + 1) (by omega) (gathered.step _) (by omega)

/-- A hunting receiver takes a whole message. -/
theorem todBytes_whole {p : Nat} {m : Bytes} (sync : be16 m 0 = 0x4C54) (whole : m.length = 6 + byteAt m 3)
    (hunts : (ppsOf s p).rx = []) : ∃ v, Hunting p s v [] ∧ todBytes p m s = wholeMessage v p m :=
  todBytes_drop sync whole 0 (by omega) ⟨rfl, by rw [List.take_zero, ← hunts]⟩

theorem Hunting.regs {p : Nat} {rx : Bytes} (h : Hunting p s u rx) : u.regs = s.regs := by rw [h.1]

theorem Hunting.rd {p : Nat} {rx : Bytes} (h : Hunting p s u rx) (a : Nat) : rd u a = rd s a := by
  rw [Machine.rd, h.regs, ← Machine.rd]

theorem Hunting.todUsed {p : Nat} {rx : Bytes} (h : Hunting p s u rx) (q : Nat) : todUsed u q = todUsed s q := by
  simp only [Machine.todUsed, paired, primary, rb, rf, h.rd]
  rfl

theorem Hunting.candOfInput {p : Nat} {rx : Bytes} (h : Hunting p s u rx) (q : Nat) :
    candOfInput u q = candOfInput s q := by
  simp only [Machine.candOfInput, paired, rb, h.rd]
  rfl

theorem candOfInput_le (s : State) (p : Fin 2) : candOfInput s p ≤ 1 := by
  unfold candOfInput
  split <;> omega

/-! ## Counts -/

theorem Counted.of_rd {a n : Nat} (same : rd u a = rd s a) (h : Counted u t a n) : Counted s t a n := by
  rwa [Counted, same] at h

theorem msgErr_counted {i : Nat} (cand : i ≤ 1) : Counted s (msgErr s i) (refMsgErrA i) 1 := by
  have plain : eventReg (refMsgErrA i) = false := by interval_cases i <;> decide
  exact (bump_counted s 1 (by unfold refMsgErrA; omega)).raiseN _ _ _ plain

theorem msgWindow_counted {i : Nat} (cand : i ≤ 1) : Counted s (msgWindow s i) (refMsgWindowA i) 1 := by
  have plain : eventReg (refMsgWindowA i) = false := by interval_cases i <;> decide
  exact (bump_counted s 1 (by unfold refMsgWindowA; omega)).raiseN _ _ _ plain

theorem msgErr_ref (s : State) (i : Nat) : (msgErr s i).ref = s.ref := (raiseN_ref ..).trans (bump_ref ..)

theorem msgWindow_ref (s : State) (i : Nat) : (msgWindow s i).ref = s.ref := (raiseN_ref ..).trans (bump_ref ..)

theorem ppsOf_of_ref (p : Nat) (h : t.ref = s.ref) : ppsOf t p = ppsOf s p := by rw [ppsOf, h, ← ppsOf]

/-! ## The commands -/

theorem lorternoOk_sync {m : Bytes} (ok : lorternoOk m = true) : be16 m 0 = 0x4C54 ∧ m.length = 6 + byteAt m 3 := by
  simp only [lorternoOk, Bool.and_eq_true, decide_eq_true_eq] at ok
  omega

theorem exec_lorternoMessage_waits {p : Fin 2} {m : Bytes} (used : todUsed s p = true) (hunts : (ppsOf s p).rx = [])
    (ok : lorternoOk m = true) :
    Gives (.lorternoMessage p m) s fun t =>
      (ppsOf t p).msgs = (ppsOf s p).msgs ++ [{ fin := nowT16 s, bytes := m }] ∧ (ppsOf t p).rx = [] ∧
      t.regs = s.regs := by
  obtain ⟨sync, whole⟩ := lorternoOk_sync ok
  obtain ⟨v, hunting, taken⟩ := todBytes_whole sync whole hunts
  refine ⟨_, rfl, ?_⟩
  have now : nowT16 v = nowT16 s := by rw [hunting.1]; rfl
  rw [taken]
  simp [wholeMessage, hunting.todUsed, used, ok, now, hunting.2]
  exact hunting.regs

theorem exec_lorternoMessage_counts {p : Fin 2} {m : Bytes} (used : todUsed s p = true) (hunts : (ppsOf s p).rx = [])
    (sync : be16 m 0 = 0x4C54) (whole : m.length = 6 + byteAt m 3) (bad : lorternoOk m = false) :
    Gives (.lorternoMessage p m) s fun t =>
      (ppsOf t p).rx = [] ∧ Counted s t (refMsgErrA (candOfInput s p)) 1 := by
  obtain ⟨v, hunting, taken⟩ := todBytes_whole sync whole hunts
  refine ⟨_, rfl, ?_⟩
  rw [taken]
  simp only [wholeMessage, hunting.todUsed, used, bad, hunting.candOfInput, Bool.true_eq_false, Bool.false_eq_true,
    if_false]
  exact ⟨by rw [ppsOf_of_ref p (msgErr_ref ..), hunting.2], (msgErr_counted (candOfInput_le s p)).of_rd (hunting.rd _)⟩

theorem todDiscard_counts {p : Fin 2} (used : todUsed s p = true) (running : 2 ≤ (ppsOf s p).rx.length) :
    (ppsOf (todDiscard s p) p).rx = [] ∧ Counted s (todDiscard s p) (refMsgErrA (candOfInput s p)) 1 := by
  unfold todDiscard
  rw [if_pos ⟨running, used⟩]
  refine ⟨by rw [ppsOf_of_ref _ (msgErr_ref ..), ppsOf_setPps], ?_⟩
  exact (msgErr_counted (candOfInput_le s p)).of_rd rfl

theorem todDiscard_hunting {p : Fin 2} (hunts : (ppsOf s p).rx.length < 2) :
    (ppsOf (todDiscard s p) p).rx = [] ∧ (todDiscard s p).regs = s.regs := by
  unfold todDiscard
  rw [if_neg (by omega)]
  exact ⟨by rw [ppsOf_setPps], rfl⟩

theorem exec_lorternoWindowTimeout_counts {p : Fin 2} {m : LorMsg} {ms : List LorMsg}
    (waiting : (ppsOf s p).msgs = m :: ms) :
    Gives (.lorternoWindowTimeout p) s fun t =>
      (ppsOf t p).msgs = ms ∧ Counted s t (refMsgWindowA (candOfInput s p)) 1 := by
  refine ⟨_, rfl, ?_⟩
  simp only [waiting]
  refine ⟨by rw [ppsOf_of_ref _ (msgWindow_ref ..), ppsOf_setPps], ?_⟩
  exact (msgWindow_counted (candOfInput_le s p)).of_rd rfl

/-- Settles O10. -/
theorem lorternoMessagesAreTakenOrCounted : Obligations.LorternoMessagesAreTakenOrCounted := by
  unfold Obligations.LorternoMessagesAreTakenOrCounted
  exact ⟨fun _ _ _ used hunts ok => exec_lorternoMessage_waits used hunts ok,
    fun _ _ _ used hunts sync whole bad => exec_lorternoMessage_counts used hunts sync whole bad,
    fun _ _ used running => ⟨_, rfl, todDiscard_counts used running⟩,
    fun _ _ used running => ⟨_, rfl, todDiscard_counts used running⟩,
    fun _ _ hunts => ⟨⟨_, rfl, todDiscard_hunting hunts⟩, ⟨_, rfl, todDiscard_hunting hunts⟩⟩,
    fun _ _ _ _ waiting => exec_lorternoWindowTimeout_counts waiting⟩

end Sys2Proof.Machine
end

section
/-! SUPPORT. What REF has measured, which qualification and selection leave as it is (R103 to R113). -/

namespace Sys2Proof.Machine

variable {s t u : State}

/-! ## The registers beside the event counters -/

/-- Every register but the event counters, which any raise may count in. -/
def plainRegs (s : State) (a : Nat) : Word := if eventReg a then 0 else rd s a

theorem plainRegs_of_regs (h : t.regs = s.regs) : plainRegs t = plainRegs s := by
  funext a
  rw [plainRegs, plainRegs, rd, h, ← rd]

theorem plainRegs_of_kept (h : RegsKept (fun _ => false) s t) : plainRegs t = plainRegs s := by
  funext a
  unfold plainRegs
  split
  · rfl
  · exact h a (Bool.not_eq_true _ ▸ ‹_›) rfl

theorem rd_of_plainRegs (h : plainRegs t = plainRegs s) {a : Nat} (plain : eventReg a = false) : rd t a = rd s a := by
  simpa [plainRegs, plain] using congrFun h a

@[simp] theorem plainRegs_raiseN (s : State) (id inst : Nat) (ns : List Nat) :
    plainRegs (raiseN s id inst ns) = plainRegs s := plainRegs_of_kept (raiseN_kept _ s id inst ns)

@[simp] theorem plainRegs_raiseSev (s : State) (id inst sev : Nat) (p : Bytes) :
    plainRegs (raiseSev s id inst sev p) = plainRegs s := plainRegs_of_kept (raiseSev_kept _ s id inst sev p)

@[simp] theorem plainRegs_alarmClear (s : State) (id : Nat) : plainRegs (alarmClear s id) = plainRegs s :=
  plainRegs_of_regs (alarmClear_regs s id)

/-! ## The measured values -/

/-- A candidate without its standing in the two roles. -/
def Cand.measured (c : Cand) : Cand :=
  { c with goodT := 0, goodF := 0, stT := .absent, stF := .absent, outT := false, outF := false }

/-- The inputs of qualification and selection. -/
structure RefInputs where
  pps : Nat → PpsIn
  cands : Nat → Cand
  excl : Nat → List (Nat × Nat)
  pairAgree : Nat
  pairDisc : Bool
  regs : Nat → Word

def refInputs (s : State) : RefInputs where
  pps p := ppsOf s p
  cands i := (candOf s i).measured
  excl d := (dpllOf s d).excl
  pairAgree := s.ref.pairAgree
  pairDisc := s.ref.pairDisc
  regs := plainRegs s

theorem refInputs_of (href : t.ref = s.ref) (hdpl : t.dpl = s.dpl) (hregs : plainRegs t = plainRegs s) :
    refInputs t = refInputs s := by
  unfold refInputs ppsOf candOf dpllOf
  rw [href, hdpl, hregs]

/-- Whatever else a record update replaces does not matter. -/
@[simp] theorem refInputs_mk {pending out fuse stat statHi glb tb ttOut ttIn ref dpl gn lp mg ts rsp nts gnt hif pke ent
    loam brim mit bcp clk evt pmc} (hpps : ref.pps = s.ref.pps) (hcands : ref.cands = s.ref.cands)
    (hagree : ref.pairAgree = s.ref.pairAgree) (hdisc : ref.pairDisc = s.ref.pairDisc) (hd : dpl.d = s.dpl.d) :
    refInputs ⟨pending, out, fuse, s.regs, stat, statHi, glb, tb, ttOut, ttIn, ref, dpl, gn, lp, mg, ts, rsp, nts, gnt,
      hif, pke, ent, loam, brim, mit, bcp, clk, evt, pmc⟩ = refInputs s := by
  simp only [refInputs, ppsOf, candOf, dpllOf, hpps, hcands, hagree, hdisc, hd]
  rfl

@[simp] theorem refInputs_ite {c : Prop} [Decidable c] :
    refInputs (if c then t else u) = if c then refInputs t else refInputs u := apply_ite ..

@[simp] theorem refInputs_raiseN (s : State) (id inst : Nat) (ns : List Nat) :
    refInputs (raiseN s id inst ns) = refInputs s := refInputs_of (by simp) (by simp) (by simp)

@[simp] theorem refInputs_raiseSev (s : State) (id inst sev : Nat) (p : Bytes) :
    refInputs (raiseSev s id inst sev p) = refInputs s := refInputs_of (by simp) (by simp) (by simp)

@[simp] theorem refInputs_alarmClear (s : State) (id : Nat) : refInputs (alarmClear s id) = refInputs s :=
  refInputs_of (by simp) (by simp) (by simp)

@[simp] theorem refInputs_userTouch (s : State) : refInputs (userTouch s) = refInputs s := rfl

@[simp] theorem refInputs_noteStep (s : State) (n : Nat) : refInputs (noteStep s n) = refInputs s := by
  simp [noteStep]

/-! ## The rise and fall of TIME_VALID -/

@[simp] theorem refInputs_refreshServing (s : State) : refInputs (refreshServing s) = refInputs s := by
  simp [refreshServing]

@[simp] theorem refInputs_mitReadyCheck (s : State) : refInputs (mitReadyCheck s) = refInputs s := by
  simp [mitReadyCheck]

@[simp] theorem refInputs_beginRotation (s : State) (cmd : Option KeyCmd) (first : Bool) :
    refInputs (beginRotation s cmd first) = refInputs s := by
  simp [beginRotation]

@[simp] theorem refInputs_setValid (s : State) (v : Bool) : refInputs (setValid s v) = refInputs s := by
  simp [setValid]

@[simp] theorem refInputs_tryRise (s : State) : refInputs (tryRise s) = refInputs s := by
  simp [tryRise]

@[simp] theorem refInputs_endHold (s : State) : refInputs (endHold s) = refInputs s := by
  simp [endHold]

@[simp] theorem refInputs_enterHold (s : State) : refInputs (enterHold s) = refInputs s := by
  simp [enterHold]

@[simp] theorem refInputs_servoHold (s : State) : refInputs (servoHold s) = refInputs s := by
  simp [servoHold]

/-! ## Qualification -/

/-- A candidate with the same measured values. -/
theorem refInputs_setCand (s : State) {i : Nat} {c : Cand} (h : c.measured = (candOf s i).measured) :
    refInputs (setCand s i c) = refInputs s := by
  have cands : (fun k => (candOf (setCand s i c) k).measured) = fun k => (candOf s k).measured := by
    funext k
    by_cases same : k = i
    · rw [same, candOf_setCand, h]
    · rw [candOf_setCand_ne s c same]
  unfold refInputs
  rw [cands]
  rfl

@[simp] theorem refInputs_setRole (s : State) (i role good : Nat) (st : RoleState) :
    refInputs (setRole s i role good st) = refInputs s := by
  have standing (c : Cand) :
      (if role = 0 then { c with goodT := good, stT := st } else { c with goodF := good, stF := st }).measured
        = c.measured := by
    split <;> rfl
  simp [setRole, refInputs_setCand s (standing _)]

@[simp] theorem refInputs_evalRole (s : State) (i role : Nat) : refInputs (evalRole s i role) = refInputs s := by
  have standing (out : Bool) (c : Cand) :
      (if role = 0 then { c with outT := out } else { c with outF := out }).measured = c.measured := by
    split <;> rfl
  simp [evalRole, refInputs_setCand _ (standing _ _)]

@[simp] theorem refInputs_evalAll (is : List Nat) (s : State) : refInputs (evalAll is s) = refInputs s := by
  induction is generalizing s with
  | nil => rfl
  | cons i is ih => simp [evalAll, ih]

/-! ## Selection -/

@[simp] theorem refInputs_takeSelection (s : State) (want : Nat) : refInputs (takeSelection s want) = refInputs s := by
  simp [takeSelection]

theorem refInputs_buildOut {delta : Int} (fits : buildOut s delta = some t) : refInputs t = refInputs s := by
  unfold buildOut at fits
  split at fits
  · cases fits
    rfl
  · split at fits
    · cases fits
      rfl
    · split at fits
      · cases fits
        rfl
      · cases fits

@[simp] theorem refInputs_timeSwitch (s : State) (want : Nat) : refInputs (timeSwitch s want) = refInputs s := by
  unfold timeSwitch
  split
  · simp
  · dsimp only
    split
    · next fits => simp [refInputs_buildOut fits]
    · simp

@[simp] theorem refInputs_selectTime (s : State) : refInputs (selectTime s) = refInputs s := by
  simp [selectTime]

/-- A DPLL that excludes the same candidates. -/
theorem refInputs_setDpll (s : State) {d : Nat} {x : Dpll} (h : x.excl = (dpllOf s d).excl) :
    refInputs (setDpll s d x) = refInputs s := by
  have excl : (fun k => (dpllOf (setDpll s d x) k).excl) = fun k => (dpllOf s k).excl := by
    funext k
    by_cases same : k = d
    · rw [same, dpllOf_setDpll, h]
    · rw [dpllOf_setDpll_ne s x same]
  unfold refInputs
  rw [excl]
  rfl

@[simp] theorem refInputs_dpllTo (s : State) (d : Nat) (st : DpllState) : refInputs (dpllTo s d st) = refInputs s := by
  simp [dpllTo, refInputs_setDpll]

@[simp] theorem refInputs_dpllSwitch (s : State) (d want : Nat) : refInputs (dpllSwitch s d want) = refInputs s := by
  unfold dpllSwitch
  dsimp only
  repeat' split
  all_goals simp [refInputs_setDpll]

@[simp] theorem refInputs_selectDpll (s : State) (d : Nat) : refInputs (selectDpll s d) = refInputs s := by
  simp [selectDpll]

@[simp] theorem refInputs_selectAll (s : State) : refInputs (selectAll s) = refInputs s := by
  simp [selectAll]

@[simp] theorem refInputs_loseRole (s : State) (i role : Nat) : refInputs (loseRole s i role) = refInputs s := by
  simp [loseRole]

@[simp] theorem refInputs_demoteOutput (s : State) : refInputs (demoteOutput s) = refInputs s := by
  simp [demoteOutput]

/-- A received quality level is the candidate's; what it disqualifies or switches measures nothing. -/
theorem refInputs_takeQl (s : State) (i ql raw : Nat) :
    refInputs (takeQl s i ql raw) = refInputs (setCand s i { candOf s i with rxql := qlNorm ql, raw := raw }) := by
  simp [takeQl]

end Sys2Proof.Machine
end

section
/-! SUPPORT. R99 to R102: PPS edges (O11). -/

namespace Sys2Proof.Machine

variable {s t u : State}

/-! ## What a message does not touch -/

/-- The PPS inputs, and the count of missing seconds of one of them. -/
def edgeView (i : Fin 3) (s : State) : (Nat → PpsIn) × Word := (ppsOf s, rd s (refMissA i))

theorem refMissA_plain (i : Fin 3) : eventReg (refMissA i) = false := by
  fin_cases i <;> decide

theorem edgeView_of_refInputs (i : Fin 3) (h : refInputs t = refInputs s) : edgeView i t = edgeView i s :=
  Prod.ext (congrArg RefInputs.pps h) (rd_of_plainRegs (congrArg RefInputs.regs h) (refMissA_plain i))

@[simp] theorem edgeView_ite {c : Prop} [Decidable c] (i : Fin 3) :
    edgeView i (if c then t else u) = if c then edgeView i t else edgeView i u := apply_ite ..

@[simp] theorem edgeView_setCand (i : Fin 3) (s : State) (k : Nat) (c : Cand) :
    edgeView i (setCand s k c) = edgeView i s := rfl

@[simp] theorem edgeView_selectAll (i : Fin 3) (s : State) : edgeView i (selectAll s) = edgeView i s :=
  edgeView_of_refInputs i (refInputs_selectAll s)

@[simp] theorem edgeView_setRole (i : Fin 3) (s : State) (k role good : Nat) (st : RoleState) :
    edgeView i (setRole s k role good st) = edgeView i s := edgeView_of_refInputs i (refInputs_setRole ..)

@[simp] theorem edgeView_loseRole (i : Fin 3) (s : State) (k role : Nat) :
    edgeView i (loseRole s k role) = edgeView i s := edgeView_of_refInputs i (refInputs_loseRole ..)

@[simp] theorem edgeView_takeQl (i : Fin 3) (s : State) (k ql raw : Nat) :
    edgeView i (takeQl s k ql raw) = edgeView i s := by
  rw [edgeView_of_refInputs i (refInputs_takeQl ..), edgeView_setCand]

@[simp] theorem edgeView_takeSecond (i : Fin 3) (s : State) (k sec : Nat) :
    edgeView i (takeSecond s k sec) = edgeView i s := by
  unfold takeSecond
  dsimp only
  split <;> simp

@[simp] theorem edgeView_noSecond (i : Fin 3) (s : State) (k : Nat) : edgeView i (noSecond s k) = edgeView i s := by
  simp [noSecond]

theorem refInputs_leapSchedule (s : State) : refInputs (leapSchedule s) = refInputs s := by
  simp [leapSchedule, touchLeap]

theorem refInputs_statedOffset (s : State) (k : Nat) (o : Int) : refInputs (statedOffset s k o) = refInputs s := by
  simp [statedOffset]

@[simp] theorem edgeView_takeUtc (i : Fin 3) (s : State) (k : Nat) (ofs : Option Int) (l61 l59 : Bool) :
    edgeView i (takeUtc s k ofs l61 l59) = edgeView i s := by
  have leap (t : State) := edgeView_of_refInputs i (refInputs_leapSchedule t)
  have stated (t : State) (o : Int) := edgeView_of_refInputs i (refInputs_statedOffset t k o)
  cases ofs <;> simp [takeUtc, leap, stated]

@[simp] theorem edgeView_useMessage (i : Fin 3) (s : State) (k : Nat) (m : Bytes) :
    edgeView i (useMessage s k m) = edgeView i s := by
  simp [useMessage]

theorem edgeView_raise_bump (i : Fin 3) (s : State) {a : Nat} (other : refMissA i ≠ a) (n id inst : Nat)
    (ns : List Nat) : edgeView i (raiseN (bump s a n) id inst ns) = edgeView i s := by
  rw [edgeView_of_refInputs i (refInputs_raiseN ..)]
  exact Prod.ext (funext fun p => ppsOf_of_ref p (bump_ref ..)) (rd_bump_ne s n other (by unfold refMissA; omega))

@[simp] theorem edgeView_msgErr (i : Fin 3) (s : State) (k : Nat) : edgeView i (msgErr s k) = edgeView i s :=
  edgeView_raise_bump i s (by unfold refMissA refMsgErrA; omega) ..

@[simp] theorem edgeView_msgWindow (i : Fin 3) (s : State) (k : Nat) : edgeView i (msgWindow s k) = edgeView i s :=
  edgeView_raise_bump i s (by unfold refMissA refMsgWindowA; omega) ..

@[simp] theorem edgeView_msgWindows (i : Fin 3) (n : Nat) (s : State) (k : Nat) :
    edgeView i (msgWindows n s k) = edgeView i s := by
  induction n generalizing s with
  | zero => rfl
  | succ n ih => rw [msgWindows, ih, edgeView_msgWindow]

/-- Judging takes the waiting messages and leaves the edges. -/
theorem edgeView_judgeMessages (i : Fin 3) (s : State) (p edge : Nat) :
    edgeView i (judgeMessages s p edge) = edgeView i (setPps s p { ppsOf s p with msgs := [] }) := by
  unfold judgeMessages
  dsimp only
  split <;> simp

theorem ppsOf_judgeMessages (s : State) (p edge : Nat) :
    ppsOf (judgeMessages s p edge) p = { ppsOf s p with msgs := [] } := by
  exact (congrFun (congrArg Prod.fst (edgeView_judgeMessages 0 s p edge)) p).trans (ppsOf_setPps ..)

theorem rd_judgeMessages (s : State) (p edge : Nat) (i : Fin 3) :
    rd (judgeMessages s p edge) (refMissA i) = rd s (refMissA i) :=
  congrArg Prod.snd (edgeView_judgeMessages i s p edge)

/-! ## Edges -/

@[simp] theorem ppsOf_ppsOffset (s : State) (i : Nat) (delay : Int) (edge p : Nat) :
    ppsOf (ppsOffset s i delay edge) p = ppsOf s p := by
  unfold ppsOffset
  dsimp only
  repeat' split
  all_goals rfl

theorem exec_ppsEdge_acquires {p : Fin 2} {sub : Fin 32} (hunts : (ppsOf s p).expected = none) :
    Gives (.ppsEdge p sub) s fun t =>
      ∃ ms, ppsOf t p = { acquireEdge (ppsOf s p) (nowT16 s + sub.val) with msgs := ms } := by
  refine ⟨_, rfl, ?_⟩
  simp only [hunts]
  split
  · exact ⟨[], by rw [ppsOf_judgeMessages, ppsOf_setPps]⟩
  · exact ⟨_, by rw [ppsOf_setPps]⟩

/-- An accepted edge, but for the messages, which it takes. -/
def PpsIn.takeEdge (x : PpsIn) (edge : Nat) : PpsIn :=
  { x with accepted := some edge, expected := some (edge + 16000000000), missRun := 0, outRun := [], outSeen := false }

theorem ppsOf_acceptEdge (s : State) (p edge : Nat) :
    ∃ ms, ppsOf (acceptEdge s p edge) p = { (ppsOf s p).takeEdge edge with msgs := ms } := by
  unfold acceptEdge
  dsimp only
  repeat' split
  · exact ⟨[], by rw [ppsOf_judgeMessages, ppsOf_setPps]; rfl⟩
  · exact ⟨_, by rw [ppsOf_setPps]; rfl⟩
  · exact ⟨[], by rw [ppsOf_ppsOffset, ppsOf_judgeMessages, ppsOf_setPps]; rfl⟩

theorem exec_ppsEdge_accepts {p : Fin 2} {sub : Fin 32} {e : Nat} (expects : (ppsOf s p).expected = some e)
    (inside : (((nowT16 s + sub.val : Nat) : Int) - e).natAbs ≤ winOf s p) :
    Gives (.ppsEdge p sub) s fun t =>
      (ppsOf t p).accepted = some (nowT16 s + sub.val) ∧
      (ppsOf t p).expected = some (nowT16 s + sub.val + 16000000000) ∧ (ppsOf t p).missRun = 0 := by
  refine ⟨_, rfl, ?_⟩
  simp only [expects]
  rw [if_pos inside]
  obtain ⟨ms, taken⟩ := ppsOf_acceptEdge s p (nowT16 s + sub.val)
  rw [taken]
  exact ⟨rfl, rfl, rfl⟩

/-! ## Missing seconds -/

/-- A missing second ends roles and counts; the PPS inputs stay. -/
theorem edgeView_missCount (s : State) (i : Fin 3) (run : Nat) :
    edgeView i (missCount s i run) = edgeView i (raiseN (bump s (refMissA i) 1) 85 i [i.val]) := by
  simp [missCount]

theorem missCount_counted (s : State) (i : Fin 3) (run : Nat) : Counted s (missCount s i run) (refMissA i) 1 := by
  have raised := (bump_counted s 1 (by unfold refMissA; omega)).raiseN 85 i [i.val] (refMissA_plain i)
  exact (congrArg Prod.snd (edgeView_missCount s i run)).trans raised

theorem ppsOf_missCount (s : State) (i : Fin 3) (run p : Nat) : ppsOf (missCount s i run) p = ppsOf s p := by
  exact (congrFun (congrArg Prod.fst (edgeView_missCount s i run)) p).trans
    (ppsOf_of_ref p ((raiseN_ref ..).trans (bump_ref ..)))

theorem exec_missingSecond_counts {i : Fin 3} (channel : i ≠ 2) (alone : paired s = false) :
    Gives (.missingSecond i) s fun t =>
      (ppsOf t i).missRun = (ppsOf s i).missRun + 1 ∧ (ppsOf t i).accepted = none ∧
      (ppsOf t i).expected = (ppsOf s i).expected.map (· + 16000000000) ∧ Counted s t (refMissA i) 1 := by
  refine ⟨_, rfl, ?_⟩
  dsimp only
  rw [if_neg (by omega), if_neg (by simp [alone])]
  generalize (ppsOf s i).expected.getD (nowT16 s) = edge
  have missed : ppsOf (judgeMessages (setPps s i (ppsOf s i).missed) i edge) i = { (ppsOf s i).missed with msgs := [] } := by
    rw [ppsOf_judgeMessages, ppsOf_setPps]
  have count : rd (judgeMessages (setPps s i (ppsOf s i).missed) i edge) (refMissA i) = rd s (refMissA i) :=
    rd_judgeMessages (setPps s i (ppsOf s i).missed) i edge i
  rw [ppsOf_missCount, missed]
  exact ⟨rfl, rfl, rfl, (missCount_counted _ i _).of_rd count⟩

/-! ## Pairs -/

theorem primary_le (s : State) : primary s ≤ 1 := Nat.le_of_lt_succ (Nat.mod_lt _ (by decide))

@[simp] theorem ppsOffset_pairAgree (s : State) (i : Nat) (delay : Int) (edge : Nat) :
    (ppsOffset s i delay edge).ref.pairAgree = s.ref.pairAgree := by
  unfold ppsOffset
  dsimp only
  repeat' split
  all_goals rfl

theorem exec_refPairCompare_agrees {a b : Nat} (pairs : paired s = true)
    (first : (ppsOf s (primary s)).accepted = some a) (second : (ppsOf s (1 - primary s)).accepted = some b)
    (near : (((b : Int) - delayOf s (1 - primary s)) - ((a : Int) - delayOf s (primary s))).natAbs
      ≤ rf s 0x400028 16 14 * 16) :
    Gives .refPairCompare s fun t =>
      t.ref.pairAgree = min 16 (s.ref.pairAgree + 1) ∧ (ppsOf t (primary s)).accepted = none := by
  refine ⟨_, rfl, ?_⟩
  dsimp only
  rw [if_neg (by simp [pairs])]
  simp only [first, second]
  rw [if_pos near]
  have taken (x : PpsIn) :
      (ppsOf (setPps (setPps s (primary s) { ppsOf s (primary s) with accepted := none }) (1 - primary s) x)
        (primary s)).accepted = none := by
    have := primary_le s
    rw [ppsOf_setPps_ne _ _ (by omega), ppsOf_setPps]
  split
  · have kept {t : State} (id p : Nat) : ppsOf (alarmClear t id) p = ppsOf t p := ppsOf_of_ref p (alarmClear_ref ..)
    exact ⟨by simp, by rw [kept, ppsOf_ppsOffset]; exact taken _⟩
  · exact ⟨by simp, by rw [ppsOf_ppsOffset]; exact taken _⟩

/-- Settles O11. -/
theorem ppsEdgesAreAccepted : Obligations.PpsEdgesAreAccepted := by
  unfold Obligations.PpsEdgesAreAccepted
  refine ⟨fun s p sub hunts alone => ?_, fun s p sub hunts follows => ?_, fun _ _ _ _ expects inside =>
    exec_ppsEdge_accepts expects inside, fun _ _ channel alone => exec_missingSecond_counts channel alone,
    fun _ _ _ pairs first second near => exec_refPairCompare_agrees pairs first second near⟩
  · obtain ⟨t, next, ms, edge⟩ := exec_ppsEdge_acquires (sub := sub) hunts
    have waits : ((ppsOf s p).recent.any fun f => secondApart f (nowT16 s + sub.val)) = false := by simpa using alone
    refine ⟨t, next, ?_⟩
    beta_reduce
    rw [edge]
    simp [acquireEdge, waits]
  · obtain ⟨t, next, ms, edge⟩ := exec_ppsEdge_acquires (sub := sub) hunts
    have acquires : ((ppsOf s p).recent.any fun f => secondApart f (nowT16 s + sub.val)) = true := by
      simpa using follows
    refine ⟨t, next, ?_⟩
    beta_reduce
    rw [edge]
    simp [acquireEdge, acquires]

end Sys2Proof.Machine
end

section
/-! SUPPORT. What reaches the candidates (O12), the DPLLs and holdover (O13); the request of a commit that fits. -/

namespace Sys2Proof.Machine

variable {s t u : State}

/-! ## Commits that fit (R374, R375, R378) -/

theorem takeToken_isSome (s : State) (cls : Nat) :
    (takeToken s cls).isSome = match budget cls with
      | none => true
      | some (period, burst) => decide (period ≤ budgetLevel s cls period burst) := by
  unfold takeToken
  cases budget cls with
  | none => rfl
  | some b =>
    dsimp only
    split
    · next short => exact (decide_eq_false (Nat.not_le_of_lt short)).symm
    · next enough => exact (decide_eq_true (Nat.le_of_not_lt enough)).symm

/-- Whether a commit fits is settled by the store, the ticks and the reset that waits. -/
theorem CommitFits.congr {cls : Nat} (fits : CommitFits s cls) (loam : t.loam = s.loam) (ticks : t.tb.ticks = s.tb.ticks)
    (deferred : t.glb.deferred = s.glb.deferred) : CommitFits t cls := by
  obtain ⟨powered, space, token⟩ := fits
  refine ⟨?_, ?_, ?_⟩
  · rw [powerFailing, loam, deferred]
    exact powered
  · rw [noSpace, loam]
    exact space
  · rw [takeToken_isSome] at token ⊢
    simp only [budgetLevel, loam, ticks] at token ⊢
    exact token

/-- A commit that its class has room and a token for is queued; the token is all that it takes. -/
theorem requestCommit_fits {c : Commit} (fits : CommitFits s c.cls) :
    ∃ tokens, requestCommit s c true
      = ({ s with loam := { s.loam with tokens := tokens, queue := s.loam.queue ++ [c] } }, none) := by
  obtain ⟨powered, space, token⟩ := fits
  obtain ⟨s1, taken⟩ := Option.isSome_iff_exists.mp token
  have tokens : ∃ tokens, s1 = { s with loam := { s.loam with tokens := tokens } } := by
    unfold takeToken at taken
    split at taken
    · exact ⟨s.loam.tokens, (Option.some.inj taken).symm⟩
    · dsimp only at taken
      split at taken
      · cases taken
      · exact ⟨_, (Option.some.inj taken).symm⟩
  obtain ⟨tokens, rfl⟩ := tokens
  exact ⟨tokens, by simp [requestCommit, powered, space, taken]⟩

theorem fwCommit_fits {cls : Nat} {segs : List Nat} {p : Option Payload} (fits : CommitFits s cls) :
    ∃ tokens, fwCommit s cls segs p = { s with loam := { s.loam with
      tokens := tokens,
      queue := s.loam.queue ++ [{ by_ := .firmware, cls := cls, segs := segs, payload := p }] } } := by
  obtain ⟨tokens, queued⟩ := requestCommit_fits (c := { by_ := .firmware, cls := cls, segs := segs, payload := p }) fits
  exact ⟨tokens, by rw [fwCommit, queued]⟩

/-! ## Candidates -/

/-- What was measured of a candidate stands in the measured values. -/
theorem candOf_of_refInputs (h : refInputs t = refInputs s) (i : Nat) :
    (candOf t i).measured = (candOf s i).measured := congrFun (congrArg RefInputs.cands h) i

/-- An input that is present makes its candidates present and no other absent. -/
theorem takeFreq_present (ks : List Nat) (s : State) :
    (∀ k ∈ ks, (candOf (takeFreq true ks s) k).presFreq = true) ∧
      ∀ k, (candOf s k).presFreq = true → (candOf (takeFreq true ks s) k).presFreq = true := by
  induction ks generalizing s with
  | nil => exact ⟨by simp, fun _ h => h⟩
  | cons i is ih =>
    have taken (k : Nat) (h : k = i ∨ (candOf s k).presFreq = true) :
        (candOf (setCand s i { candOf s i with presFreq := true }) k).presFreq = true := by
      by_cases same : k = i
      · rw [same, candOf_setCand]
      · rw [candOf_setCand_ne _ _ same]
        exact h.resolve_left same
    obtain ⟨here, kept⟩ := ih (setCand s i { candOf s i with presFreq := true })
    refine ⟨fun k hk => ?_, fun k h => kept k (taken k (.inr h))⟩
    obtain rfl | later := List.mem_cons.mp hk
    · exact kept k (taken k (.inl rfl))
    · exact here k later

theorem takeQl_rxql (s : State) (i ql raw : Nat) : (candOf (takeQl s i ql raw) i).rxql = qlNorm ql := by
  have measured := candOf_of_refInputs (refInputs_takeQl s i ql raw) i
  rw [candOf_setCand] at measured
  exact congrArg Cand.rxql measured

/-- The frequencies of an evaluation are taken one by one. -/
theorem candOf_takeFreqs (fs : List Int) (s : State) (n i : Nat) :
    (candOf ((List.range n).foldl (fun t i => setCand t i { candOf t i with freq := fs.getD i (candOf t i).freq }) s) i)
      = if i < n then { candOf s i with freq := fs.getD i (candOf s i).freq } else candOf s i := by
  induction n with
  | zero => rfl
  | succ n ih =>
    rw [List.range_succ, List.foldl_append, List.foldl_cons, List.foldl_nil]
    by_cases last : i = n
    · subst last
      rw [candOf_setCand, if_pos (Nat.lt_succ_self i), ih, if_neg (Nat.lt_irrefl i)]
    · rw [candOf_setCand_ne _ _ last, ih]
      congr 1
      exact propext ⟨fun h => by omega, fun h => by omega⟩

@[simp] theorem candOf_exclTick (s : State) (d i : Nat) : candOf (exclTick s d) i = candOf s i := rfl

theorem exec_refEvaluate_freq (s : State) (fs : List Int) :
    Gives (.refEvaluate fs) s fun t => ∀ i, i < 6 → (candOf t i).freq = fs.getD i (candOf s i).freq := by
  refine ⟨_, rfl, ?_⟩
  extract_lets s0 s1 s2
  have judged (i : Nat) (known : i < 6) :
      candOf s0 i = { candOf s i with freq := fs.getD i (candOf s i).freq } :=
    (candOf_takeFreqs fs s 6 i).trans (if_pos known)
  have evaluated : refInputs s1 = refInputs s0 := (refInputs_evalRole ..).trans (refInputs_evalAll ..)
  have selected (i : Nat) : (candOf s2 i).measured = (candOf s1 i).measured := by
    rw [candOf_of_refInputs (refInputs_selectAll _) i, candOf_exclTick, candOf_exclTick, candOf_exclTick]
  clear_value s0 s1 s2
  intro i known
  have freq : (candOf s2 i).freq = fs.getD i (candOf s i).freq :=
    (congrArg Cand.freq ((selected i).trans (candOf_of_refInputs evaluated i))).trans
      (congrArg Cand.freq (judged i known))
  split
  · rw [← freq]
    unfold noteStep
    split <;> rfl
  · exact freq

/-- Settles O12. -/
theorem referenceInputsReachTheirCandidates : Obligations.ReferenceInputsReachTheirCandidates := by
  unfold Obligations.ReferenceInputsReachTheirCandidates
  refine ⟨fun s i f within => ⟨_, rfl, ?_⟩, fun s k => ⟨_, rfl, takeQl_rxql ..⟩, fun s unselected => ⟨_, rfl, ?_⟩,
    exec_refEvaluate_freq⟩
  · simp only [within, decide_true]
    exact (takeFreq_present _ s).1
  · simp only [unselected]
    exact takeQl_rxql ..

/-! ## DPLL states -/

theorem dpllOf_of_dpl (h : t.dpl.d = s.dpl.d) (d : Nat) : dpllOf t d = dpllOf s d := by rw [dpllOf, h, ← dpllOf]

theorem dpllTo_st (s : State) (d : Nat) (st : DpllState) : (dpllOf (dpllTo s d st) d).st = st := by
  unfold dpllTo
  extract_lets x enters x1 s1 d1 s2 s3
  split
  · assumption
  · next other =>
    have taken : dpllOf s3 d = x1 := by
      rw [dpllOf_of_dpl (s := s1) _ d, dpllOf_setDpll]
      simp only [s3, s2, raiseN_dpl]
      split <;> rfl
    have raised (id : Nat) (ns : List Nat) : dpllOf (raiseN s3 id 0 ns) d = x1 := by
      rw [dpllOf_of_dpl (s := s3) (by rw [raiseN_dpl]) d, taken]
    repeat' split
    · rw [raised]
    · rw [dpllOf_of_dpl (s := raiseN s3 58 0 [0]) (by rw [alarmClear_dpl]) d, raised]
    · rw [taken]

theorem exec_dplLockloss_excludes {d : Fin 3} (locked : (dpllOf s d).st = .narrow ∨ (dpllOf s d).st = .track) :
    Gives (.dplLockloss d) s fun t => ((dpllOf s d).sel, 0) ∈ (dpllOf t d).excl := by
  refine ⟨_, rfl, ?_⟩
  dsimp only
  rw [if_pos locked]
  have selected (t : State) : (dpllOf (selectAll t) d).excl = (dpllOf t d).excl :=
    congrFun (congrArg RefInputs.excl (refInputs_selectAll t)) d.val
  have demoted (t : State) : (dpllOf (demoteOutput t) d).excl = (dpllOf t d).excl :=
    congrFun (congrArg RefInputs.excl (refInputs_demoteOutput t)) d.val
  have raised (t : State) : (dpllOf (raiseN t 60 d [d.val]) d).excl = (dpllOf t d).excl :=
    congrFun (congrArg RefInputs.excl (refInputs_raiseN ..)) d.val
  have moved (t : State) : (dpllOf (dpllTo t d .holdover) d).excl = (dpllOf t d).excl :=
    congrFun (congrArg RefInputs.excl (refInputs_dpllTo ..)) d.val
  rw [selected, demoted, raised, moved, dpllOf_setDpll]
  simp

theorem setValid_dpl (s : State) (v : Bool) : (setValid s v).dpl = s.dpl :=
  ((within_setValid (ps := validParts) (fun _ h => h) v).2 .refl) .dpl (by decide)

theorem exec_holdoverSteer_model {temp : Int} {m : HistModel} (holds : (dpllOf s 0).st = .holdover)
    (model : s.dpl.model = some m) :
    Gives (.holdoverSteer temp) s fun t =>
      t.dpl.temp = temp ∧ (dpllOf t 0).freq = (dpllOf s 0).fEntry
        + modelPpt (modelNum m (nowSec s) temp - modelNum m s.dpl.d0Sec s.dpl.d0Temp) := by
  refine ⟨_, rfl, ?_⟩
  extract_lets d s1 x
  have same : dpllOf s1 0 = dpllOf s 0 := rfl
  simp only [x, same, holds, model, dpllOf_setDpll]
  exact ⟨rfl, trivial⟩

/-- The estimate of a second is what DPL keeps, whether TIME_VALID falls or not. -/
theorem exec_hoErrUpdate_dpl (s : State) (temp : Int) :
    Gives (.hoErrUpdate temp) s fun t => t.dpl = { s.dpl with
      temp := temp, hoErr := errorEstimate s temp, hoT := if s.tb.holdover then s.dpl.hoT + 1 else s.dpl.hoT } := by
  refine ⟨_, rfl, ?_⟩
  extract_lets e d s1
  beta_reduce
  split
  · rw [setValid_dpl]
    rfl
  · rfl

/-- Settles O13. -/
theorem kaolinFollowsItsStates : Obligations.KaolinFollowsItsStates := by
  unfold Obligations.KaolinFollowsItsStates
  refine ⟨fun s d acquires => ⟨_, rfl, ?_⟩, fun s d narrows => ⟨_, rfl, ?_⟩, fun _ _ locked =>
    exec_dplLockloss_excludes locked, fun _ _ _ holds model => exec_holdoverSteer_model holds model,
    fun s temp never => ?_, fun s temp ever holds => ?_, fun s f temp tracks known good => ⟨_, rfl, ?_⟩,
    fun s m model fits => ⟨_, rfl, ?_⟩⟩
  · beta_reduce
    rw [if_pos acquires, dpllTo_st]
  · beta_reduce
    rw [if_pos narrows, dpllTo_st]
  · obtain ⟨t, next, kept⟩ := exec_hoErrUpdate_dpl s temp
    refine ⟨t, next, ?_⟩
    beta_reduce
    rw [kept]
    exact ⟨if_pos never, rfl⟩
  · obtain ⟨t, next, kept⟩ := exec_hoErrUpdate_dpl s temp
    refine ⟨t, next, ?_⟩
    beta_reduce
    rw [kept]
    exact ⟨if_pos holds, (if_neg (by simp [ever])).trans (if_pos holds)⟩
  · beta_reduce
    rw [if_pos ⟨tracks, known, good⟩]
    exact ⟨rfl, rfl⟩
  · obtain ⟨tokens, queued⟩ := fwCommit_fits (segs := [0]) (p := none) fits
    simp only [model, Option.isSome_some, if_true, queued]
    rfl

end Sys2Proof.Machine
end

section
/-! SUPPORT. The rings beside the event rings: raising an event leaves them as they are, but for whether they are armed
(R325, R479), and what a completion and a record move of their ring (R308, R320). -/

namespace Sys2Proof.Machine

variable {s t u : State}

/-- The rings of the events (R479). -/
abbrev EventRing (r : Nat) : Prop := 160 ≤ r ∧ r ≤ 167

/-- Every ring but those of the events, and but for the flag that a vector clears. -/
def rings (s : State) (r : Nat) : Ring := if EventRing r then Ring.cold else { ringOf s r with armed := false }

theorem rings_congr (h : ∀ r, ({ ringOf t r with armed := false } : Ring) = { ringOf s r with armed := false }) :
    rings t = rings s := by
  funext r
  unfold rings
  rw [h r]

theorem rings_of_hif (h : t.hif.rings = s.hif.rings) : rings t = rings s :=
  rings_congr fun r => by rw [ringOf, ringOf, h]

/-- A ring is as it was, but perhaps armed no more. -/
theorem ringOf_of_rings (h : rings t = rings s) {r : Nat} (beside : ¬EventRing r) :
    ringOf t r = { ringOf s r with armed := (ringOf t r).armed } := by
  have same := congrFun h r
  simp only [rings, if_neg beside] at same
  cases ht : ringOf t r
  cases hs : ringOf s r
  rw [ht, hs] at same
  cases same
  rfl

theorem ring_st_of_rings (h : rings t = rings s) {r : Nat} (beside : ¬EventRing r) : (ringOf t r).st = (ringOf s r).st := by
  rw [ringOf_of_rings h beside]

theorem ring_q_of_rings (h : rings t = rings s) {r : Nat} (beside : ¬EventRing r) : (ringOf t r).q = (ringOf s r).q := by
  rw [ringOf_of_rings h beside]

theorem ring_c_of_rings (h : rings t = rings s) {r : Nat} (beside : ¬EventRing r) : (ringOf t r).c = (ringOf s r).c := by
  rw [ringOf_of_rings h beside]

theorem ring_fetched_of_rings (h : rings t = rings s) {r : Nat} (beside : ¬EventRing r) :
    (ringOf t r).fetched = (ringOf s r).fetched := by
  rw [ringOf_of_rings h beside]

theorem ring_compl_of_rings (h : rings t = rings s) {r : Nat} (beside : ¬EventRing r) :
    (ringOf t r).compl = (ringOf s r).compl := by
  rw [ringOf_of_rings h beside]

@[simp] theorem rings_ite {c : Prop} [Decidable c] : rings (if c then t else u) = if c then rings t else rings u :=
  apply_ite ..

theorem rings_foldl {α : Type} {f : State → α → State} (step : ∀ s a, rings (f s a) = rings s) (l : List α) (s : State) :
    rings (l.foldl f s) = rings s := by
  induction l generalizing s with
  | nil => rfl
  | cons a l ih => rw [List.foldl_cons, ih, step]

@[simp] theorem rings_bump (s : State) (a n : Nat) : rings (bump s a n) = rings s := by
  rw [bump_regs]
  rfl

theorem rings_setRing_event (s : State) {r : Nat} (event : EventRing r) (g : Ring) : rings (setRing s r g) = rings s := by
  funext k
  by_cases same : k = r
  · rw [same, rings, rings, if_pos event, if_pos event]
  · rw [rings, rings, ringOf_setRing_ne s g same]

/-! ## Vectors and performance counters -/

theorem tget_map {α : Type} {d : Nat → α} {f : Nat → α → α} (fixed : ∀ k, f k (d k) = d k) (t : Tab α) (k : Nat) :
    tget d (t.map fun e => (e.1, f e.1 e.2)) k = f k (tget d t k) := by
  induction t with
  | nil => exact (fixed k).symm
  | cons e t ih =>
    obtain ⟨a, v⟩ := e
    simp only [List.map_cons, tget]
    split
    · next same => rw [same]
    · exact ih

/-- A ring as the vector leaves it. -/
def disarmed (s : State) (v r : Nat) (g : Ring) : Ring := if ringVec s r = v then { g with armed := false } else g

theorem rings_vecFire (s : State) (v : Nat) : rings (vecFire s v) = rings s := by
  have entry (e : Nat × Ring) : (if ringVec s e.1 = v then (e.1, { e.2 with armed := false }) else e)
      = (e.1, disarmed s v e.1 e.2) := by
    unfold disarmed
    split <;> rfl
  have cold (k : Nat) : disarmed s v k Ring.cold = Ring.cold := by
    unfold disarmed
    split <;> rfl
  unfold vecFire
  split
  · rfl
  · refine rings_congr fun r => ?_
    simp only [entry]
    have after : ringOf (emit (setVec { s with hif := { s.hif with
        rings := s.hif.rings.map fun e => (e.1, disarmed s v e.1 e.2) } } v Vec.cold)
        (.msix v (msixTlp s v) (msixData s v))) r = disarmed s v r (ringOf s r) := tget_map cold s.hif.rings r
    refine (congrArg (fun g : Ring => ({ g with armed := false } : Ring)) after).trans ?_
    unfold disarmed
    split <;> rfl

theorem rings_vecRaise (s : State) (v n : Nat) : rings (vecRaise s v n) = rings s := by
  unfold vecRaise
  extract_lets x x1 s1 m
  split
  · exact rings_vecFire s1 v
  · rfl

theorem rings_noteCompl (s : State) (r : Nat) : rings (noteCompl s r) = rings s := by
  unfold noteCompl
  split
  · exact rings_vecRaise ..
  · rfl

theorem pmcAddAll_hif (n : Nat) (ks : List Nat) (s : State) : (pmcAddAll n ks s).1.hif = s.hif := by
  induction ks generalizing s with
  | nil => rfl
  | cons k ks ih => exact ih _

theorem dmaBytes_hif (s : State) (n : Nat) : (dmaBytes s n).hif = s.hif := pmcAddAll_hif ..

/-! ## Completions -/

/-- A ring with one more completion written at Q. -/
def Ring.wrote (g : Ring) (size : Nat) : Ring :=
  { g with q := g.q + 1, phase := if decide (g.q.toNat % size = size - 1) then !g.phase else g.phase }

theorem rings_writeCompl (s : State) (r idx status : Nat) (body : Bytes) :
    rings (writeCompl s r idx status body) = rings (setRing s r ((ringOf s r).wrote (ringSize s r))) :=
  (rings_noteCompl ..).trans (rings_of_hif (congrArg Hif.rings (dmaBytes_hif ..)))

theorem rings_writeCompl_event (s : State) {r : Nat} (event : EventRing r) (idx status : Nat) (body : Bytes) :
    rings (writeCompl s r idx status body) = rings s := by
  rw [rings_writeCompl, rings_setRing_event s event]

/-! ## Events -/

theorem rings_writeEvent (s : State) {r : Nat} (event : EventRing r) (typ id sev part parts stamp : Nat) (p : Bytes) :
    rings (writeEvent s r typ id sev part parts stamp p) = rings s := by
  unfold writeEvent
  dsimp only
  rw [rings_writeCompl_event _ event]
  split <;> rfl

theorem rings_writeParts {r : Nat} (event : EventRing r) (typ id sev parts stamp n : Nat) (s : State) (p : Bytes) :
    rings (writeParts r typ id sev parts stamp n s p) = rings s := by
  induction n generalizing s p with
  | zero => rfl
  | succ n ih => rw [writeParts, ih, rings_writeEvent s event]

theorem rings_tickOrder (s : State) (r parts : Nat) : rings (tickOrder s r parts) = rings s := by
  unfold tickOrder
  dsimp -zeta only
  extract_lets m s1 new l
  split <;> rfl

theorem rings_writeTogether (s : State) {r : Nat} (event : EventRing r) (typ id sev parts stamp : Nat) (p : Bytes) :
    rings (writeTogether s r typ id sev parts stamp p) = rings s := by
  unfold writeTogether
  dsimp only
  split
  · rw [rings_tickOrder, rings_writeParts event]
  · exact rings_writeParts event ..

theorem rings_flushPend (n : Nat) (s : State) {r : Nat} (event : EventRing r) : rings (flushPend n s r) = rings s := by
  induction n generalizing s with
  | zero => rfl
  | succ n ih =>
    unfold flushPend
    split
    · split
      · rfl
      · rw [ih, rings_writeEvent _ event]
        rfl
    · rfl

theorem rings_deliver (s : State) (typ id sev stamp : Nat) (p : Bytes) :
    rings (deliver s typ id sev stamp p).s = rings s := by
  have event : EventRing (srcRing s id) := srcRing_range s id
  unfold deliver
  dsimp only
  repeat' split
  · exact rings_bump ..
  · rw [rings_bump]
    exact rings_flushPend _ s event
  · exact rings_flushPend _ s event
  · rw [rings_writeTogether _ event, rings_flushPend _ s event]
  · exact rings_flushPend _ s event
  · rw [rings_writeTogether _ event, rings_flushPend _ s event]

theorem rings_alarmRaise (s : State) (id inst sev : Nat) : rings (alarmRaise s id inst sev) = rings s := by
  unfold alarmRaise
  dsimp only
  repeat' split
  all_goals rfl

theorem rings_raiseFuel (n : Nat) (s : State) (id inst sev : Nat) (p : Bytes) :
    rings (raiseFuel n s id inst sev p) = rings s := by
  induction n generalizing s id inst sev p with
  | zero => rfl
  | succ n ih =>
    have counted := rings_of_hif (congrArg Hif.rings (pmcAddAll_hif 1 (pmcCounting s id 31) s))
    unfold raiseFuel
    rcases hp : pmcAddAll 1 (pmcCounting s id 31) s with ⟨s1, ovfs⟩
    rw [hp] at counted
    dsimp -zeta only
    extract_lets s2 y s3 d s4
    have alarmed : rings s3 = rings s := by
      show rings s2 = rings s
      rw [rings_ite, rings_alarmRaise, ite_self, counted]
    have delivered : rings d.s = rings s := by
      show rings (Delivery.s (if y.summary then _ else _)) = rings s
      split
      · exact alarmed
      · rw [rings_deliver, alarmed]
    rw [rings_foldl fun t _ => ih t ..]
    show rings (if d.startsCoalescing then _ else _) = rings s
    rw [rings_ite, ih, ite_self, delivered]

@[simp] theorem rings_raiseSev (s : State) (id inst sev : Nat) (p : Bytes) :
    rings (raiseSev s id inst sev p) = rings s := (rings_of_hif rfl).trans (rings_raiseFuel 4 s id inst sev p)

@[simp] theorem rings_raiseN (s : State) (id inst : Nat) (ns : List Nat) : rings (raiseN s id inst ns) = rings s :=
  rings_raiseSev ..

@[simp] theorem rings_raiseLim (s : State) (id inst lim : Nat) (ns : List Nat) :
    rings (raiseLim s id inst lim ns) = rings s := by
  unfold raiseLim
  extract_lets k prev
  split
  · rfl
  · rw [rings_raiseN]
    rfl

@[simp] theorem rings_pmcSignal (s : State) (sig qual n : Nat) : rings (pmcSignal s sig qual n) = rings s := by
  have counted := rings_of_hif (congrArg Hif.rings (pmcAddAll_hif n (pmcCounting s sig qual) s))
  unfold pmcSignal
  rcases hp : pmcAddAll n (pmcCounting s sig qual) s with ⟨s1, ovfs⟩
  rw [hp] at counted
  exact (rings_foldl (fun t _ => rings_raiseN t ..) ovfs s1).trans counted

@[simp] theorem rings_hostWrite (s : State) (r idx addr : Nat) (b : Bytes) : rings (hostWrite s r idx addr b) = rings s :=
  (rings_pmcSignal ..).trans rfl

@[simp] theorem rings_hostRead (s : State) (r idx addr n : Nat) : rings (hostRead s r idx addr n) = rings s :=
  (rings_pmcSignal ..).trans rfl

/-! ## Records -/

/-- A record fits by the state of its ring, its indices and its size. -/
theorem ringSize_congr {r : Nat} (plain : plainRegs t = plainRegs s) (known : r < 256) : ringSize t r = ringSize s r := by
  have reg : eventReg (ringA r + 0x10) = false := by
    unfold eventReg ringA
    simp
    omega
  rw [ringSize, rf, rd_of_plainRegs plain reg]
  rfl

theorem recordFits_congr {r : Nat} (beside : ¬EventRing r) (known : r < 256) (same : rings t = rings s)
    (plain : plainRegs t = plainRegs s) : recordFits t r = recordFits s r := by
  have size := ringSize_congr plain known
  simp only [recordFits, ringFree, ringUsed, size, ring_st_of_rings same beside, ring_q_of_rings same beside,
    ring_c_of_rings same beside]
  rfl

/-- A record that fits is written at Q. -/
theorem writeRecord_fits {r : Nat} (fits : recordFits s r = true) (body : Bytes) :
    writeRecord s r body = writeCompl s r (ringOf s r).q.toNat stOk body := by
  simp only [recordFits, Bool.and_eq_true, decide_eq_true_eq] at fits
  obtain ⟨running, free⟩ := fits
  unfold writeRecord
  dsimp only
  rw [if_pos running, if_pos free]

theorem ringOf_writeCompl {r : Nat} (beside : ¬EventRing r) (idx status : Nat) (body : Bytes) :
    ∃ armed, ringOf (writeCompl s r idx status body) r = { (ringOf s r).wrote (ringSize s r) with armed := armed } := by
  have ring := ringOf_of_rings (rings_writeCompl s r idx status body) beside
  rw [ringOf_setRing] at ring
  exact ⟨_, ring⟩

end Sys2Proof.Machine
end

section
/-! SUPPORT. R129 to R148: the GNSS front end (O14), its channels and epochs (O15). -/

namespace Sys2Proof.Machine

variable {s t u : State}

/-! ## The front end -/

theorem bandOf_of_gn (h : t.gn = s.gn) (b : Nat) : bandOf t b = bandOf s b := by rw [bandOf, h, ← bandOf]

@[simp] theorem bandOf_raiseN (s : State) (id inst : Nat) (ns : List Nat) (b : Nat) :
    bandOf (raiseN s id inst ns) b = bandOf s b := bandOf_of_gn (raiseN_gn ..) b

theorem bandOf_bandLost (s : State) (b : Nat) : bandOf (bandLost s b) b = { bandOf s b with lost := true } := by
  unfold bandLost
  split
  · next lost => rw [← lost]
  · dsimp only
    rw [bandOf_raiseN, bandOf_setBand]

theorem exec_gnIfMeasure_judges {b : Fin 2} {hz : Nat} (on : bandOn s b = true) :
    Gives (.gnIfMeasure b hz) s fun t => (bandOf t b).meas = hz ∧
      (200 * (bandRate s b * 1000) < ((hz : Int) - (bandRate s b * 1000 : Nat)).natAbs * 1000000 →
        (bandOf t b).lost = true) := by
  refine ⟨_, rfl, ?_⟩
  dsimp only
  rw [if_neg (by simp [on])]
  split
  · rw [bandOf_bandLost, bandOf_setBand]
    exact ⟨rfl, fun _ => rfl⟩
  · next near =>
    rw [bandOf_setBand]
    exact ⟨rfl, fun far => absurd far near⟩

theorem exec_gnIfRestored_restores {b : Fin 2} (on : bandOn s b = true) (lost : (bandOf s b).lost = true) :
    Gives (.gnIfRestored b) s fun t => (bandOf t b).lost = false := by
  refine ⟨_, rfl, ?_⟩
  dsimp only
  rw [if_neg (by simp [on, lost])]
  split
  · rw [bandOf_raiseN, bandOf_setBand]
  · rw [bandOf_of_gn (alarmClear_gn ..), bandOf_raiseN, bandOf_setBand]

/-- Settles O14. -/
theorem gnssFrontEndTakesEffect : Obligations.GnssFrontEndTakesEffect := by
  unfold Obligations.GnssFrontEndTakesEffect
  refine ⟨fun _ _ _ on => exec_gnIfMeasure_judges on, fun s b on => ⟨_, rfl, ?_⟩, fun _ _ on lost =>
    exec_gnIfRestored_restores on lost, fun s fitted idle unheld unscripted => ⟨_, rfl, ?_⟩, fun s rx fitted => ?_,
    fun s fitted => ⟨_, rfl, ?_⟩⟩
  · beta_reduce
    rw [if_pos on, bandOf_bandLost]
  · simp only [fitted, idle, unheld, unscripted]
    exact ⟨rfl, rfl⟩
  · show Host.Outcome.next (if s.fuse.gnssAbsent then s else _) = _
    rw [if_neg (by simp [fitted])]
  · dsimp only
    rw [if_neg (by simp [fitted])]
    split <;> rfl

/-! ## Navigation units and reports -/

theorem gnRecord_fits {r : Nat} (fits : recordFits s r = true) (body : Bytes) :
    gnRecord s r body = writeCompl s r (ringOf s r).q.toNat stOk body := by
  have running : (ringOf s r).st = .running := by
    simp only [recordFits, Bool.and_eq_true, decide_eq_true_eq] at fits
    exact fits.1
  rw [gnRecord, if_neg (by simp [running]), if_pos fits, writeRecord_fits fits]

theorem gnRecord_gn (s : State) (r : Nat) (body : Bytes) : (gnRecord s r body).gn = s.gn :=
  ((within_gnRecord (ps := []) r body).2 .refl) .gn (by decide)

theorem exec_gnNavUnit_records {c : Fin 128} {bits : List Bool} {starts : List Nat} (runs : gnRuns s = true)
    (reports : rb s 0x500000 4 = true) (some : 0 < bits.length) (one : bits.length ≤ 96)
    (fits : recordFits s 157 = true) :
    Gives (.gnNavUnit c bits starts) s fun t => (ringOf t 157).q = (ringOf s 157).q + 1 := by
  refine ⟨_, rfl, ?_⟩
  extract_lets check s1 parts
  have single : parts = 1 := by
    simp only [parts, ceilDiv]
    omega
  rw [if_neg (by simp [runs]), if_pos reports, single]
  have beside : ¬EventRing 157 := by decide
  have same : rings s1 = rings s := by simp [s1]
  have plain : plainRegs s1 = plainRegs s := by
    simp only [s1]
    split
    · exact plainRegs_raiseN ..
    · rfl
  have fits1 : recordFits s1 157 = true := (recordFits_congr beside (by decide) same plain).trans fits
  simp only [navParts]
  rw [gnRecord_fits fits1]
  obtain ⟨armed, ring⟩ := ringOf_writeCompl (s := s1) beside (ringOf s1 157).q.toNat stOk _
  rw [ring]
  exact congrArg (· + 1) (ring_q_of_rings same beside)

/-- A ring of at least 64 entries has taken k more completions than the host has read. -/
structure Unread (c : BitVec 16) (r k : Nat) (s : State) : Prop where
  running : (ringOf s r).st = .running
  read : (ringOf s r).c = c
  written : (ringOf s r).q = c + BitVec.ofNat 16 k
  size : 64 ≤ ringSize s r

theorem Unread.fits {c : BitVec 16} {r k : Nat} (h : Unread c r k s) (few : k < 63) : recordFits s r = true := by
  have used : ringUsed (ringOf s r) = k := by
    rw [ringUsed, h.read, h.written, BitVec.add_comm, BitVec.add_sub_cancel, BitVec.toNat_ofNat]
    omega
  have size := h.size
  simp only [recordFits, ringFree, h.running, used, if_true, decide_true, Bool.true_and, decide_eq_true_eq]
  omega

theorem Unread.gnRecord {c : BitVec 16} {r k : Nat} (h : Unread c r k s) (beside : ¬EventRing r) (few : k < 63)
    (body : Bytes) : Unread c r (k + 1) (gnRecord s r body) := by
  rw [gnRecord_fits (h.fits few)]
  obtain ⟨armed, ring⟩ := ringOf_writeCompl (s := s) beside (ringOf s r).q.toNat stOk body
  refine ⟨?_, ?_, ?_, ?_⟩
  · rw [ring]
    exact h.running
  · rw [ring]
    exact h.read
  · rw [ring]
    refine (congrArg (· + 1) h.written).trans ?_
    rw [BitVec.ofNat_add, BitVec.add_assoc]
    rfl
  · rw [ringSize, rf, rd, writeCompl_regs]
    exact h.size

theorem Unread.istoRecord {c : BitVec 16} {k : Nat} (h : Unread c 158 k s) (few : k < 63) (pair : Nat) :
    Unread c 158 (k + 1) (istoRecord s pair) := h.gnRecord (by decide) few _

theorem exec_gnIstoReport_records (runs : gnRuns s = true) (running : (ringOf s 158).st = .running)
    (read : (ringOf s 158).q = (ringOf s 158).c) (size : 64 ≤ ringSize s 158) :
    Gives .gnIstoReport s fun t => (ringOf t 158).q = (ringOf s 158).q + 4 := by
  refine ⟨_, rfl, ?_⟩
  beta_reduce
  rw [if_pos runs]
  simp only [List.foldl_cons, List.foldl_nil]
  have none : Unread (ringOf s 158).c 158 0 s := ⟨running, rfl, by simp [read], size⟩
  have all := (((none.istoRecord (by decide) 0).istoRecord (by decide) 1).istoRecord (by decide) 2).istoRecord
    (by decide) 3
  rw [all.written, read]
  rfl

/-! ## Epochs -/

/-- What an epoch shows of its solution. -/
def epochView (s : State) : Bool × Nat × Nat := (s.gn.valid, s.gn.startUnc, s.gn.sats)

theorem epochView_of_gn (h : t.gn = s.gn) : epochView t = epochView s := by rw [epochView, h, ← epochView]

@[simp] theorem epochView_ite {c : Prop} [Decidable c] :
    epochView (if c then t else u) = if c then epochView t else epochView u := apply_ite ..

@[simp] theorem epochView_raiseN (s : State) (id inst : Nat) (ns : List Nat) :
    epochView (raiseN s id inst ns) = epochView s := epochView_of_gn (raiseN_gn ..)

@[simp] theorem epochView_wrf (s : State) (a lo len v : Nat) : epochView (wrf s a lo len v) = epochView s := rfl

theorem epochView_setSolution (s : State) (v : Bool) : epochView (setSolution s v) = (v, s.gn.startUnc, s.gn.sats) := by
  unfold setSolution
  split
  · next same => rw [epochView, same]
  · rw [epochView_raiseN]
    rfl

@[simp] theorem epochView_setSound (s : State) (v : Bool) : epochView (setSound s v) = epochView s := by
  unfold setSound
  extract_lets good s1
  split
  · rfl
  · rw [epochView_raiseN]
    rfl

@[simp] theorem epochView_gnCommit (s : State) : epochView (gnCommit s) = epochView s := by
  have committed (t : State) (cls : Nat) (segs : List Nat) (p : Option Payload) :
      epochView (fwCommit t cls segs p) = epochView t :=
    epochView_of_gn (((within_fwCommit (ps := [.loam]) (by decide) cls segs p).2 .refl) .gn (by decide))
  unfold gnCommit
  extract_lets g1 s1 s2
  have first : epochView s2 = epochView s := committed ..
  split
  · exact first
  · rw [committed, first]

@[simp] theorem epochView_surveyEnd (s : State) (sol : Solution) : epochView (surveyEnd s sol) = epochView s := by
  unfold surveyEnd
  rw [epochView_gnCommit, epochView_raiseN]
  rfl

@[simp] theorem epochView_osnmaTo (s : State) (o : Osnma) (cause : Nat) : epochView (osnmaTo s o cause) = epochView s := by
  unfold osnmaTo
  extract_lets s1
  split
  · rfl
  · rw [epochView_setSound, osnmaRecord, epochView_of_gn (gnRecord_gn ..), epochView_raiseN]
    rfl

@[simp] theorem epochView_osnmaEval (s : State) : epochView (osnmaEval s) = epochView s := by
  simp [osnmaEval]

/-- The state that an epoch's satellites are counted in. -/
def epochChannels (s : State) (sol : Solution) : State :=
  noteUsed (istoTakeAll 0 (sol.isto.take 4)
    (sol.chans.foldl takeMeas (sol.assigns.foldl takeAssign (manualStarts (osnmaEpoch s sol)))))

theorem exec_gnEpoch_view {sol : Solution} (runs : gnRuns s = true) (awake : s.gn.sleeping = false) :
    Gives (.gnEpoch sol) s fun t => epochView t =
      (sol.solved && decide (satsNeeded (epochChannels s sol) ≤ (satsUsed (epochChannels s sol)).length), sol.startUnc,
        (satsUsed (epochChannels s sol)).length) := by
  refine ⟨_, rfl, ?_⟩
  extract_lets s1 s2 sats single unc need valid fixedMode mismatch g2 s3 good s4 s5 s6 s7
  rw [if_neg (by simp [runs, awake])]
  have solved : epochView s4 = (valid, sol.startUnc, sats) :=
    (epochView_setSound ..).trans (epochView_setSolution ..)
  have survey : epochView s5 = epochView s4 := by simp [s5]
  have warned : epochView s6 = epochView s5 := by simp [s6]
  have moved : epochView s7 = epochView s6 := by simp [s7]
  beta_reduce
  rw [epochView_osnmaEval, moved, warned, survey, solved]
  rfl

/-! ## The message and the raw PPS -/

theorem refTakesMessage_gn (s : State) (m : PpsMeas) : (refTakesMessage s m).gn = s.gn :=
  ((within_refTakesMessage (ps := selectionParts) (fun _ h => h) m).2 .refl) .gn (by decide)

theorem exec_gnPpsMessage_msg {m : PpsMeas} (runs : gnRuns s = true) (valid : s.gn.valid = true)
    (awake : s.gn.sleeping = false) :
    Gives (.gnPpsMessage m) s fun t =>
      t.gn.ppsSeq = (s.gn.ppsSeq + 1) % 2 ^ 32 ∧ t.gn.msg = (if m.late then none else some (m.taiSec, ppsQuant s m)) := by
  refine ⟨_, rfl, ?_⟩
  extract_lets s1 g1 s2 s3 g3
  have delivers : ¬(gnRuns s = false ∨ s.gn.valid = false ∨ s.gn.sleeping = true) := by simp [runs, valid, awake]
  rw [if_neg delivers]
  have recorded : s1.gn = s.gn := gnRecord_gn ..
  have taken : s3.gn = s2.gn := by
    simp only [s3]
    split
    · rfl
    · exact refTakesMessage_gn ..
  have stated : s2.gn.ppsSeq = (s.gn.ppsSeq + 1) % 2 ^ 32 ∧
      s2.gn.msg = if m.late then none else some (m.taiSec, ppsQuant s m) := by
    rw [← recorded]
    exact ⟨rfl, rfl⟩
  rw [← taken] at stated
  by_cases waits : s3.gn.startWait = true
  · rw [if_pos waits]
    beta_reduce
    rw [raiseN_gn]
    exact stated
  · rw [if_neg waits]
    exact stated

theorem presTime_of_refInputs (h : refInputs t = refInputs s) (i : Nat) :
    (candOf t i).presTime = (candOf s i).presTime := by
  have measured := congrArg Cand.presTime (candOf_of_refInputs h i)
  exact measured

theorem takeSecond_presTime (s : State) (i sec : Nat) :
    (candOf (takeSecond s i sec) i).presTime = (candOf s i).presTime := by
  have selected (t : State) (role good : Nat) (st : RoleState) :
      (candOf (selectAll (setRole t i role good st)) i).presTime = (candOf t i).presTime :=
    presTime_of_refInputs ((refInputs_selectAll _).trans (refInputs_setRole ..)) i
  unfold takeSecond
  extract_lets c s1
  have taken : (candOf s1 i).presTime = (candOf s i).presTime := by
    simp only [s1]
    split <;> rw [candOf_setCand]
  split
  · rw [selected, taken]
  · exact taken

theorem takeSecond_gn (s : State) (i sec : Nat) : (takeSecond s i sec).gn = s.gn :=
  ((within_takeSecond (ps := selectionParts) (fun _ h => h) i sec).2 .refl) .gn (by decide)

theorem gnssAccept_takes (s : State) (t sec : Nat) :
    (gnssAccept s t sec).gn.msg = none ∧ (candOf (gnssAccept s t sec) 2).presTime = true ∧
      ppsOf (gnssAccept s t sec) 2 = (ppsOf s 2).takeEdge t := by
  unfold gnssAccept
  extract_lets g1 x1 s1 c1 s2
  have edge : ppsOf (takeSecond s2 2 sec) 2 = ppsOf s1 2 :=
    congrFun (congrArg Prod.fst (edgeView_takeSecond 2 s2 2 sec)) 2
  have present : (candOf (takeSecond s2 2 sec) 2).presTime = true := by rw [takeSecond_presTime, candOf_setCand]
  refine ⟨?_, ?_, ?_⟩
  · exact congrArg Gn.msg (takeSecond_gn s2 2 sec)
  · rw [takeOffset, takeOffsetOf, candOf_setCand]
    exact present
  · exact edge.trans (ppsOf_setPps ..)

theorem exec_gnRawPps_accepts {sub : Fin 32} {sec e : Nat} {q : Int} (runs : gnRuns s = true)
    (valid : s.gn.valid = true) (awake : s.gn.sleeping = false) (message : s.gn.msg = some (sec, q))
    (expects : (ppsOf s 2).expected = some e)
    (inside : (((((nowT16 s + sub.val : Nat) : Int) + q).toNat : Int) - e).natAbs ≤ winOf s 2) :
    Gives (.gnRawPps sub) s fun t => t.gn.msg = none ∧ (ppsOf t 2).missRun = 0 ∧ (candOf t 2).presTime = true ∧
      (ppsOf t 2).accepted = some (((nowT16 s + sub.val : Nat) : Int) + q).toNat := by
  refine ⟨_, rfl, ?_⟩
  extract_lets s1
  have same : s1.gn = s.gn ∧ ppsOf s1 2 = ppsOf s 2 ∧ winOf s1 2 = winOf s 2 := ⟨rfl, rfl, rfl⟩
  obtain ⟨gn, pps, win⟩ := same
  rw [if_neg (by simp [runs, valid, awake])]
  simp only [gn, message, pps, expects, win]
  rw [if_pos inside]
  obtain ⟨taken, present, edge⟩ := gnssAccept_takes s1 (((nowT16 s + sub.val : Nat) : Int) + q).toNat sec
  rw [edge]
  exact ⟨taken, rfl, present, rfl⟩

/-- Settles O15. -/
theorem gnssChannelsAndEpochsTakeEffect : Obligations.GnssChannelsAndEpochsTakeEffect := by
  unfold Obligations.GnssChannelsAndEpochsTakeEffect
  refine ⟨fun s c hz searches near => ?_, fun s c hz far => ?_, fun s c => rfl, fun s c pulls => ⟨_, rfl, ?_⟩,
    fun s c lost => ?_, fun _ _ _ _ runs reports some one fits => exec_gnNavUnit_records runs reports some one fits,
    fun s sol runs awake unsolved => ?_, fun s sol runs awake solved noAssigns noChans noIsto enough => ?_,
    fun _ runs running read size => exec_gnIstoReport_records runs running read size,
    fun _ _ runs valid awake => exec_gnPpsMessage_msg runs valid awake,
    fun _ _ _ _ _ runs valid awake message expects inside =>
      exec_gnRawPps_accepts runs valid awake message expects inside⟩
  · exact congrArg Host.Outcome.next (if_pos ⟨searches, near⟩)
  · exact congrArg Host.Outcome.next (if_neg (by omega))
  · dsimp only
    rw [if_pos pulls, chanOf_setChan]
    exact ⟨rfl, rfl, rfl⟩
  · exact congrArg Host.Outcome.next (if_pos lost)
  · obtain ⟨t, next, view⟩ := exec_gnEpoch_view (sol := sol) runs awake
    rw [unsolved] at view
    exact ⟨t, next, congrArg Prod.fst view, congrArg (·.2.1) view⟩
  · obtain ⟨t, next, view⟩ := exec_gnEpoch_view (sol := sol) runs awake
    have channels : epochChannels s sol = noteUsed (manualStarts (osnmaEpoch s sol)) := by
      simp [epochChannels, noAssigns, noChans, noIsto, istoTakeAll]
    rw [solved, channels, decide_eq_true enough] at view
    exact ⟨t, next, congrArg Prod.fst view, congrArg (·.2.2) view⟩

end Sys2Proof.Machine
end

section
/-! SUPPORT. R149 to R157: OSNMA, starts, sleep and the GNSS record (O16). -/

namespace Sys2Proof.Machine

variable {s t u : State}

/-! ## What a change of OSNMA leaves -/

/-- The parts of the baseband that a change of OSNMA leaves: its run, its channels' states and the DSM-KROOT. -/
structure GnRun where
  valid : Bool
  startType : StartType
  startWait : Bool
  sleeping : Bool
  refreshing : Bool
  kroot : Option Kroot
  kept : GnRec
  chanSt : Nat → ChState

def gnRun (s : State) : GnRun where
  valid := s.gn.valid
  startType := s.gn.startType
  startWait := s.gn.startWait
  sleeping := s.gn.sleeping
  refreshing := s.gn.refreshing
  kroot := s.gn.kroot
  kept := s.gn.kept
  chanSt c := (chanOf s c).st

theorem gnRun_of_gn (h : t.gn = s.gn) : gnRun t = gnRun s := by
  simp only [gnRun, chanOf, h]

@[simp] theorem gnRun_raiseN (s : State) (id inst : Nat) (ns : List Nat) : gnRun (raiseN s id inst ns) = gnRun s :=
  gnRun_of_gn (raiseN_gn ..)

theorem tget_map_proj {α β : Type} {d : Nat → α} {f : Nat × α → α} {g : α → β} (same : ∀ e, g (f e) = g e.2)
    (t : Tab α) (k : Nat) : g (tget d (t.map fun e => (e.1, f e)) k) = g (tget d t k) := by
  induction t with
  | nil => rfl
  | cons e t ih =>
    obtain ⟨a, v⟩ := e
    simp only [List.map_cons, tget]
    split
    · exact same (a, v)
    · exact ih

/-- A channel's entry with its AUTH as the state has it. -/
def authNoted (s : State) (e : Nat × Chan) : Chan := { e.2 with auth := chanAuth s e.1 }

@[simp] theorem gnRun_noteAuth (s : State) : gnRun (noteAuth s) = gnRun s := by
  have chans (c : Nat) : (chanOf (noteAuth s) c).st = (chanOf s c).st :=
    tget_map_proj (f := authNoted s) (g := Chan.st) (fun _ => rfl) s.gn.chans c
  simp only [gnRun, chans]
  rfl

@[simp] theorem gnRun_setSound (s : State) (v : Bool) : gnRun (setSound s v) = gnRun s := by
  unfold setSound
  extract_lets good g1 s1
  split
  · rfl
  · rw [gnRun_raiseN]
    rfl

@[simp] theorem gnRun_osnmaTo (s : State) (o : Osnma) (cause : Nat) : gnRun (osnmaTo s o cause) = gnRun s := by
  unfold osnmaTo
  extract_lets g1 s1
  have first : gnRun s1 = gnRun s := gnRun_noteAuth _
  split
  · exact first
  · rw [gnRun_setSound, osnmaRecord, gnRun_of_gn (gnRecord_gn ..), gnRun_raiseN, first]

@[simp] theorem gnRun_osnmaEval (s : State) : gnRun (osnmaEval s) = gnRun s := by
  unfold osnmaEval
  have moves (c : Prop) [Decidable c] (o : Osnma) {t : State} (h : gnRun t = gnRun s) :
      gnRun (if c then osnmaTo s o 0 else t) = gnRun s := by
    split
    · exact gnRun_osnmaTo ..
    · exact h
  refine moves _ _ ?_
  split
  · rfl
  · exact moves _ _ (moves _ _ (moves _ _ rfl))

/-! ## OSNMA -/

theorem setSound_osnma (s : State) (v : Bool) :
    (setSound s v).gn.osnma = s.gn.osnma ∧ (setSound s v).gn.osnmaCause = s.gn.osnmaCause := by
  unfold setSound
  extract_lets good g1 s1
  split
  · exact ⟨rfl, rfl⟩
  · rw [raiseN_gn]
    exact ⟨rfl, rfl⟩

theorem osnmaTo_osnma (s : State) (o : Osnma) (cause : Nat) :
    (osnmaTo s o cause).gn.osnma = o ∧ (osnmaTo s o cause).gn.osnmaCause = cause := by
  unfold osnmaTo
  extract_lets g1 s1
  split
  · exact ⟨rfl, rfl⟩
  · obtain ⟨state, reason⟩ := setSound_osnma (osnmaRecord (raiseN s1 118 0 [])) s1.gn.sound
    rw [state, reason, osnmaRecord, gnRecord_gn, raiseN_gn]
    exact ⟨rfl, rfl⟩

theorem submitKroot_gn (s : State) (k : Kroot) :
    (submitKroot s k).gn = { s.gn with kroot := some k, krootResult := none } :=
  ((within_queueJob (ps := [.pke]) (by decide) ..).2 .refl) .gn (by decide)

section Kroot

variable {k : Kroot}

theorem exec_gnKrootReceived_waits (runs : gnRuns s = true) (auth : s.gn.osnma = .auth) (curve : k.p521 = false)
    (free : krootQueued s = false) (fresh : s.gn.kept.rootKey ≠ k.root) (root : merkleOk s k = true) :
    Gives (.gnKrootReceived k) s fun t => t.gn.osnma = .krootWait ∧ t.gn.kroot = some k := by
  refine ⟨osnmaTo (submitKroot s k) .krootWait 0, ?_, (osnmaTo_osnma ..).1, ?_⟩
  · refine congrArg Host.Outcome.next ?_
    simp [runs, auth, curve, free, fresh, root]
  · refine (congrArg GnRun.kroot (gnRun_osnmaTo (submitKroot s k) .krootWait 0)).trans ?_
    exact congrArg Gn.kroot (submitKroot_gn s k)

theorem exec_gnKrootVerified_takes (runs : gnRuns s = true) (waits : s.gn.osnma = .krootWait ∨ s.gn.osnma = .fail)
    (queued : s.gn.kroot = some k) (verified : s.gn.krootResult = some 0) :
    Gives .gnKrootVerified s fun t => t.gn.osnma = .auth ∧ t.gn.kept.rootKey = k.root := by
  refine ⟨krootTake { s with gn := { s.gn with kroot := none, krootResult := none } } k, ?_, (osnmaTo_osnma ..).1, ?_⟩
  · refine congrArg Host.Outcome.next ?_
    simp only [queued, verified]
    rw [if_neg (fun stays => stays.elim (by simp [runs]) fun idle => idle waits), if_pos trivial]
  · exact congrArg (GnRec.rootKey ∘ GnRun.kept) (gnRun_osnmaTo _ .auth 0)

theorem exec_gnKrootVerified_fails (runs : gnRuns s = true) (waits : s.gn.osnma = .krootWait ∨ s.gn.osnma = .fail)
    (queued : s.gn.kroot = some k) (refuted : s.gn.krootResult = some 3) :
    Gives .gnKrootVerified s fun t => t.gn.osnma = .fail ∧ t.gn.osnmaCause = 3 := by
  refine ⟨osnmaTo { s with gn := { s.gn with kroot := none, krootResult := none } } .fail 3, ?_, osnmaTo_osnma ..⟩
  refine congrArg Host.Outcome.next ?_
  simp only [queued, refuted]
  rw [if_neg (fun stays => stays.elim (by simp [runs]) fun idle => idle waits), if_neg (by decide), if_pos (by decide)]

end Kroot

/-! ## Starts -/

/-- The baseband has started: no solution, and every channel that the host does not hold is idle. -/
structure Started (manual : Nat → Bool) (type : StartType) (t : State) : Prop where
  type : t.gn.startType = type
  valid : t.gn.valid = false
  waits : t.gn.startWait = true
  awake : t.gn.sleeping = false
  idle : ∀ c, c < 128 → manual c = false → (chanOf t c).st = .idle

theorem Started.of_gnRun {manual : Nat → Bool} {type : StartType} (h : Started manual type s) (same : gnRun t = gnRun s) :
    Started manual type t where
  type := (congrArg GnRun.startType same).trans h.type
  valid := (congrArg GnRun.valid same).trans h.valid
  waits := (congrArg GnRun.startWait same).trans h.waits
  awake := (congrArg GnRun.sleeping same).trans h.awake
  idle c known free := (congrFun (congrArg GnRun.chanSt same) c).trans (h.idle c known free)

theorem Started.manualStart {manual : Nat → Bool} {type : StartType} (h : Started manual type s) {c : Nat}
    (held : manual c = true) : Started manual type (manualStart s c) := by
  have chan (t : State) (gn : t.gn = s.gn) (x : Chan) : Started manual type (setChan t c x) := by
    refine ⟨?_, ?_, ?_, ?_, fun d known free => ?_⟩
    · exact (congrArg Gn.startType gn).trans h.type
    · exact (congrArg Gn.valid gn).trans h.valid
    · exact (congrArg Gn.startWait gn).trans h.waits
    · exact (congrArg Gn.sleeping gn).trans h.awake
    · have other : d ≠ c := by
        rintro rfl
        simp [held] at free
      rw [chanOf_setChan_ne _ _ other, chanOf, gn]
      exact h.idle d known free
  unfold Machine.manualStart
  extract_lets g c1
  split
  · exact chan (setUnit s (37 + c / 16) 0) rfl _
  · exact chan s rfl _

theorem Started.foldl {manual : Nat → Bool} {type : StartType} (cs : List Nat) (held : ∀ c ∈ cs, manual c = true)
    (h : Started manual type s) : Started manual type (cs.foldl Machine.manualStart s) := by
  induction cs generalizing s with
  | nil => exact h
  | cons c cs ih =>
    exact ih (fun d hd => held d (List.mem_cons_of_mem c hd)) (h.manualStart (held c List.mem_cons_self))

/-- The channels that the host holds. -/
def manualChan (s : State) (c : Nat) : Bool := rb s (chanA c) 0

theorem manualChan_congr (plain : plainRegs t = plainRegs s) {c : Nat} (known : c < 128) :
    manualChan t c = manualChan s c := by
  have reg : eventReg (chanA c) = false := by
    unfold eventReg chanA
    simp
    omega
  rw [manualChan, rb, rd_of_plainRegs plain reg]
  rfl

@[simp] theorem plainRegs_setSound (s : State) (v : Bool) : plainRegs (setSound s v) = plainRegs s := by
  unfold setSound
  extract_lets good g1 s1
  split
  · exact plainRegs_of_regs rfl
  · rw [plainRegs_raiseN]
    exact plainRegs_of_regs rfl

@[simp] theorem plainRegs_setSolution (s : State) (v : Bool) : plainRegs (setSolution s v) = plainRegs s := by
  unfold setSolution
  split
  · rfl
  · rw [plainRegs_raiseN]
    exact plainRegs_of_regs rfl

theorem gnBegin_started (plain : plainRegs t = plainRegs s) (type : StartType) :
    Started (manualChan s) type (gnBegin t type) := by
  unfold gnBegin
  extract_lets s1 g1
  refine Started.of_gnRun ?_ (gnRun_osnmaEval _)
  have before : plainRegs s1 = plainRegs s :=
    (plainRegs_setSound ..).trans ((plainRegs_setSolution ..).trans plain)
  refine Started.foldl _ (fun c chosen => ?_) ⟨rfl, ?_, rfl, rfl, fun _ _ _ => rfl⟩
  · obtain ⟨known, held⟩ := List.mem_filter.mp chosen
    rw [Bool.and_eq_true] at held
    rw [← manualChan_congr before (List.mem_range.mp known)]
    exact held.1
  · exact congrArg Prod.fst ((epochView_setSound ..).trans (epochView_setSolution t false))

/-! ## What is known at a start -/

theorem runScript_frame (s : State) (sec : Section) :
    plainRegs (runScript s sec) = plainRegs s ∧ (runScript s sec).gn = { s.gn with feScript := some sec } ∧
      (runScript s sec).tb = s.tb ∧ (runScript s sec).dpl = s.dpl ∧ (runScript s sec).loam = s.loam := by
  have sent (fs : List Bytes) (t : State) : fs.foldl (fun t f => emit t (.feSpi f)) t
      = { t with out := (fs.foldl (fun t f => emit t (.feSpi f)) t).out } := by
    induction fs generalizing t with
    | nil => rfl
    | cons f fs ih => exact ih _
  rw [runScript, sent]
  exact ⟨rfl, rfl, rfl, rfl, rfl⟩

/-- What a start goes by. -/
def StartKept (s t : State) : Prop :=
  plainRegs t = plainRegs s ∧ t.tb = s.tb ∧ t.dpl = s.dpl ∧ t.loam = s.loam ∧ t.gn.kept = s.gn.kept ∧
    t.gn.noPos = s.gn.noPos

theorem gnWakeUp_kept (s : State) (cause : Nat) : StartKept s (gnWakeUp s cause) := by
  unfold gnWakeUp
  split
  · obtain ⟨regs, gn, tb, dpl, loam⟩ := runScript_frame
      (raiseN { s with gn := { s.gn with sleeping := false } } 121 0 [cause]) .wake
    rw [plainRegs_raiseN] at regs
    rw [raiseN_gn] at gn
    rw [raiseN_tb] at tb
    rw [raiseN_dpl] at dpl
    rw [raiseN_loam] at loam
    exact ⟨regs, tb, dpl, loam, by rw [gn], by rw [gn]⟩
  · exact ⟨rfl, rfl, rfl, rfl, rfl, rfl⟩

theorem StartKept.timeKnown (h : StartKept s t) : timeKnown t = timeKnown s := by
  obtain ⟨regs, tb, dpl, loam, kept, noPos⟩ := h
  have now : rtcNow t = rtcNow s := by rw [rtcNow, loam, tb, ← rtcNow]
  simp only [Machine.timeKnown, startUncNs, tb, dpl, loam, now, rd_of_plainRegs regs (show eventReg 0x500078 = false by decide)]

theorem StartKept.posKnown (h : StartKept s t) : posKnown t = posKnown s := by
  obtain ⟨regs, tb, dpl, loam, kept, noPos⟩ := h
  rw [Machine.posKnown, noPos, kept, ← Machine.posKnown]

theorem StartKept.ephUsable (h : StartKept s t) : ephUsable t = ephUsable s := by
  obtain ⟨regs, tb, dpl, loam, kept, noPos⟩ := h
  have now : rtcNow t = rtcNow s := by rw [rtcNow, loam, tb, ← rtcNow]
  have sec : startSec t = startSec s := by simp only [startSec, nowSec, tb, now]
  have enabled (g : Nat) : sigEnabled t g = sigEnabled s g := by
    rw [sigEnabled, rb, rd_of_plainRegs regs (by decide)]
    rfl
  simp only [Machine.ephUsable, sec, enabled, kept]

theorem startTypeOf_unusable (pos time : Bool) : startTypeOf false pos time ≠ .hot := by
  cases pos <;> cases time <;> decide

/-- The start that R153 chooses, from what the wake left. -/
theorem gnStart_started (h : StartKept s t) :
    Started (manualChan s) (startTypeOf (ephUsable s) (posKnown { s with gn := { s.gn with noPos := false } })
      (timeKnown s)) (gnStart t) := by
  obtain ⟨regs, tb, dpl, loam, kept, noPos⟩ := h
  unfold gnStart
  extract_lets g0 g1 s1
  have same : StartKept { s with gn := { s.gn with noPos := false } } s1 := ⟨regs, tb, dpl, loam, kept, rfl⟩
  have started := gnBegin_started (t := s1) regs (startTypeOf (ephUsable s1) (posKnown s1) (timeKnown s1))
  rw [same.ephUsable, same.posKnown, same.timeKnown] at started
  rw [same.ephUsable, same.posKnown, same.timeKnown]
  exact started

theorem exec_gnStartHot_starts (runs : gnRuns s = true) :
    Gives .gnStartHot s fun t => Started (manualChan s) (startTypeOf (ephUsable s)
      (posKnown { s with gn := { s.gn with noPos := false } }) (timeKnown s)) t := by
  refine ⟨_, rfl, ?_⟩
  beta_reduce
  rw [if_neg (by simp [runs])]
  exact gnStart_started (gnWakeUp_kept s 2)

theorem exec_gnStartWarm_starts (runs : gnRuns s = true) :
    Gives .gnStartWarm s fun t => ∃ pos time, Started (manualChan s) (startTypeOf false pos time) t := by
  refine ⟨_, rfl, ?_⟩
  beta_reduce
  rw [if_neg (by simp [runs])]
  exact ⟨_, _, gnBegin_started (gnWakeUp_kept { s with gn := { s.gn with noPos := false } } 2).1 _⟩

theorem exec_gnStartCold_starts (runs : gnRuns s = true) :
    Gives .gnStartCold s fun t => Started (manualChan s) .cold t := by
  refine ⟨_, rfl, ?_⟩
  beta_reduce
  rw [if_neg (by simp [runs])]
  exact gnBegin_started (gnWakeUp_kept { s with gn := { s.gn with noPos := true } } 2).1 _

/-! ## Sleep and the record -/

theorem gnCommit_gn (s : State) :
    (gnCommit s).gn = { s.gn with ephChanged := false, lastCommit := some s.tb.ticks } := by
  have committed (t : State) (cls : Nat) (segs : List Nat) (p : Option Payload) : (fwCommit t cls segs p).gn = t.gn :=
    ((within_fwCommit (ps := [.loam]) (by decide) cls segs p).2 .refl) .gn (by decide)
  unfold gnCommit
  extract_lets g1 s1 s2
  split
  · exact committed ..
  · rw [committed]
    exact committed ..

theorem gnssGone_gn (s : State) : (gnssGone s).gn = s.gn :=
  ((within_gnssGone (ps := selectionParts) (fun _ h => h)).2 .refl) .gn (by decide)

theorem gnSleepNow_sleeps (s : State) :
    (gnSleepNow s).gn.sleeping = true ∧ (gnSleepNow s).gn.chans = [] ∧ (gnSleepNow s).gn.refreshing = false := by
  unfold gnSleepNow
  extract_lets s1 g1 s2
  rw [gnCommit_gn, (runScript_frame _ _).2.1, raiseN_gn, gnssGone_gn]
  exact ⟨rfl, rfl, rfl⟩

theorem exec_gnRecordCommit_commits (changed : s.gn.ephChanged = true) (due : gnCommitDue s = true)
    (noAlmanac : s.gn.almanac = []) (fits : CommitFits s clsGnss) :
    Gives .gnRecordCommit s fun t =>
      t.gn.ephChanged = false ∧ t.loam.queue = s.loam.queue ++
        [{ by_ := .firmware, cls := clsGnss, segs := List.range (segCount clsGnss), payload := none }] := by
  refine ⟨_, rfl, ?_⟩
  beta_reduce
  rw [if_pos (by simp [changed, due]), gnCommit_gn]
  refine ⟨rfl, ?_⟩
  unfold gnCommit
  extract_lets g1 s1 s2
  obtain ⟨tokens, queued⟩ := fwCommit_fits (s := s1) (segs := List.range (segCount clsGnss)) (p := none)
    (fits.congr rfl rfl rfl)
  rw [if_pos noAlmanac, show s2 = _ from queued]

theorem exec_gnSleepRefresh_refreshes (runs : gnRuns s = true) (asleep : s.gn.sleeping = true) :
    Gives .gnSleepRefresh s fun t => t.gn.sleeping = false ∧ t.gn.refreshing = true := by
  refine ⟨_, rfl, ?_⟩
  extract_lets s1 g1
  beta_reduce
  rw [if_pos (by simp [runs, asleep])]
  exact ⟨(gnStart_started (gnWakeUp_kept s 1)).awake, rfl⟩

/-- Settles O16. -/
theorem gnssReceiverStatesTakeEffect : Obligations.GnssReceiverStatesTakeEffect := by
  unfold Obligations.GnssReceiverStatesTakeEffect
  refine ⟨fun s k runs auth curve => ⟨osnmaTo s .unsupported 0, ?_, (osnmaTo_osnma ..).1⟩,
    fun _ _ runs auth curve free fresh root => exec_gnKrootReceived_waits runs auth curve free fresh root,
    fun s k runs auth curve free fresh bad => ⟨osnmaTo s .fail 3, ?_, osnmaTo_osnma ..⟩,
    fun _ _ runs waits queued verified => exec_gnKrootVerified_takes runs waits queued verified,
    fun _ _ runs waits queued refuted => exec_gnKrootVerified_fails runs waits queued refuted,
    fun s runs fits => ⟨_, rfl, ?_⟩, fun s runs => ?_, fun s runs => ?_, fun s runs => ?_,
    fun s runs awake may => ⟨_, rfl, ?_⟩, fun s runs asleep may => ⟨_, rfl, ?_⟩,
    fun _ runs asleep => exec_gnSleepRefresh_refreshes runs asleep, fun s refreshes => ⟨_, rfl, ?_⟩,
    fun _ changed due none fits => exec_gnRecordCommit_commits changed due none fits⟩
  · exact congrArg Host.Outcome.next (by simp [runs, auth, curve])
  · exact congrArg Host.Outcome.next (by simp [runs, auth, curve, free, fresh, bad])
  · beta_reduce
    rw [if_pos runs, osnmaRecord, gnRecord_fits fits]
    obtain ⟨armed, ring⟩ := ringOf_writeCompl (s := s) (r := 158) (by decide) (ringOf s 158).q.toNat stOk _
    rw [ring]
    rfl
  · obtain ⟨t, next, started⟩ := exec_gnStartHot_starts runs
    exact ⟨t, next, started.type, started.valid, started.waits, fun c free => started.idle c c.isLt free⟩
  · obtain ⟨t, next, pos, time, started⟩ := exec_gnStartWarm_starts runs
    refine ⟨t, next, ?_, started.valid, fun c free => started.idle c c.isLt free⟩
    rw [started.type]
    exact startTypeOf_unusable pos time
  · obtain ⟨t, next, started⟩ := exec_gnStartCold_starts runs
    exact ⟨t, next, started.type, started.valid, fun c free => started.idle c c.isLt free⟩
  · beta_reduce
    rw [if_pos (by simp [runs, awake, may])]
    obtain ⟨sleeps, idle, _⟩ := gnSleepNow_sleeps s
    exact ⟨sleeps, idle⟩
  · beta_reduce
    rw [if_pos (by simp [runs, asleep, may])]
    exact (gnStart_started (gnWakeUp_kept s 0)).awake
  · extract_lets g1 s1
    beta_reduce
    rw [if_neg (by simp [refreshes])]
    split
    · exact (gnSleepNow_sleeps s1).2.2
    · rw [gnCommit_gn]

end Sys2Proof.Machine
end

section
/-! SUPPORT. R162 to R167, R182, R193, R539: the links of the line ports (O17). -/

namespace Sys2Proof.Machine

variable {s t u : State}

/-! ## The ports -/

theorem portOf_of_lp (h : t.lp = s.lp) (j : Nat) : portOf t j = portOf s j := by rw [portOf, h, ← portOf]

@[simp] theorem portOf_raiseN (s : State) (id inst : Nat) (ns : List Nat) (j : Nat) :
    portOf (raiseN s id inst ns) j = portOf s j := portOf_of_lp (raiseN_lp ..) j

@[simp] theorem portOf_bump (s : State) (a n j : Nat) : portOf (bump s a n) j = portOf s j := portOf_of_lp (bump_lp ..) j

@[simp] theorem portOf_portEvent (s : State) (j k : Nat) (more : List Nat) (i : Nat) :
    portOf (portEvent s j k more) i = portOf s i := portOf_raiseN ..

@[simp] theorem portOf_stormEnd (s : State) (n j : Nat) : portOf (stormEnd s n) j = portOf s j :=
  portOf_of_lp (((within_stormEnd (ps := []) n).2 .refl) .lp (by decide)) j

@[simp] theorem portOf_synceFollow (s : State) (i : Nat) (up : Bool) (j : Nat) :
    portOf (synceFollow s i up) j = portOf s j :=
  portOf_of_lp (((within_synceFollow (ps := selectionParts) (fun _ h => h) i up).2 .refl) .lp (by decide)) j

theorem synceFollow_up (s : State) (j : Nat) : synceFollow s j true = s := by simp [synceFollow]

theorem flushItems_lp (j : Nat) (q : List TxItem) (s : State) : (q.foldl (fun t i => flushItem t j i) s).lp = s.lp :=
  ((within_foldl (ps := []) (fun t i => within_flushItem j i) q).2 .refl) .lp (by decide)

theorem portOf_flushPort (s : State) (j : Nat) :
    portOf (flushPort s j) j = { portOf s j with queue := [], holding := false } := by
  unfold flushPort
  dsimp only
  rw [portOf_of_lp (flushItems_lp ..), portOf_setPort]

/-! ## Link state -/

theorem exec_lpLinkUp_up {j : Fin 16} {sp : Fin 3} (enabled : portEnabled s j = true) (down : (portOf s j).up = false) :
    Gives (.lpLinkUp j sp) s fun t =>
      (portOf t j).up = true ∧ (portOf t j).everUp = true ∧ (portOf t j).holding = false ∧
      (lpSplit s (j.val / 4) = true → rf s (lpA j) 1 3 = 3 → (portOf t j).sgmii = sp.val) ∧
      ∀ i ∈ (portOf t j).queue, isSched i = false := by
  refine ⟨_, rfl, ?_⟩
  dsimp only
  rw [if_pos ⟨enabled, down⟩, synceFollow_up, portOf_portEvent]
  have credit (t : State) (n : Nat) : portOf (setCredit t j n) j = portOf t j := rfl
  have counted (t : State) (n : Nat) :
      portOf (if n = 0 then t else bump t (lpCnt j + 0x38) n) j = portOf t j := by
    split
    · rfl
    · exact portOf_bump ..
  rw [credit, counted, portOf_setPort]
  refine ⟨rfl, rfl, rfl, fun split sgmii => ?_, fun i queued => ?_⟩
  · exact if_pos (by simp [split, sgmii])
  · simpa using (List.mem_filter.mp queued).2

theorem portOf_linkDown (s : State) (j : Nat) (hold : Bool) :
    portOf (linkDown s j hold) j = { portOf s j with
      up := false, holding := hold && (portOf s j).everUp, pauseCls := 0, pausePort := false, stormCls := 0,
      stormPort := false, xoff := 0, pauseDue := [], pauseEnd := [],
      queue := (portOf s j).queue.filter fun i => !isPauseTx i } := by
  unfold linkDown
  dsimp only
  rw [portOf_synceFollow, portOf_stormEnd, portOf_setPort]

theorem exec_lpLinkDown_down {j : Fin 16} {fault : Bool} (enabled : portEnabled s j = true) :
    Gives (.lpLinkDown j fault) s fun t =>
      ((portOf s j).up = true → (portOf t j).up = false) ∧ (portOf t j).remoteFault = fault ∧
      (portOf t j).localFault = !fault := by
  refine ⟨_, rfl, ?_⟩
  dsimp only
  rw [if_pos enabled, portOf_setPort]
  refine ⟨fun up => ?_, rfl, rfl⟩
  rw [if_pos up, portOf_portEvent, portOf_linkDown]

/-! ## FEC -/

theorem exec_lpFecTryTimeout_tries {j : Fin 16} (enabled : portEnabled s j = true) (auto : rf s (lpA j) 4 2 = 0)
    (down : (portOf s j).up = false) (front : backplane s j = false) (open_ : (portOf s j).fecKept = false) :
    Gives (.lpFecTryTimeout j) s fun t =>
      (portOf t j).fecTry = ((portOf s j).fecTry + 1) % (fecTries s j).length ∧
      (portOf t j).fecActive = (fecTries s j).getD (((portOf s j).fecTry + 1) % (fecTries s j).length) 3 := by
  refine ⟨_, rfl, ?_⟩
  dsimp only
  rw [if_pos ⟨enabled, auto, down, front⟩, portOf_setPort, if_neg (by simp [open_])]
  exact ⟨rfl, rfl⟩

theorem exec_lpFecResolved_keeps {j : Fin 16} {fec : BitVec 2} (enabled : portEnabled s j = true)
    (auto : rf s (lpA j) 4 2 = 0) :
    Gives (.lpFecResolved j fec) s fun t =>
      (portOf t j).fecKept = true ∧
      (backplane s j = false → (portOf t j).fecActive = (portOf s j).fecActive) ∧
      (backplane s j = true → fec.toNat ∈ fecTries s j → (portOf t j).fecActive = fec.toNat) := by
  refine ⟨_, rfl, ?_⟩
  dsimp only
  rw [if_pos ⟨enabled, auto⟩, portOf_portEvent, portOf_setPort]
  refine ⟨rfl, fun front => if_neg (by simp [front]), fun back known => if_pos ⟨back, ?_⟩⟩
  exact List.contains_iff_mem.mpr known

/-! ## Modes -/

/-- A register whose fields are stored as they are written. -/
def storesAsWritten (a : Nat) : Bool := (regAt a).any fun e => e.1.rules.isEmpty

/-- A masked write of such a register replaces the masked bits. -/
theorem storeMask_asWritten (s : State) {a : Nat} (plain : storesAsWritten a = true) (mask : Nat) (v : Word) :
    storeMask s a mask v = wr s a ((rd s a &&& ~~~(BitVec.ofNat 32 mask)) ||| (v &&& BitVec.ofNat 32 mask)) := by
  unfold storesAsWritten at plain
  cases known : regAt a with
  | none => simp [known] at plain
  | some e =>
    rw [known, Option.any_some, List.isEmpty_iff] at plain
    rw [storeMask, known]
    dsimp only
    rw [storedWord, plain]
    rfl

theorem lpBase_asWritten : ∀ n : Fin 4, storesAsWritten (lpBase n) = true := by decide +kernel

theorem storeMask_lpBase (s : State) (n : Fin 4) (v : Word) :
    storeMask s (lpBase n) 3 v = wr s (lpBase n) ((rd s (lpBase n) &&& ~~~(3 : Word)) ||| (v &&& 3)) :=
  storeMask_asWritten s (lpBase_asWritten n) 3 v

theorem modeChanged_of_disabled {n : Nat} (before : ∀ k, k < 4 → portEnabled s (4 * n + k) = false)
    (after : ∀ k, k < 4 → portEnabled t (4 * n + k) = false) : modeChanged s t n = t := by
  unfold modeChanged
  rw [List.filter_eq_nil_iff.mpr fun j mem => ?_, List.foldl_nil]
  obtain ⟨k, known, rfl⟩ := List.mem_map.mp mem
  have few := List.mem_range.mp known
  simp [before k few, after k few]

theorem exec_lpModeWrite_stores {n : Fin 4} {v : Word} (fused : portFused s (4 * n.val) = false)
    (off : ∀ k, k < 4 → rb s (lpA (4 * n.val + k)) 0 = false) :
    Gives (.lpModeWrite n v) s fun t => rd t (lpBase n) = (rd s (lpBase n) &&& ~~~(3 : Word)) ||| (v &&& 3) := by
  refine ⟨_, rfl, ?_⟩
  dsimp only
  rw [if_neg (by simp [fused]), storeMask_lpBase, rd_wr_same]
  split
  · next same => exact same.symm
  · rw [modeChanged_of_disabled, rd_wr_same]
    · intro k few
      rw [portEnabled, off k few, Bool.and_false]
    · intro k few
      have other : lpA (4 * n.val + k) ≠ lpBase n := by
        unfold lpA lpBase
        omega
      have same : rb (wr s (lpBase n) ((rd s (lpBase n) &&& ~~~(3 : Word)) ||| (v &&& 3))) (lpA (4 * n.val + k)) 0
          = rb s (lpA (4 * n.val + k)) 0 := by rw [rb, rd_wr_ne _ _ other, ← rb]
      rw [portEnabled, same, off k few, Bool.and_false]

theorem exec_lpSpeedFecWrite_stores {j : Fin 16} (v : Word) (exists_ : portExists s j = true)
    (off : rb s (lpA j) 0 = false) :
    exec (.lpSpeedFecWrite j v) s = .next (storeMask s (lpA j) 0x3FFFFE v) := by
  have disabled : portEnabled s j = false := by rw [portEnabled, off, Bool.and_false]
  refine congrArg Host.Outcome.next ?_
  rw [if_neg (by simp [exists_]), cfgChanged]
  simp [disabled]

/-! ## Enable and disable -/

theorem plainRegs_loseRole (s : State) (i role : Nat) : plainRegs (loseRole s i role) = plainRegs s :=
  congrArg RefInputs.regs (refInputs_loseRole ..)

theorem plainRegs_synceFollow (s : State) (j : Nat) (up : Bool) : plainRegs (synceFollow s j up) = plainRegs s := by
  have one (t : State) (k : Nat) : plainRegs (if rf t (0x400200 + 4 * k) 0 4 = j ∧ up = false then
      loseRole t (4 + k) 1 else t) = plainRegs t := by
    split
    · exact plainRegs_loseRole ..
    · rfl
  exact (one _ 1).trans (one s 0)

theorem plainRegs_linkDown (s : State) (j : Nat) (hold : Bool) : plainRegs (linkDown s j hold) = plainRegs s := by
  unfold linkDown
  dsimp only
  rw [plainRegs_synceFollow, stormEnd]
  split
  · rfl
  · exact plainRegs_alarmClear ..

/-- A port without queued frames is flushed of nothing. -/
theorem flushPort_empty {j : Nat} (empty : (portOf s j).queue = []) :
    flushPort s j = setPort s j { portOf s j with queue := [], holding := false } := by
  rw [flushPort, empty, List.foldl_nil]

/-- A port without queued frames goes down: its link is down, and no register but an event counter has changed. -/
theorem takeDown_empty {j : Nat} (empty : (portOf s j).queue = []) :
    plainRegs (takeDown s j) = plainRegs s ∧ (portOf (takeDown s j) j).up = false := by
  unfold takeDown
  extract_lets s1
  have down : portOf (if (portOf s j).up then portEvent s1 j 1 [] else s1) j = portOf s1 j := by
    split
    · exact portOf_portEvent ..
    · rfl
  have regs : plainRegs (if (portOf s j).up then portEvent s1 j 1 [] else s1) = plainRegs s := by
    split
    · exact (plainRegs_raiseN ..).trans (plainRegs_linkDown ..)
    · exact plainRegs_linkDown ..
  have still : (portOf s1 j).queue = [] := by
    rw [portOf_linkDown, empty]
    rfl
  rw [flushPort_empty (by rw [down, still]), portOf_setPort, down]
  exact ⟨regs, by rw [portOf_linkDown]⟩

theorem lpA_plain (j : Fin 16) : eventReg (lpA j) = false := by
  fin_cases j <;> decide

theorem exec_lpPortDisable_disables {j : Fin 16} (on : rb s (lpA j) 0 = true) (exists_ : portExists s j = true)
    (empty : (portOf s j).queue = []) :
    Gives (.lpPortDisable j) s fun t =>
      rb t (lpA j) 0 = false ∧ (portOf t j).up = false ∧ (portOf t j).localFault = false := by
  refine ⟨_, rfl, ?_⟩
  beta_reduce
  rw [if_neg (by simp [on, exists_]), portDisabled]
  obtain ⟨regs, down⟩ := takeDown_empty (s := wrf s (lpA j) 0 1 0) (j := j) empty
  refine ⟨?_, ?_, ?_⟩
  · show flag (rd (takeDown (wrf s (lpA j) 0 1 0) j) (lpA j)) 0 = false
    rw [rd_of_plainRegs regs (lpA_plain j), rd_wrf_same, flag_putFld_of_mem _ _ (by decide) (by decide)]
    rfl
  · rw [portOf_setPort]
    exact down
  · rw [portOf_setPort]

theorem lpCnt_plain (j : Fin 16) {k : Nat} (near : k < 0x100) : eventReg (lpCnt j + k) = false := by
  unfold eventReg lpCnt lpBase
  simp
  omega

/-- Settles O17. -/
theorem linePortsFollowTheirLinks : Obligations.LinePortsFollowTheirLinks := by
  unfold Obligations.LinePortsFollowTheirLinks
  refine ⟨fun _ _ _ enabled down => exec_lpLinkUp_up enabled down, fun _ _ _ enabled => exec_lpLinkDown_down enabled,
    fun s j holds => ⟨_, rfl, ?_⟩, fun _ _ enabled auto down front open_ =>
      exec_lpFecTryTimeout_tries enabled auto down front open_, fun _ _ _ enabled auto =>
      exec_lpFecResolved_keeps enabled auto,
    fun _ _ _ fused off => exec_lpModeWrite_stores fused off, fun _ _ v exists_ off =>
      exec_lpSpeedFecWrite_stores v exists_ off,
    fun _ _ on exists_ empty _ _ => exec_lpPortDisable_disables on exists_ empty,
    fun s j off exists_ => ⟨_, rfl, ?_⟩, fun s j fitted => ⟨_, rfl, ?_⟩, fun s j fused => ?_⟩
  · beta_reduce
    rw [if_pos holds, portOf_portEvent, portOf_flushPort]
    exact ⟨rfl, rfl⟩
  · beta_reduce
    rw [if_neg (by simp [off, exists_]), startTraining, portOf_setPort]
    refine ⟨?_, rfl, rfl, rfl⟩
    show flag (rd (wrf s (lpA j) 0 1 1) (lpA j)) 0 = true
    rw [rd_wrf_same, flag_putFld_of_mem _ _ (by decide) (by decide)]
    rfl
  · beta_reduce
    rw [if_neg (by simp [fitted])]
    exact (bump_counted s 1 (by unfold lpCnt lpBase; omega)).raiseN _ _ _ (lpCnt_plain j (by decide))
  · exact congrArg Host.Outcome.next (if_pos fused)

end Sys2Proof.Machine
end

section
/-! SUPPORT. R168, R177 to R179, R422: frames received by the line ports (O18). -/

namespace Sys2Proof.Machine

variable {s t u : State} {j : Fin 16} {f : Bytes} {ago : Nat} {ok : Bool}

/-- Compensation and calibration are the timestamp units' own. -/
theorem calPair_frame (s : State) (j : Nat) (f : Bytes) (t : Nat) : calPair s j f t = { s with ts := (calPair s j f t).ts } := by
  unfold calPair
  repeat' split
  all_goals rfl

theorem noteRxComp_frame (s : State) (j : Nat) : noteRxComp s j = { s with ts := (noteRxComp s j).ts } := rfl

/-- The state in which a frame of good size and FCS is judged. -/
def received (s : State) (j : Fin 16) (f : Bytes) (ago : Nat) : State :=
  calPair (noteRxComp s j) j (f.take (f.length - 4)) (ingressAt s j ago)

theorem received_frame (s : State) (j : Fin 16) (f : Bytes) (ago : Nat) :
    received s j f ago = { s with ts := (received s j f ago).ts } := by
  conv_lhs => rw [received, calPair_frame, noteRxComp_frame]
  rfl

section Link

variable (enabled : portEnabled s j = true) (up : (portOf s j).up = true)

include enabled up

theorem exec_frameReceived_short (short : f.length < 64) :
    exec (.frameReceived j f ago ok) s = .next (bump s (lpCnt j + 0x20) 1) := by
  refine congrArg Host.Outcome.next ?_
  dsimp only
  rw [if_neg (by simp [enabled, up]), if_pos short]

theorem exec_frameReceived_badFcs (long : 64 ≤ f.length) (fits : f.length < 16384) (bad : fcsGood f = false) :
    exec (.frameReceived j f ago ok) s = .next (bump s (lpCnt j + 0x28) 1) := by
  refine congrArg Host.Outcome.next ?_
  dsimp only
  rw [if_neg (by simp [enabled, up]), if_neg (by omega), if_neg (by omega), if_pos bad]

theorem exec_frameReceived_pause {op : Nat} (long : 64 ≤ f.length) (fits : f.length < 16384) (good : fcsGood f = true)
    (pause : pauseOpcode? (f.take (f.length - 4)) = some op) :
    exec (.frameReceived j f ago ok) s
      = .next (pauseFrame (received s j f ago) j op (f.take (f.length - 4))) := by
  refine congrArg Host.Outcome.next ?_
  dsimp only
  rw [if_neg (by simp [enabled, up]), if_neg (by omega), if_neg (by omega), if_neg (by simp [good])]
  simp only [pause]
  rfl

theorem exec_frameReceived_inband (long : 64 ≤ f.length) (fits : f.length < 16384)
    (within : f.length ≤ (rd s (lpA j + 4)).toNat) (good : fcsGood f = true)
    (plain : pauseOpcode? (f.take (f.length - 4)) = none) (inband : isInband s j (f.take (f.length - 4)) = true) :
    exec (.frameReceived j f ago ok) s = .next (
      if rxRoom s j (hostClass s j (f.take (f.length - 4))) f.length .consumed = false then
        portEvent (bump (received s j f ago) (lpCnt j + 0x60 + 4 * hostClass s j (f.take (f.length - 4))) 1) j 5 []
      else statInc (statInc (received s j f ago) (lpCnt j) 1) (lpCnt j + 8) f.length) := by
  refine congrArg Host.Outcome.next ?_
  dsimp only
  rw [if_neg (by simp [enabled, up]), if_neg (by omega), if_neg (by omega), if_neg (by simp [good])]
  simp only [plain]
  have route : routeOf (received s j f ago) j (f.take (f.length - 4)) = (none, .consumed) := by
    rw [routeOf, received_frame]
    exact if_pos inband
  have room : rxRoom (received s j f ago) j (hostClass s j (f.take (f.length - 4))) f.length .consumed
      = rxRoom s j (hostClass s j (f.take (f.length - 4))) f.length .consumed := by
    rw [received_frame]
    rfl
  have cls : rxClass (received s j f ago) j (f.take (f.length - 4)) none .consumed
      = hostClass s j (f.take (f.length - 4)) := by
    rw [received_frame]
    rfl
  rw [show calPair (noteRxComp s j) j (f.take (f.length - 4)) (ingressAt s j ago) = received s j f ago from rfl, route]
  have short : decide ((rd s (lpA j + 4)).toNat < f.length) = false := decide_eq_false (by omega)
  dsimp only
  simp only [cls, short, Bool.false_and, Bool.false_eq_true, if_false]
  rw [room]
  split <;> rfl

end Link

/-! ## PAUSE -/

theorem pauseFrame_port {op : Nat} {acts : List (Nat × Nat)} (acts_ : pauseActs (bump s (lpCnt j + 0x44) 1) j op f = acts)
    (some_ : acts ≠ []) :
    portOf (pauseFrame s j op f) j =
      if (portOf s j).sending.isSome then { portOf s j with pauseDue := (portOf s j).pauseDue ++ acts }
      else acts.foldl (pauseAct (bump s (lpCnt j + 0x44) 1) j) (portOf s j) := by
  unfold pauseFrame
  extract_lets s1 p
  have same : p = portOf s j := portOf_bump ..
  clear_value p
  subst same
  rw [acts_]
  cases acts with
  | nil => exact absurd rfl some_
  | cons a as =>
    dsimp only
    split <;> rw [portOf_setPort]

theorem exec_frameReceived_pauses (enabled : portEnabled s j = true) (up : (portOf s j).up = true)
    (long : 64 ≤ f.length) (fits : f.length < 16384) (good : fcsGood f = true)
    (pause : pauseOpcode? (f.take (f.length - 4)) = some 1) (noPfc : rb s (lpA j) 8 = false)
    (obeys : rb s (lpA j) 9 = true) (honest : (portOf s j).stormPort = false) :
    Gives (.frameReceived j f ago ok) s fun t =>
      ((portOf s j).sending = none →
        (portOf t j).pausePort = decide (be16 (f.take (f.length - 4)) 16 ≠ 0)) ∧
      ((portOf s j).sending ≠ none →
        (portOf t j).pausePort = (portOf s j).pausePort ∧
        (portOf t j).pauseDue = (portOf s j).pauseDue ++ [(8, be16 (f.take (f.length - 4)) 16)]) := by
  refine ⟨_, exec_frameReceived_pause enabled up long fits good pause, ?_⟩
  have port : portOf (received s j f ago) j = portOf s j := by
    rw [received_frame]
    rfl
  have reg : rd (bump (received s j f ago) (lpCnt j + 0x44) 1) (lpA j) = rd s (lpA j) := by
    rw [rd_bump_ne _ _ (by unfold lpA lpCnt; omega) (by unfold lpA lpBase; omega), received_frame]
    rfl
  have acts : pauseActs (bump (received s j f ago) (lpCnt j + 0x44) 1) j 1 (f.take (f.length - 4))
      = [(8, be16 (f.take (f.length - 4)) 16)] := by
    have scope : rb (bump (received s j f ago) (lpCnt j + 0x44) 1) (lpA j) 8 = false ∧
        rb (bump (received s j f ago) (lpCnt j + 0x44) 1) (lpA j) 9 = true ∧
        (portOf (bump (received s j f ago) (lpCnt j + 0x44) 1) j).stormPort = false := by
      refine ⟨?_, ?_, ?_⟩
      · rw [rb, reg]
        exact noPfc
      · rw [rb, reg]
        exact obeys
      · rw [portOf_bump, port, honest]
    unfold pauseActs
    dsimp only
    rw [if_pos rfl, if_pos scope]
  beta_reduce
  rw [pauseFrame_port acts (by simp), port]
  constructor
  · intro free
    rw [free]
    rfl
  · intro busy
    rw [if_pos (Option.isSome_iff_ne_none.mpr busy)]
    exact ⟨rfl, rfl⟩

/-- Settles O18. -/
theorem linePortsReceiveFrames : Obligations.LinePortsReceiveFrames := by
  unfold Obligations.LinePortsReceiveFrames
  refine ⟨fun s j f ago ok enabled up short => ⟨_, exec_frameReceived_short enabled up short, ?_⟩,
    fun s j f ago ok enabled up long fits bad => ⟨_, exec_frameReceived_badFcs enabled up long fits bad, ?_⟩,
    fun _ _ _ _ _ enabled up long fits good pause noPfc obeys honest =>
      exec_frameReceived_pauses enabled up long fits good pause noPfc obeys honest,
    fun s j f ago ok enabled up long fits within good plain inband =>
      ⟨_, exec_frameReceived_inband enabled up long fits within good plain inband, fun room => ?_, fun full_ => ?_⟩⟩
  · exact bump_counted s 1 (by unfold lpCnt lpBase; omega)
  · exact bump_counted s 1 (by unfold lpCnt lpBase; omega)
  · rw [if_neg (by simp [room]), received_frame]
    refine ⟨?_, ?_⟩
    · rw [statGet_statInc_ne _ _ (by omega), statGet_statInc]
      rfl
    · rw [statGet_statInc, statGet_statInc_ne _ _ (by omega)]
      rfl
  · rw [if_pos full_, received_frame]
    have near : 0x60 + 4 * hostClass s j (f.take (f.length - 4)) < 0x100 := by
      have := fld_lt (rd s (lpA j + 0x24)) (2 * pcpOf (f.take (f.length - 4))) 2
      unfold hostClass rf
      omega
    have plain_ := lpCnt_plain j near
    rw [← Nat.add_assoc] at plain_
    exact ((bump_counted _ 1 (by unfold lpCnt lpBase; omega)).raiseN _ _ _ plain_).of_rd rfl

end Sys2Proof.Machine
end

section
/-! SUPPORT. R172 to R183, R212: frames sent by the line ports, and their pauses (O19). -/

namespace Sys2Proof.Machine

variable {s t u : State}

/-! ## A frame begins -/

theorem portOf_beginTx (s : State) (j : Nat) (i : TxItem) :
    portOf (beginTx s j i) j = { dropFirst (portOf s j) i with
      sending := some { i with frame := applyInsert s i.ins i.frame (stampFor s j i), stamp := stampFor s j i } } := by
  have entered (t : State) (f : Bytes) (st : Bool) (n : Nat) : portOf (calEnter t j f st n) j = portOf t j :=
    portOf_of_lp (((within_calEnter (ps := [.ts]) (by decide) j f st n).2 .refl) .lp (by decide)) j
  have noted (t : State) (ins : Insert) (n : Nat) : portOf (noteStamp t j ins n) j = portOf t j :=
    portOf_of_lp (((within_noteStamp (ps := [.rsp]) (by decide) j ins n).2 .refl) .lp (by decide)) j
  have shown (t : State) : portOf (noteTxComp t j) j = portOf t j := rfl
  unfold beginTx
  extract_lets n f p s1 stamped
  rw [entered, noted, shown, portOf_setPort]

theorem beginTx_begins (s : State) (j : Nat) (i : TxItem) :
    ((portOf (beginTx s j i) j).sending.map fun x => (x.src, x.stamp)) = some (i.src, stampFor s j i) ∧
      (portOf (beginTx s j i) j).queue = (portOf s j).queue.erase i := by
  rw [portOf_beginTx]
  exact ⟨rfl, rfl⟩

theorem startTx_begins {j : Fin 16} {i : TxItem} {slack : Nat} (enabled : portEnabled (purgeHeads s j) j = true)
    (up : (portOf (purgeHeads s j) j).up = true) (free : (portOf (purgeHeads s j) j).sending = none)
    (picked : pickTx (purgeHeads s j) j slack = some i) :
    ((portOf (startTx s j slack) j).sending.map fun x => (x.src, x.stamp))
        = some (i.src, stampFor (purgeHeads s j) j i) ∧
      (portOf (startTx s j slack) j).queue = (portOf (purgeHeads s j) j).queue.erase i := by
  have started : startTx s j slack = beginTx (purgeHeads s j) j i := by
    unfold startTx
    dsimp only
    rw [if_pos ⟨enabled, up, free⟩, picked]
  rw [started]
  exact beginTx_begins ..

/-! ## A frame ends -/

theorem pauseAct_sending (s : State) (j : Nat) (acts : List (Nat × Nat)) (p : LpPort) :
    (acts.foldl (pauseAct s j) p).sending = p.sending := by
  induction acts generalizing p with
  | nil => rfl
  | cons a as ih =>
    rw [List.foldl_cons, ih]
    unfold pauseAct
    dsimp only
    split <;> rfl

theorem finishItem_quiet (s : State) (i : TxItem) (status : Nat) (stamp : Option Nat) (len : Nat) :
    Quiet s (finishItem s i status stamp len) := by
  unfold finishItem
  split
  · exact complete_quiet ..
  · rfl

theorem countSent_lp (s : State) (i : TxItem) : (countSent s i).lp = s.lp :=
  ((within_countSent (ps := [.stat]) (by decide) i).2 .refl) .lp (by decide)

/-- The counters of what was sent are none of the ports'. -/
theorem countSent_statGet (s : State) (i : TxItem) (j : Fin 16) :
    statGet (countSent s i) (lpCnt j + 0x10) = statGet s (lpCnt j + 0x10) := by
  have other {a : Nat} (far : 0xB00000 ≤ a) : lpCnt j + 0x10 ≠ a := by
    unfold lpCnt lpBase
    omega
  have bumped (t : State) (a n : Nat) : statGet (bump t a n) (lpCnt j + 0x10) = statGet t (lpCnt j + 0x10) := by
    rw [statGet, bump_stat, ← statGet]
  unfold countSent
  split
  case h_2 => rw [bumped, statGet_statInc_ne _ _ (other (by decide))]
  case h_10 => rfl
  all_goals exact statGet_statInc_ne _ _ (other (by decide))

/-- The frame has left its port, and is counted there. -/
def sentFrame (s : State) (j : Nat) (i : TxItem) : State :=
  let f := padFrame i.frame
  let p := portOf s j
  let s1 := setPort s j (p.pauseDue.foldl (pauseAct s j) { p with sending := none, pauseDue := [] })
  let s2 := emit (statInc (statInc s1 (lpCnt j + 0x10) 1) (lpCnt j + 0x18) (f.length + 4)) (.frame j (f ++ fcs f))
  if isPauseTx i then bump s2 (lpCnt j + 0x4C) 1 else s2

theorem endTx_of_sending {j : Nat} {i : TxItem} (sends : (portOf s j).sending = some i) :
    endTx s j = finishItem (countSent (sentFrame s j i) i) i stOk (some (shortT16 i.stamp)) ((padFrame i.frame).length + 4) := by
  unfold endTx
  simp only [sends]
  rfl

theorem sentFrame_free (s : State) (j : Nat) (i : TxItem) : (portOf (sentFrame s j i) j).sending = none := by
  unfold sentFrame
  extract_lets f p s1 s2
  have free : (portOf s2 j).sending = none := by
    show (portOf s1 j).sending = none
    rw [portOf_setPort, pauseAct_sending]
  split
  · rw [portOf_bump, free]
  · exact free

theorem sentFrame_statGet (s : State) (j : Nat) (i : TxItem) :
    statGet (sentFrame s j i) (lpCnt j + 0x10) = statGet s (lpCnt j + 0x10) + 1 := by
  unfold sentFrame
  extract_lets f p s1 s2
  have counted : statGet s2 (lpCnt j + 0x10) = statGet s (lpCnt j + 0x10) + 1 := by
    show statGet (statInc (statInc s1 (lpCnt j + 0x10) 1) (lpCnt j + 0x18) (f.length + 4)) (lpCnt j + 0x10) = _
    rw [statGet_statInc_ne _ _ (by omega), statGet_statInc]
    rfl
  split
  · rw [statGet, bump_stat, ← statGet, counted]
  · exact counted

theorem sentFrame_out (s : State) (j : Nat) (i : TxItem) :
    (sentFrame s j i).out = .frame j (padFrame i.frame ++ fcs (padFrame i.frame)) :: s.out := by
  unfold sentFrame
  extract_lets f p s1 s2
  split
  · rw [bump_regs]
    rfl
  · rfl

theorem exec_lpTxEnd_ends {j : Fin 16} {i : TxItem} (sends : (portOf s j).sending = some i) :
    Gives (.lpTxEnd j) s fun t =>
      (portOf t j).sending = none ∧ statGet t (lpCnt j + 0x10) = statGet s (lpCnt j + 0x10) + 1 ∧
      (i.src = .device ∨ i.src = .pause →
        t.out = .frame j (padFrame i.frame ++ fcs (padFrame i.frame)) :: s.out) ∧
      (i.src = .pause → Counted s t (lpCnt j + 0x4C) 1) := by
  refine ⟨_, congrArg Host.Outcome.next (endTx_of_sending sends), ?_, ?_, fun own => ?_, fun pause => ?_⟩
  · rw [portOf_of_lp (finishItem_quiet ..).lp, portOf_of_lp (countSent_lp ..), sentFrame_free]
  · rw [statGet, (finishItem_quiet ..).stat, ← statGet, countSent_statGet, sentFrame_statGet]
  · rcases own with own | own <;>
    · simp only [finishItem, countSent, own]
      exact sentFrame_out ..
  · simp only [finishItem, countSent, pause]
    have is : isPauseTx i = true := by simp [isPauseTx, pause]
    unfold sentFrame
    extract_lets f p s1 s2
    rw [if_pos is]
    exact (bump_counted s2 1 (by unfold lpCnt lpBase; omega)).of_rd rfl

/-- A pause that ends leaves the pauses that are due. -/
theorem pauseDue_setStorm_unpause (p : LpPort) (sc : PauseScope) :
    (setStorm (unpause p sc) true sc).pauseDue = p.pauseDue := by
  cases sc <;> rfl

/-- Settles O19. -/
theorem linePortsSendFrames : Obligations.LinePortsSendFrames := by
  unfold Obligations.LinePortsSendFrames
  refine ⟨fun _ _ _ enabled up free picked => ⟨_, rfl, startTx_begins enabled up free picked⟩,
    fun _ _ _ enabled up free picked => ⟨_, rfl, startTx_begins enabled up free picked⟩,
    fun _ _ _ sends => exec_lpTxEnd_ends sends, fun _ _ _ => rfl, fun s j sc watched paused => ⟨_, rfl, ?_⟩,
    fun s j sc fitted => ⟨_, rfl, ?_⟩, fun s j c sends off above => ⟨_, rfl, ?_⟩⟩
  · dsimp only
    rw [if_neg (not_or.mpr ⟨watched, by simp [paused]⟩), portOf_portEvent, portOf_setPort, pauseDue_setStorm_unpause]
  · beta_reduce
    rw [if_neg (by simp [fitted]), portOf_stormEnd, portOf_portEvent, portOf_setPort]
  · beta_reduce
    rw [if_pos ⟨sends, off, above⟩, sendPfc, portOf_setPort]
    simp

end Sys2Proof.Machine
end

section
/-! SUPPORT. R185 to R189: the management port (O20). -/

namespace Sys2Proof.Machine

variable {s t u : State}

theorem mgSend_mg (s : State) (i : TxItem) : (mgSend s i).mg = s.mg := (finishItem_quiet ..).mg

theorem mgSends_mg (q : List TxItem) (s : State) : (q.foldl mgSend s).mg = s.mg := by
  induction q generalizing s with
  | nil => rfl
  | cons i q ih => rw [List.foldl_cons, ih, mgSend_mg]

/-- The queue leaves where MG is up and not paused. -/
theorem mgDrain_mg (s : State) : (mgDrain s).mg =
    if mgUp s = true ∧ mgPaused s = false then { s.mg with queue := [], paused := false } else s.mg := by
  unfold mgDrain
  split
  · exact mgSends_mg ..
  · rfl

theorem mgDrain_storm (s : State) : (mgDrain s).mg.storm = s.mg.storm := by
  rw [mgDrain_mg]
  split <;> rfl

theorem mgDrain_unpaused (free : s.mg.paused = false) : (mgDrain s).mg.paused = false := by
  rw [mgDrain_mg]
  split
  · rfl
  · exact free

theorem mgDown_mg (s : State) : (mgDown s).mg = { s.mg with up := false, queue := [], paused := false } := by
  have flushed (q : List TxItem) (t : State) :
      (q.foldl (fun t i => finishItem (bump t 0x901034 1) i stLinkDown none 0) t).mg = t.mg := by
    induction q generalizing t with
    | nil => rfl
    | cons i q ih => rw [List.foldl_cons, ih, (finishItem_quiet ..).mg, bump_mg]
  unfold mgDown
  dsimp only
  rw [flushed]

theorem mgMbps_le (s : State) : 0 < mgMbps s ∧ mgMbps s ≤ 1000 := by
  unfold mgMbps
  repeat' split
  all_goals decide

/-- A PAUSE with quanta holds MG's queue. -/
theorem mgPause_holds {f : Bytes} (calm : s.mg.storm = false) (quanta : be16 f 16 ≠ 0) :
    (mgPause s 1 f).mg.paused = true ∧ (mgPause s 1 f).mg.queue = s.mg.queue := by
  unfold mgPause
  extract_lets s1 q
  have same : s1.mg = s.mg := bump_mg ..
  rw [if_neg (by simp [same, calm])]
  have lasts : 0 < q * 512 * 500 / mgMbps s1 := by
    obtain ⟨pos, most⟩ := mgMbps_le s1
    have some_ : 1 ≤ q := Nat.one_le_iff_ne_zero.mpr quanta
    exact Nat.div_pos (by omega) pos
  rw [mgDrain_mg, if_neg]
  · exact ⟨decide_eq_true quanta, (congrArg Mg.queue same :)⟩
  · rintro ⟨_, runs⟩
    have elapsed : ¬s1.tb.ticks < s1.tb.ticks + q * 512 * 500 / mgMbps s1 := by
      simpa [mgPaused, q, quanta] using runs
    exact elapsed (Nat.lt_add_of_pos_right lasts)

theorem exec_mgLink_follows {up : Bool} {sp : BitVec 2} (on : rb s 0x900000 0 = true)
    (changes : ¬(s.mg.up = up ∧ s.mg.speed = sp.toNat)) :
    Gives (.mgLink up sp) s fun t => t.mg.up = up ∧ t.mg.speed = sp.toNat ∧ (up = false → t.mg.queue = []) := by
  refine ⟨_, rfl, ?_⟩
  extract_lets m s1
  rw [if_neg (by simpa [on] using changes)]
  beta_reduce
  rw [raiseN_mg]
  cases up with
  | false => exact ⟨congrArg Mg.up (mgDown_mg s), rfl, fun _ => congrArg Mg.queue (mgDown_mg s)⟩
  | true => exact ⟨rfl, rfl, nofun⟩

/-- Settles O20. -/
theorem managementPortTakesEffect : Obligations.ManagementPortTakesEffect := by
  unfold Obligations.ManagementPortTakesEffect
  refine ⟨fun s f ok up long fits bad => ⟨_, rfl, ?_⟩, fun s f ok up long fits good pause calm quanta => ⟨_, rfl, ?_⟩,
    fun _ _ => rfl, fun _ _ _ on changes => exec_mgLink_follows on changes, fun s watched paused => ⟨_, rfl, ?_⟩,
    fun s => ⟨_, rfl, ?_⟩, fun s bits auto low busy => ⟨_, rfl, ?_⟩⟩
  · dsimp only
    rw [if_neg (by simp [up]), if_neg (by omega), if_neg (by omega), if_pos bad]
    exact bump_counted s 1 (by decide)
  · dsimp only
    rw [if_neg (by simp [up]), if_neg (by omega), if_neg (by omega), if_neg (by simp [good]), pause]
    exact mgPause_holds calm quanta
  · dsimp only
    rw [if_neg (not_or.mpr ⟨watched, by simp [paused]⟩), mgDrain_storm, raiseN_mg]
    exact ⟨rfl, mgDrain_unpaused (by rw [raiseN_mg])⟩
  · exact mgDrain_storm _
  · dsimp only
    rw [if_neg (by simp [auto]), if_pos low, if_pos (.inl busy), mgSpeedChange]
    simp

end Sys2Proof.Machine
end

section
/-! SUPPORT. R220 to R222: rules and profiles, staged and applied (O22). -/

namespace Sys2Proof.Machine

variable {s t u : State}

/-! ## Masked writes -/

theorem rd_storeMask_ne (s : State) {a b : Nat} (mask : Nat) (v : Word) (other : b ≠ a) :
    rd (storeMask s a mask v) b = rd s b := by
  unfold storeMask
  split
  · rfl
  · exact rd_wr_ne s _ other

/-- What a masked write leaves in its register depends on that register alone. -/
theorem rd_storeMask_congr {a : Nat} (mask : Nat) (v : Word) (same : rd t a = rd s a) :
    rd (storeMask t a mask v) a = rd (storeMask s a mask v) a := by
  unfold storeMask
  split
  · exact same
  · rw [rd_wr_same, rd_wr_same, same]

theorem rd_storeMask_asWritten (s : State) {a : Nat} (plain : storesAsWritten a = true) (mask : Nat) (v : Word) :
    rd (storeMask s a mask v) a = (rd s a &&& ~~~(BitVec.ofNat 32 mask)) ||| (v &&& BitVec.ofNat 32 mask) := by
  rw [storeMask_asWritten s plain, rd_wr_same]

/-! ## Rules -/

theorem ruleWords_asWritten : ∀ r : Fin 256, storesAsWritten (ruleA r) = true ∧ storesAsWritten (ruleA r + 4) = true := by
  decide +kernel

theorem rd_applyStaged_ne (s : State) {a b : Nat} (mask : Nat) (w : Option Word) (other : b ≠ a) :
    rd (applyStaged s a mask w) b = rd s b := by
  cases w with
  | none => rfl
  | some v => exact rd_storeMask_ne s mask v other

theorem exec_rspRuleApply_ctl (s : State) (r : Fin 256) (v : Word) :
    Gives (.rspRuleApply r v) s fun t => rd t (ruleA r) = v := by
  refine ⟨_, rfl, ?_⟩
  beta_reduce
  rw [rd_storeMask_asWritten _ (ruleWords_asWritten r).1]
  have all : BitVec.ofNat 32 full = BitVec.allOnes 32 := by decide
  rw [all, BitVec.not_allOnes, BitVec.and_zero, BitVec.zero_or, BitVec.and_allOnes]

theorem exec_rspRuleApply_key {r : Fin 256} {v k : Word} (staged : s.rsp.ruleStage.lookup (2 * r.val) = some k) :
    Gives (.rspRuleApply r v) s fun t =>
      rd t (ruleA r + 4) = (rd s (ruleA r + 4) &&& ~~~(0xFFFF3FFF : Word)) ||| (k &&& 0xFFFF3FFF) := by
  refine ⟨_, rfl, ?_⟩
  extract_lets st s1 s2
  have key : rd s1 (ruleA r + 4) = (rd s (ruleA r + 4) &&& ~~~(0xFFFF3FFF : Word)) ||| (k &&& 0xFFFF3FFF) := by
    simp only [s1, st, staged, applyStaged]
    exact rd_storeMask_asWritten s (ruleWords_asWritten r).2 _ k
  beta_reduce
  rw [rd_storeMask_ne _ _ _ (by omega), ← key]
  exact rd_applyStaged_ne s1 _ _ (by omega)

/-! ## Profiles -/

theorem profA_asWritten : ∀ p : Fin 64, storesAsWritten (profA p) = true := by decide +kernel

/-- Applying the staged words of a profile leaves the registers they do not name, beside MINPOLL and MAXPOLL. -/
theorem rd_profStaged (s : State) {p a : Nat} (beside : a ≠ profA p + 4)
    (unnamed : ∀ e ∈ s.rsp.profStage, e.1 / 8 = p → a ≠ profA p + e.2.1) : rd (profStaged s p) a = rd s a := by
  have stored (l : List (Nat × Nat × Word)) (t : State) (other : ∀ e ∈ l, a ≠ profA p + e.2.1) :
      rd (l.foldl (fun t e => storeMask t (profA p + e.2.1) (profMask e.2.1) e.2.2) t) a = rd t a := by
    induction l generalizing t with
    | nil => rfl
    | cons e l ih =>
      rw [List.foldl_cons, ih _ fun x hx => other x (List.mem_cons_of_mem e hx),
        rd_storeMask_ne _ _ _ (other e List.mem_cons_self)]
  unfold profStaged
  extract_lets mine s1 s2
  have words : rd s1 a = rd s a := stored mine s fun e he => by
    obtain ⟨staged, own⟩ := List.mem_filter.mp he
    exact unnamed e staged (of_decide_eq_true own)
  show rd s2 a = rd s a
  simp only [s2]
  split
  · rw [rd_wrf_ne _ _ _ _ beside, words]
  · exact words

theorem exec_rspProfileApply_accepts {p : Fin 64} {v : Word}
    (fits : profRefused (profOf (storeMask (profStaged s p) (profA p) 0x7FFF v) p) = false) :
    exec (.rspProfileApply p v) s = .next (setUnit (storeMask (profStaged s p) (profA p) 0x7FFF v) 36 0) := by
  refine congrArg Host.Outcome.next ?_
  dsimp only
  rw [if_neg (by simp [fits])]

theorem exec_rspProfileApply_refuses {p : Fin 64} {v : Word}
    (bad : profRefused (profOf (storeMask (profStaged s p) (profA p) 0x7FFF v) p) = true) :
    exec (.rspProfileApply p v) s = .next (raiseN s 240 p [p.val]) := by
  refine congrArg Host.Outcome.next ?_
  dsimp only
  rw [if_pos bad]

theorem profOffset_bounds (w : ProfWord) : 4 ≤ profOffset w ∧ profOffset w < 32 ∧ profOffset w % 4 = 0 := by
  cases w <;> decide

/-- The profile's one staged word is stored with its control word. -/
theorem exec_rspProfileApply_word {p : Fin 64} {w : ProfWord} {x v : Word} (later : w ≠ .ntp)
    (staged : s.rsp.profStage = [(8 * p.val + profOffset w / 4, (profOffset w, x))])
    (fits : profRefused (profOf (storeMask (profStaged s p) (profA p) 0x7FFF v) p) = false) :
    Gives (.rspProfileApply p v) s fun t =>
      rd t (profA p + profOffset w) =
        rd (storeMask s (profA p + profOffset w) (profMask (profOffset w)) x) (profA p + profOffset w) ∧
      t.rsp.profStage = [] := by
  obtain ⟨low, high, aligned⟩ := profOffset_bounds w
  have own : (8 * p.val + profOffset w / 4) / 8 = p := by omega
  have beside : profA p + profOffset w ≠ profA p + 4 := by cases w <;> simp_all [profOffset]
  refine ⟨_, exec_rspProfileApply_accepts fits, ?_, ?_⟩
  · show rd (storeMask (profStaged s p) (profA p) 0x7FFF v) (profA p + profOffset w) = _
    rw [rd_storeMask_ne _ _ _ (by omega), profStaged, staged]
    simp only [List.filter_cons, own, decide_true, if_true, List.filter_nil, List.foldl_cons, List.foldl_nil]
    change rd (if _ then _ else _) _ = _
    split
    · rw [rd_wrf_ne _ _ _ _ beside]
    · rfl
  · show (storeMask (profStaged s p) (profA p) 0x7FFF v).rsp.profStage = []
    rw [storeMask_rsp, profStaged, staged]
    simp [own]

/-- Settles O22. -/
theorem rulesAndProfilesAreStagedThenApplied : Obligations.RulesAndProfilesAreStagedThenApplied := by
  unfold Obligations.RulesAndProfilesAreStagedThenApplied
  refine ⟨fun s r m v => ⟨_, rfl, tget_tput_same .., rfl⟩, fun s r v => exec_rspRuleApply_ctl s r v,
    fun _ _ _ _ staged => exec_rspRuleApply_key staged, fun s p w v => ⟨_, rfl, tget_tput_same .., rfl⟩,
    fun s p v none fits => ⟨_, exec_rspProfileApply_accepts fits, ?_⟩,
    fun _ _ _ _ _ later staged fits => exec_rspProfileApply_word later staged fits,
    fun s p v bad => ⟨_, exec_rspProfileApply_refuses bad, raiseN_rsp .., fun o few => rd_raiseN _ _ _ _ ?_⟩⟩
  · show rd (storeMask (profStaged s p) (profA p) 0x7FFF v) (profA p) = _
    rw [rd_storeMask_asWritten _ (profA_asWritten p), rd_profStaged s (by omega) fun e he own => absurd own (none e he)]
    rfl
  · unfold eventReg profA
    simp
    omega

end Sys2Proof.Machine
end

section
/-! SUPPORT. O23: the lanes of the responder (R242 to R244). An event keeps the low bits of every control word of a
profile, wherever a profile's number puts it: EVT_SAT only gains the bits of the blocks of the event counters. -/

namespace Sys2Proof.Machine

variable {s t u : State}

/-! ## The low bits of the registers of the events -/

/-- EVT_SAT keeps the bits of the blocks below the host interface. -/
def SatLow (s t : State) : Prop := (rd t 0x1500040).setWidth 14 = (rd s 0x1500040).setWidth 14

theorem SatLow.of_regs (h : t.regs = s.regs) : SatLow s t := by rw [SatLow, rd, h, ← rd]

theorem SatLow.trans (h : SatLow s t) (k : SatLow t u) : SatLow s u := Eq.trans k h

theorem blocks_before_hif : ∀ b < 14, (blocks.getD b (0, 0, [])).1 + (blocks.getD b (0, 0, [])).2.1 ≤ 0xE00000 := by
  decide

theorem blockOf_bounds {a b : Nat} (high : 0xE00000 ≤ a) (h : blockOf a = some b) : 14 ≤ b ∧ b < 23 := by
  obtain ⟨small, hit, -⟩ := List.findIdx?_eq_some_iff_getElem.mp h
  refine ⟨Nat.le_of_not_lt fun below => ?_, small⟩
  have ends := blocks_before_hif b below
  rw [List.getD_eq_getElem _ _ small] at ends
  have inside := (of_decide_eq_true hit).2
  omega

theorem SatLow.orReg {b : Nat} (lo : 14 ≤ b) (hi : b < 23) : SatLow s (orReg s 0x1500040 (2 ^ b)) := by
  have bit : (BitVec.ofNat 32 (2 ^ b)).setWidth 14 = 0#14 := by interval_cases b <;> rfl
  rw [SatLow, rd_orReg_same, BitVec.setWidth_or, bit, BitVec.or_zero]

theorem SatLow.bump {a : Nat} (high : 0xE00000 ≤ a) (other : a ≠ 0x1500040) (n : Nat) : SatLow s (bump s a n) := by
  have written (v : Word) : SatLow s (wr s a v) := by rw [SatLow, rd_wr_ne s v other.symm]
  unfold Machine.bump
  dsimp only
  split
  · split
    · next b block =>
      obtain ⟨lo, hi⟩ := blockOf_bounds high block
      exact (written _).trans (.orReg lo hi)
    · exact written _
  · exact written _

theorem SatLow.foldl {α : Type} {f : State → α → State} (step : ∀ s a, SatLow s (f s a)) (l : List α) (s : State) :
    SatLow s (l.foldl f s) := by
  induction l generalizing s with
  | nil => exact .of_regs rfl
  | cons a l ih => exact (step s a).trans (ih _)

theorem SatLow.deliver (s : State) (typ id sev stamp : Nat) (p : Bytes) : SatLow s (deliver s typ id sev stamp p).s := by
  have ring := srcRing_range s id
  unfold Machine.deliver
  dsimp only
  repeat' split
  · exact .bump (by decide) (by decide) 1
  · refine SatLow.trans (.of_regs ?_) (.bump (by unfold ringA; omega) (by unfold ringA; omega) 1)
    simp [setRingDrop, flushPend_regs]
  · exact .of_regs (by simp [setRingDrop, flushPend_regs])
  · exact .of_regs (by simp [flushPend_regs])
  · exact .of_regs (by simp [setCoal, coalesce, setRingDrop, flushPend_regs])
  · exact .of_regs (by simp [flushPend_regs])

theorem SatLow.raiseFuel (n : Nat) (s : State) (id inst sev : Nat) (p : Bytes) :
    SatLow s (raiseFuel n s id inst sev p) := by
  induction n generalizing s id inst sev p with
  | zero => exact .of_regs rfl
  | succ n ih =>
    have counted := pmcAddAll_regs 1 (pmcCounting s id 31) s
    unfold Machine.raiseFuel
    rcases hp : pmcAddAll 1 (pmcCounting s id 31) s with ⟨s1, ovfs⟩
    rw [hp] at counted
    dsimp -zeta only
    extract_lets s2 y s3 d s4
    have alarmed : s2.regs = s.regs := by
      show (if classOf id = 1 ∧ sev ≠ 0 then alarmRaise s1 id inst sev else s1).regs = s.regs
      rw [apply_ite State.regs, alarmRaise_regs, ite_self, counted]
    have delivered : SatLow s d.s := by
      have noted : SatLow s s3 := .of_regs alarmed
      show SatLow s (Delivery.s (if y.summary then _ else _))
      split
      · exact noted
      · exact noted.trans (.deliver ..)
    refine SatLow.trans ?_ (.foldl (fun t _ => ih t ..) ovfs s4)
    show SatLow s (if d.startsCoalescing then _ else _)
    split
    · exact delivered.trans (ih ..)
    · exact delivered

theorem SatLow.raiseSev (s : State) (id inst sev : Nat) (p : Bytes) : SatLow s (raiseSev s id inst sev p) :=
  (SatLow.raiseFuel 4 s id inst sev p).trans (.of_regs rfl)

theorem SatLow.raiseN (s : State) (id inst : Nat) (ns : List Nat) : SatLow s (raiseN s id inst ns) := .raiseSev ..

theorem SatLow.pmcSignal (s : State) (sig qual n : Nat) : SatLow s (pmcSignal s sig qual n) := by
  have counted := pmcAddAll_regs n (pmcCounting s sig qual) s
  unfold Machine.pmcSignal
  rcases hp : pmcAddAll n (pmcCounting s sig qual) s with ⟨s1, ovfs⟩
  rw [hp] at counted
  exact SatLow.trans (.of_regs counted) (.foldl (fun t _ => .raiseN t ..) ovfs s1)

/-! ## A request that a lane takes -/

@[simp] theorem plainRegs_pmcSignal (s : State) (sig qual n : Nat) : plainRegs (pmcSignal s sig qual n) = plainRegs s := by
  have counted := pmcAddAll_regs n (pmcCounting s sig qual) s
  unfold pmcSignal
  rcases hp : pmcAddAll n (pmcCounting s sig qual) s with ⟨s1, ovfs⟩
  rw [hp] at counted
  refine Eq.trans ?_ (plainRegs_of_regs counted)
  exact List.foldlRecOn (motive := fun t => plainRegs t = plainRegs s1) _ _ rfl
    fun t same _ _ => (plainRegs_raiseN t ..).trans same

/-- The state in which a lane takes a request: it waits no longer, and the signal of its acceptance is counted. -/
def taken (s : State) (r : Req) : State :=
  pmcSignal { s with rsp := { s.rsp with waiting := s.rsp.waiting.erase r } } 0x200 r.j 1

theorem taken_tb (s : State) (r : Req) : (taken s r).tb = s.tb := pmcSignal_tb ..

theorem taken_rsp (s : State) (r : Req) : (taken s r).rsp = { s.rsp with waiting := s.rsp.waiting.erase r } := pmcSignal_rsp ..

theorem taken_waiting (s : State) (r : Req) : (taken s r).rsp.waiting = s.rsp.waiting.erase r := by rw [taken_rsp]

theorem laneOf_of_lanes (h : t.rsp.lanes = s.rsp.lanes) (k : Nat) : laneOf t k = laneOf s k := by rw [laneOf, h, ← laneOf]

theorem laneOf_taken (s : State) (r : Req) (k : Nat) : laneOf (taken s r) k = laneOf s k :=
  laneOf_of_lanes (by rw [taken_rsp]) k

theorem plainRegs_taken (s : State) (r : Req) : plainRegs (taken s r) = plainRegs s :=
  plainRegs_pmcSignal ..

theorem ctl_taken (s : State) (r : Req) (p : Nat) :
    (profOf (taken s r) p).ctl.setWidth 14 = (profOf s p).ctl.setWidth 14 := by
  show (rd (taken s r) (profA p)).setWidth 14 = (rd s (profA p)).setWidth 14
  by_cases sat : profA p = 0x1500040
  · rw [sat]
    exact SatLow.trans (.of_regs rfl) (.pmcSignal ..)
  · have plain : eventReg (profA p) = false := by
      unfold profA at *
      simp only [eventReg, Bool.or_eq_false_iff, decide_eq_false_iff_not]
      omega
    rw [rd_of_plainRegs (plainRegs_taken s r) plain]

theorem Prof.proto_eq_ctl (x : Prof) : x.proto = fld ((x.ctl.setWidth 14).setWidth 32) 1 2 := by
  simp only [Prof.proto, fld, bitsOf, BitVec.toNat_setWidth]
  omega

theorem Prof.unsync_eq_ctl (x : Prof) : x.unsync = (x.ctl.setWidth 14).getLsbD 6 := by
  simp [Prof.unsync, flag]

theorem proto_taken (s : State) (r : Req) (p : Nat) : (profOf (taken s r) p).proto = (profOf s p).proto := by
  rw [Prof.proto_eq_ctl, ctl_taken, ← Prof.proto_eq_ctl]

theorem unsync_taken (s : State) (r : Req) (p : Nat) : (profOf (taken s r) p).unsync = (profOf s p).unsync := by
  rw [Prof.unsync_eq_ctl, ctl_taken, ← Prof.unsync_eq_ctl]

theorem ntsDown_taken (s : State) (r : Req) : ntsDown (taken s r) = ntsDown s := by
  have nts : (taken s r).nts = s.nts := pmcSignal_nts ..
  have ent : (taken s r).ent = s.ent := pmcSignal_ent ..
  have enabled : rd (taken s r) 0xC00000 = rd s 0xC00000 := rd_of_plainRegs (plainRegs_taken s r) (by decide)
  simp only [ntsDown, curSlot?, slotOf, rb, taken_tb, nts, ent, enabled]
  rfl

theorem fellSilent_taken (s : State) (r : Req) :
    fellSilent (taken s r) (profOf (taken s r) r.prof) r = fellSilent s (profOf s r.prof) r := by
  simp only [fellSilent, proto_taken, unsync_taken, ntsDown_taken, taken_tb]

/-- The lane takes the request now. -/
structure Takes (s : State) (k : Fin 16) (r : Req) : Prop where
  healthy : laneHealthy s k = true
  awake : laneAwake s k = true
  room : (laneOf s k).jobs.length < 8
  next : nextReq s k = some r

/-- The job of a request that a lane takes: what its acceptance samples (R242). -/
def jobOf (s : State) (r : Req) (n : NtsJob) : Job where
  req := r
  tv := s.tb.timeValid
  prof := profOf s r.prof
  hdr := ntpHeader s (profOf s r.prof) (if r.kod then .kod else if s.tb.timeValid then .served else .unsync)
    (payload r.frame) r.stamp
  nts := n

/-- A lane with one more job behind those that it holds. -/
def withJob (s : State) (k : Nat) (jb : Job) : State := setLane s k { laneOf s k with jobs := (laneOf s k).jobs ++ [jb] }

section
variable {k : Fin 16} {r : Req}

theorem Takes.free (h : Takes s k r) :
    ¬(laneHealthy s k = false ∨ laneAwake s k = false ∨ laneDepth ≤ (laneOf s k).jobs.length) := by
  simp [h.healthy, h.awake, laneDepth, h.room]

theorem execLaneAccept_silent (h : Takes s k r) {c : Option Nat} (silent : fellSilent s (profOf s r.prof) r = some c) :
    execLaneAccept k s = .next (releaseReq (dropCount (taken s r) r.j c) r) := by
  refine congrArg Host.Outcome.next ?_
  rw [if_neg h.free, h.next]
  dsimp only
  rw [← taken, fellSilent_taken, silent]

theorem execLaneAccept_plain (h : Takes s k r) (serves : fellSilent s (profOf s r.prof) r = none)
    (proto : (profOf s r.prof).proto ≠ 1) :
    execLaneAccept k s = .next (withJob (taken s r) k (jobOf (taken s r) r .plain)) := by
  refine congrArg Host.Outcome.next ?_
  rw [if_neg h.free, h.next]
  dsimp only
  rw [← taken, fellSilent_taken, serves]
  dsimp only
  rw [proto_taken, if_neg proto]
  rfl

theorem execLaneAccept_nts (h : Takes s k r) (serves : fellSilent s (profOf s r.prof) r = none)
    (proto : (profOf s r.prof).proto = 1) {n : NtsJob} (verified : startNts (taken s r) r = (u, some n)) :
    execLaneAccept k s = .next (withJob u k (jobOf (taken s r) r n)) := by
  refine congrArg Host.Outcome.next ?_
  rw [if_neg h.free, h.next]
  dsimp only
  rw [← taken, fellSilent_taken, serves]
  dsimp only
  rw [proto_taken, if_pos proto, verified]
  rfl

theorem withJob_jobs (s : State) (k : Nat) (jb : Job) : (laneOf (withJob s k jb) k).jobs = (laneOf s k).jobs ++ [jb] := by
  rw [withJob, laneOf_setLane]

theorem startNts_rsp (s : State) (r : Req) : (startNts s r).1.rsp = s.rsp :=
  ((within_startNts (ps := []) r).2 .refl) .rsp (by decide)

theorem releaseReq_rsp (s : State) (r : Req) : (releaseReq s r).rsp = s.rsp :=
  ((within_releaseReq (ps := [.lp]) (by decide) r).2 .refl) .rsp (by decide)

theorem dropCount_rsp (s : State) (j : Nat) (c : Option Nat) : (dropCount s j c).rsp = s.rsp :=
  ((within_dropCount (ps := []) j c).2 .refl) .rsp (by decide)

end

/-! ## Replies, faults and tests -/

theorem negotiate_lanes (j p : Nat) (pr : Prof) (peer b : Bytes) (acc : State × Bytes) (tlv : Nat × Nat × Nat) :
    (negotiate j p pr peer b acc tlv).1.rsp.lanes = acc.1.rsp.lanes := by
  unfold negotiate
  extract_lets s typ old s1 log dur
  split
  · show s1.rsp.lanes = s.rsp.lanes
    unfold s1
    cases old <;> rfl
  · split
    · exact congrArg Rsp.lanes (bump_rsp ..)
    · split
      · exact congrArg Rsp.lanes ((raiseN_rsp ..).trans (bump_rsp ..))
      · rfl

theorem queueReply_rsp (s : State) (jb : Job) (kind : RepKind) (frame : Bytes) (ins : Insert) (launch : Option Nat)
    (extra : Nat) : (queueReply s jb kind frame ins launch extra).rsp = s.rsp :=
  ((within_queueReply (ps := [.lp, .gnt]) (by decide) jb kind frame ins launch extra).2 .refl) .rsp (by decide)

theorem signaling_lanes (s : State) (jb : Job) : (signaling s jb).rsp.lanes = s.rsp.lanes := by
  unfold signaling
  simp only [queueReply_rsp]
  exact List.foldlRecOn (motive := fun r : State × Bytes => r.1.rsp.lanes = s.rsp.lanes) _ _ rfl
    fun r same tlv _ => (negotiate_lanes ..).trans same

theorem ptpReply_lanes (s : State) (jb : Job) : (ptpReply s jb).rsp.lanes = s.rsp.lanes := by
  unfold ptpReply
  split
  · exact congrArg Rsp.lanes (((within_delayResp (ps := [.lp, .gnt]) (by decide) jb).2 .refl) .rsp (by decide))
  · exact congrArg Rsp.lanes (((within_pdelayResp (ps := [.lp, .gnt]) (by decide) jb).2 .refl) .rsp (by decide))
  · exact signaling_lanes s jb

theorem ntpReply_rsp (s : State) (jb : Job) : (ntpReply s jb).rsp = s.rsp :=
  ((within_ntpReply (ps := [.lp, .gnt]) (by decide) jb).2 .refl) .rsp (by decide)

theorem ntsReply_rsp (s : State) (jb : Job) : (ntsReply s jb).rsp = s.rsp :=
  ((within_ntsReply (ps := [.lp, .nts, .gnt, .ent]) (by decide) jb).2 .refl) .rsp (by decide)

/-- The reply of a job, by the protocol of its profile. -/
def reply (s : State) (jb : Job) : State :=
  match jb.prof.proto with
  | 0 => ntpReply s jb
  | 1 => ntsReply s jb
  | _ => ptpReply s jb

theorem execLaneReplyDone_cons {k : Fin 16} {jb : Job} {rest : List Job} (jobs : (laneOf s k).jobs = jb :: rest) :
    execLaneReplyDone k s = .next (reply (releaseReq (setLane s k { laneOf s k with jobs := rest }) jb.req) jb) := by
  unfold execLaneReplyDone
  rw [jobs]
  rfl

theorem reply_lanes (s : State) (jb : Job) : (reply s jb).rsp.lanes = s.rsp.lanes := by
  unfold reply
  split
  · rw [ntpReply_rsp]
  · rw [ntsReply_rsp]
  · exact ptpReply_lanes s jb

theorem refreshServing_lanes (s : State) : (refreshServing s).rsp.lanes = s.rsp.lanes := by
  unfold refreshServing
  extract_lets a src s1 b
  have first : s1.rsp.lanes = s.rsp.lanes := by
    unfold s1
    split
    · rfl
    · rw [raiseN_rsp]
  split
  · exact first
  · rw [raiseN_rsp]
    exact first

theorem loseWaiting_lanes (s : State) : (loseWaiting s).rsp.lanes = s.rsp.lanes := by
  unfold loseWaiting
  split
  · rfl
  · extract_lets n src s1
    have released : s1.rsp.lanes = s.rsp.lanes :=
      List.foldlRecOn (motive := fun t : State => t.rsp.lanes = s.rsp.lanes) _ _ rfl fun t same r _ => by
        rw [releaseReq_rsp, same]
    split
    · exact released
    · rw [bump_rsp]
      exact released

theorem orReg_rsp (s : State) (a m : Nat) : (orReg s a m).rsp = s.rsp := rfl

/-- The lane `k` as the request for a test of the lanes `m` leaves it. -/
def retested (s : State) (m : BitVec 16) (k : Nat) : Lane :=
  if m.getLsbD k = true ∧ (laneOf s k).faulty = true ∧ rb s 0xB00008 k = true then { laneOf s k with testing := true }
  else laneOf s k

/-- One lane is tested where the request names it. -/
def retest (m : BitVec 16) (s : State) (k : Nat) : State :=
  if m.getLsbD k = true ∧ (laneOf s k).faulty = true ∧ rb s 0xB00008 k = true then
    setLane s k { laneOf s k with testing := true }
  else s

theorem laneOf_retest_same (m : BitVec 16) (s : State) (k : Nat) : laneOf (retest m s k) k = retested s m k := by
  unfold retest retested
  split
  · rw [laneOf_setLane]
  · rfl

theorem laneOf_retest_ne (m : BitVec 16) (s : State) {k j : Nat} (other : j ≠ k) :
    laneOf (retest m s k) j = laneOf s j := by
  unfold retest
  split
  · rw [laneOf_setLane_ne _ _ other]
  · rfl

theorem retest_regs (m : BitVec 16) (s : State) (k : Nat) : (retest m s k).regs = s.regs := by
  unfold retest
  split <;> rfl

theorem retested_of_same (m : BitVec 16) {k : Nat} (lane : laneOf t k = laneOf s k) (regs : t.regs = s.regs) :
    retested t m k = retested s m k := by
  have word : rb t 0xB00008 k = rb s 0xB00008 k := by rw [rb, rd, regs, ← rd, ← rb]
  rw [retested, retested, lane, word]

/-- The lanes below `n` have been seen to; those from it on are as they were. -/
theorem laneOf_retests (m : BitVec 16) (s : State) (n k : Nat) :
    laneOf ((List.range n).foldl (retest m) s) k = (if k < n then retested s m k else laneOf s k) ∧
    ((List.range n).foldl (retest m) s).regs = s.regs := by
  induction n with
  | zero => exact ⟨rfl, rfl⟩
  | succ n ih =>
    obtain ⟨lane, regs⟩ := ih
    rw [List.range_succ, List.foldl_append, List.foldl_cons, List.foldl_nil]
    refine ⟨?_, (retest_regs ..).trans regs⟩
    rcases Nat.lt_trichotomy k n with below | rfl | above
    · rw [laneOf_retest_ne m _ (by omega), lane, if_pos below, if_pos (by omega)]
    · rw [if_neg (Nat.lt_irrefl k)] at lane
      rw [laneOf_retest_same, retested_of_same m lane regs, if_pos (by omega)]
    · rw [laneOf_retest_ne m _ (by omega), lane, if_neg (by omega), if_neg (by omega)]

/-- Settles O23: a lane that takes a request pushes its job or drops it, and what follows the change of a lane leaves the
lanes as they are. -/
theorem responderLanesTakeEffect : Obligations.ResponderLanesTakeEffect := by
  unfold Obligations.ResponderLanesTakeEffect
  refine ⟨fun s k r healthy awake room next serves proto => ?plain, fun s k r c healthy awake room next silent => ?dropped,
    fun s k r u n healthy awake room next serves proto verified => ?nts, fun s k jb rest jobs => ?reply,
    fun s k sound => ?fault, fun s m k known => ?retests, fun s k testing => ?passed, fun s k testing => ?failed⟩
  case plain =>
    refine ⟨_, execLaneAccept_plain ⟨healthy, awake, room, next⟩ serves proto, ?_, taken_waiting s r⟩
    rw [withJob_jobs, laneOf_taken, List.map_append]
    rfl
  case dropped =>
    refine ⟨_, execLaneAccept_silent ⟨healthy, awake, room, next⟩ silent, ?_⟩
    have rsp : (releaseReq (dropCount (taken s r) r.j c) r).rsp = (taken s r).rsp := by rw [releaseReq_rsp, dropCount_rsp]
    refine ⟨?_, (congrArg Rsp.waiting rsp).trans (taken_waiting s r)⟩
    rw [laneOf_of_lanes (congrArg Rsp.lanes rsp), laneOf_taken]
  case nts =>
    refine ⟨_, execLaneAccept_nts ⟨healthy, awake, room, next⟩ serves proto verified, ?_⟩
    have rsp : u.rsp = (taken s r).rsp :=
      (congrArg (fun x => x.1.rsp) verified.symm).trans (startNts_rsp (taken s r) r)
    refine ⟨?_, (congrArg Rsp.waiting rsp).trans (taken_waiting s r)⟩
    rw [withJob_jobs, laneOf_of_lanes (congrArg Rsp.lanes rsp), laneOf_taken, List.map_append]
    rfl
  case reply =>
    refine ⟨_, execLaneReplyDone_cons jobs, ?_⟩
    beta_reduce
    rw [laneOf_of_lanes (reply_lanes ..), laneOf_of_lanes (congrArg Rsp.lanes (releaseReq_rsp ..)), laneOf_setLane]
  case fault =>
    refine ⟨_, rfl, ?_⟩
    rw [if_neg (by simp [sound])]
    extract_lets given lost src s1 s2 s3
    beta_reduce
    rw [laneOf_of_lanes (refreshServing_lanes _), laneOf_of_lanes (loseWaiting_lanes _),
      laneOf_of_lanes (congrArg Rsp.lanes (raiseN_rsp ..)), laneOf_of_lanes (congrArg Rsp.lanes (orReg_rsp ..)),
      laneOf_setLane]
  case retests =>
    refine ⟨_, rfl, ?_⟩
    have lane := (laneOf_retests m s 16 k).1
    rw [if_pos known] at lane
    exact lane
  case passed =>
    refine ⟨_, rfl, ?_⟩
    rw [if_neg (by simp [testing]), if_neg (by decide)]
    extract_lets s1 s2
    have cold : laneOf s1 k = Lane.cold := by
      rw [laneOf_of_lanes (congrArg Rsp.lanes (raiseN_rsp ..)), laneOf_setLane]
    beta_reduce
    rw [laneOf_of_lanes (refreshServing_lanes _)]
    unfold s2
    split
    · exact cold
    · rw [laneOf_of_lanes (congrArg Rsp.lanes (alarmClear_rsp ..)), cold]
  case failed =>
    refine congrArg Host.Outcome.next ?_
    rw [if_neg (by simp [testing]), if_pos rfl]

end Sys2Proof.Machine
end

section
/-! SUPPORT. O24: the slots of the scheduler (R230 to R236). A frame for an enabled port that is up waits behind those of
its port. -/

namespace Sys2Proof.Machine

variable {s t u : State}

/-- One more frame waits on a port. -/
def queued (s : State) (j : Nat) (i : TxItem) : State :=
  setPort s j { portOf s j with queue := (portOf s j).queue ++ [i] }

theorem queued_queue (s : State) (j : Nat) (i : TxItem) : (portOf (queued s j i) j).queue = (portOf s j).queue ++ [i] := by
  rw [queued, portOf_setPort]

theorem queued_length (s : State) (j : Nat) (i : TxItem) :
    (portOf (queued s j i) j).queue.length = (portOf s j).queue.length + 1 := by simp [queued_queue]

theorem enqueue_open {j : Nat} (enabled : portEnabled s j = true) (up : (portOf s j).up = true) (i : TxItem) :
    enqueue s j i = queued s j i := by
  unfold enqueue
  dsimp only
  rw [if_pos ⟨enabled, .inl up⟩]
  rfl

theorem enqueueFront_length {j : Nat} (enabled : portEnabled s j = true) (up : (portOf s j).up = true) (i : TxItem) :
    (portOf (enqueueFront s j i) j).queue.length = (portOf s j).queue.length + 1 := by
  unfold enqueueFront
  dsimp only
  rw [if_pos ⟨enabled, .inl up⟩, portOf_setPort]
  rfl

theorem slotOpen_port {j : Nat} (h : slotOpen s j = true) : portEnabled s j = true ∧ (portOf s j).up = true := by
  simp only [slotOpen, Bool.and_eq_true] at h
  exact ⟨h.1.2, h.2⟩

/-! ## One frame on each of many ports -/

/-- A step over the ports that touches only the port it is at. -/
def PerPort (f : State → Nat → State) : Prop := ∀ t j, f t j = t ∨ ∃ x, f t j = setPort t j x

/-- Nothing but the line ports differs. -/
def PortsOnly (s t : State) : Prop := t = { s with lp := t.lp }

theorem PortsOnly.refl (s : State) : PortsOnly s s := rfl

theorem PortsOnly.step {f : State → Nat → State} (per : PerPort f) (h : PortsOnly s t) (j : Nat) : PortsOnly s (f t j) := by
  rcases per t j with same | ⟨x, eq⟩
  · rw [same]
    exact h
  · rw [eq, PortsOnly, h]
    rfl

theorem PerPort.portOf_ne {f : State → Nat → State} (per : PerPort f) (t : State) {j k : Nat} (other : k ≠ j) :
    portOf (f t j) k = portOf t k := by
  rcases per t j with same | ⟨x, eq⟩
  · rw [same]
  · rw [eq, portOf_setPort_ne _ _ other]

theorem PortsOnly.foldl {f : State → Nat → State} (per : PerPort f) (n : Nat) :
    PortsOnly s ((List.range n).foldl f s) :=
  List.foldlRecOn (motive := PortsOnly s) _ _ (.refl s) fun _ h j _ => h.step per j

theorem PerPort.foldl_above {f : State → Nat → State} (per : PerPort f) (s : State) {n k : Nat} (above : n ≤ k) :
    portOf ((List.range n).foldl f s) k = portOf s k := by
  induction n with
  | zero => rfl
  | succ n ih =>
    rw [List.range_succ, List.foldl_append, List.foldl_cons, List.foldl_nil, per.portOf_ne _ (by omega), ih (by omega)]

/-- Each port is left as its own step leaves it, which finds the port as it was at first. -/
theorem PerPort.foldl_port {f : State → Nat → State} (per : PerPort f) (s : State) {n k : Nat} (below : k < n) :
    ∃ t, PortsOnly s t ∧ portOf t k = portOf s k ∧ portOf ((List.range n).foldl f s) k = portOf (f t k) k := by
  induction n with
  | zero => omega
  | succ n ih =>
    rw [List.range_succ, List.foldl_append, List.foldl_cons, List.foldl_nil]
    rcases Nat.lt_succ_iff_lt_or_eq.mp below with less | rfl
    · obtain ⟨t, only, port, after⟩ := ih less
      exact ⟨t, only, port, (per.portOf_ne _ (by omega)).trans after⟩
    · exact ⟨_, .foldl per k, per.foldl_above s (Nat.le_refl k), rfl⟩

/-! ## Broadcast -/

theorem sendBroadcast_open {j : Nat} (enabled : portEnabled s j = true) (up : (portOf s j).up = true) (p : Nat) (a : Bytes) :
    ∃ i, sendBroadcast s p j a = queued s j i := by
  unfold sendBroadcast
  extract_lets pr v6 dst base li hdr mk off
  split
  · exact ⟨_, enqueue_open enabled up _⟩
  · exact ⟨_, enqueue_open enabled up _⟩
  · exact ⟨_, enqueue_open enabled up _⟩

/-- Whether the rule with control word `c` sends the broadcast of the profile `p` on a port. -/
def broadcastsOn (s : State) (p : Nat) (c : Word) (j : Nat) : Bool :=
  flag c (16 + j) && flag (ruleAddr s (j / 4) (fld c 3 7)).2 4 && flag (ruleAddr s (j / 4) (fld c 3 7)).2 (j % 4) &&
    slotOpen s j && !isTimeRx s j p

/-- The broadcast of one port. -/
def broadcastOn (p : Nat) (c : Word) (s : State) (j : Nat) : State :=
  if broadcastsOn s p c j then sendBroadcast s p j (ruleAddr s (j / 4) (fld c 3 7)).1 else s

theorem broadcastOn_of_true {p : Nat} {c : Word} {j : Nat} (h : broadcastsOn s p c j = true) :
    ∃ i, broadcastOn p c s j = queued s j i := by
  have slot : slotOpen s j = true := by
    simp only [broadcastsOn, Bool.and_eq_true] at h
    exact h.1.2
  obtain ⟨enabled, up⟩ := slotOpen_port slot
  rw [broadcastOn, if_pos h]
  exact sendBroadcast_open enabled up ..

theorem broadcastOn_perPort (p : Nat) (c : Word) : PerPort (broadcastOn p c) := by
  intro t j
  by_cases h : broadcastsOn t p c j = true
  · obtain ⟨i, eq⟩ := broadcastOn_of_true h
    exact .inr ⟨_, eq⟩
  · exact .inl (if_neg h)

theorem broadcastsOn_congr (only : PortsOnly s t) {j : Nat} (port : portOf t j = portOf s j) (p : Nat) (c : Word) :
    broadcastsOn t p c j = broadcastsOn s p c j := by
  have slot : slotOpen t j = slotOpen s j := by
    rw [slotOpen, port, only]
    rfl
  rw [broadcastsOn, slot, only]
  rfl

theorem execNtpBroadcastSlot_rule {p : Fin 64} {r : Nat} (bcast : (profOf s p).bcast = true)
    (valid : s.tb.timeValid = true)
    (rule : ((List.range 256).find? fun r => flag (rd s (ruleA r)) 0 && decide (fld (rd s (ruleA r)) 1 2 = 1) &&
      decide (fld (rd s (ruleA r)) 10 6 = p)) = some r) :
    execNtpBroadcastSlot p s = .next ((List.range 16).foldl (broadcastOn p (rd s (ruleA r))) s) := by
  refine congrArg Host.Outcome.next ?_
  rw [if_neg (by simp [bcast, valid])]
  dsimp only
  rw [rule]
  rfl

/-! ## Sync, Announce and grants -/

theorem sendSync_open {j : Nat} (enabled : portEnabled s j = true) (up : (portOf s j).up = true) (p stream : Nat)
    (d : PtpDst) (uni : Bool) : ∃ i, sendSync s j p stream d uni = queued (nextSeq s stream) j i := by
  have enabled : portEnabled (nextSeq s stream) j = true := enabled
  have up : (portOf (nextSeq s stream) j).up = true := up
  unfold sendSync
  extract_lets pr q s1 log mk zero10
  split
  · exact ⟨_, enqueue_open enabled up _⟩
  · split
    · exact ⟨_, enqueue_open enabled up _⟩
    · exact ⟨_, enqueue_open enabled up _⟩

theorem sendAnnounce_open {j : Nat} (enabled : portEnabled s j = true) (up : (portOf s j).up = true) (p stream : Nat)
    (d : PtpDst) (uni : Bool) : ∃ i, sendAnnounce s j p stream d uni = queued (nextSeq s stream) j i := by
  unfold sendAnnounce
  extract_lets pr a lf flags body msg
  exact ⟨_, enqueue_open (s := nextSeq s stream) enabled up _⟩

theorem seqOf_nextSeq (s : State) (k : Nat) : seqOf (nextSeq s k) k = (seqOf s k + 1) % 65536 := by
  rw [seqOf, nextSeq, tget_tset_same]

/-- A frame that takes the next number of its stream. -/
theorem queued_nextSeq (s : State) (j k : Nat) (i : TxItem) :
    seqOf (queued (nextSeq s k) j i) k = (seqOf s k + 1) % 65536 ∧
    (portOf (queued (nextSeq s k) j i) j).queue.length = (portOf s j).queue.length + 1 :=
  ⟨seqOf_nextSeq s k, queued_length ..⟩

theorem schedules_slotOpen {p j : Nat} (h : schedules s p j = true) : slotOpen s j = true := by
  simp only [schedules, Bool.and_eq_true] at h
  exact h.2

/-! ## Synchronization status messages -/

/-- The item of the synchronization status message of a port. -/
def esmcItem (s : State) (j : Nat) : TxItem :=
  { cls := 0, frame := esmcFrame s j, src := .device, launch := none, tol := 0, ins := .none, req := 0, stamp := 0 }

/-- One port's synchronization status message. -/
def esmcOn (s t : State) (j : Nat) : State :=
  if (portEnabled s j && (portOf s j).up) = true then enqueue t j (esmcItem t j) else t

theorem esmcOn_perPort (s : State) : PerPort (esmcOn s) := by
  intro t j
  unfold esmcOn
  split
  · unfold enqueue
    dsimp only
    split
    · exact .inr ⟨_, rfl⟩
    · exact .inl rfl
  · exact .inl rfl

theorem execEsmcPduSend_eq (s : State) : execEsmcPduSend s = .next ((List.range 16).foldl (esmcOn s) s) :=
  congrArg Host.Outcome.next List.foldl_filter

theorem esmcFrame_congr (only : PortsOnly s t) (j : Nat) : esmcFrame t j = esmcFrame s j := by
  rw [only]
  rfl

/-- Settles O24: each slot that is open queues the frame that it builds on its port. -/
theorem scheduledSlotsSendFrames : Obligations.ScheduledSlotsSendFrames := by
  unfold Obligations.ScheduledSlotsSendFrames
  refine ⟨fun s p r j bcast valid rule onPort enabled listed slot server => ?broadcast,
    fun s p j sched multi valid => ?sync, fun s p j sched multi tells => ?announce,
    fun s j p k q x sent group slot valid => ?followUp, fun s j f a b p sent enabled up => ?pdelay,
    fun s g live typ valid slot en proto server => ?grant, fun s g expired => ?expired,
    fun s receives enabled up => ?delayReq, fun s j enabled up => ?esmc⟩
  case broadcast =>
    refine ⟨_, execNtpBroadcastSlot_rule bcast valid rule, ?_⟩
    obtain ⟨t, only, port, after⟩ := (broadcastOn_perPort p (rd s (ruleA r))).foldl_port s j.isLt
    have sends : broadcastsOn t p (rd s (ruleA r)) j = true := by
      rw [broadcastsOn_congr only port]
      simp [broadcastsOn, onPort, enabled, listed, slot, server]
    obtain ⟨i, eq⟩ := broadcastOn_of_true sends
    rw [after, eq, queued_length, port]
  case sync =>
    refine ⟨_, rfl, ?_⟩
    rw [if_pos ⟨sched, multi, valid⟩]
    obtain ⟨enabled, up⟩ := slotOpen_port (schedules_slotOpen sched)
    obtain ⟨i, eq⟩ := sendSync_open enabled up p (syncStream p j) (ptpGroup s j p (profOf s p) false) false
    rw [eq]
    exact queued_nextSeq ..
  case announce =>
    refine ⟨_, rfl, ?_⟩
    rw [if_pos ⟨sched, multi, tells⟩]
    obtain ⟨enabled, up⟩ := slotOpen_port (schedules_slotOpen sched)
    obtain ⟨i, eq⟩ := sendAnnounce_open enabled up p (annStream p j) (ptpGroup s j p (profOf s p) false) false
    rw [eq]
    exact queued_nextSeq ..
  case followUp =>
    refine ⟨_, rfl, ?_⟩
    rw [sent]
    dsimp -zeta only
    extract_lets src s1 pr uni d msg
    have silent : ¬(slotOpen s1 j = false ∨ s1.tb.timeValid = false ∨ (uni = true ∧ (grantOf s1 k).live = false)) := by
      have opened : slotOpen s1 j = true := slot
      have ticks : s1.tb.timeValid = true := valid
      have multi : uni = false := decide_eq_false (Nat.not_lt.mpr group)
      simp [opened, ticks, multi]
    obtain ⟨enabled, up⟩ := slotOpen_port slot
    rw [if_neg silent, enqueue_open (s := s1) enabled up]
    exact ⟨rfl, queued_length s1 j _⟩
  case pdelay =>
    refine ⟨_, rfl, ?_⟩
    rw [sent]
    dsimp -zeta only
    extract_lets src s1 pr bytes d msg
    refine ⟨?_, enqueueFront_length (s := s1) enabled up _⟩
    exact congrArg Rsp.pdelaySent (((within_enqueueFront (ps := [.lp]) (by decide) ..).2 .refl) .rsp (by decide))
  case grant =>
    refine ⟨_, rfl, ?_⟩
    extract_lets x pr d
    have runs : ¬(x.live = false ∨ slotOpen s x.j = false ∨ pr.en = false ∨ pr.proto ≠ 2 ∨ isTimeRx s x.j x.prof = true) := by
      have live : x.live = true := live
      have slot : slotOpen s x.j = true := slot
      have en : pr.en = true := en
      have proto : pr.proto = 2 := proto
      have server : isTimeRx s x.j x.prof = false := server
      simp [live, slot, en, proto, server]
    obtain ⟨enabled, up⟩ := slotOpen_port slot
    obtain ⟨i, eq⟩ := sendSync_open enabled up x.prof g d true
    rw [if_neg runs, if_pos ⟨typ, valid⟩, eq]
    exact queued_nextSeq ..
  case expired =>
    refine congrArg Host.Outcome.next ?_
    rw [if_pos expired]
  case delayReq =>
    refine ⟨_, rfl, ?_⟩
    rw [if_neg (by simp [receives])]
    extract_lets j p pr seq d log msg old rx src
    have enabled : portEnabled { s with rsp := { src with rx := rx } } j = true := enabled
    rw [if_neg (by simp [j, up]), enqueue_open enabled up]
    exact ⟨rfl, rfl, queued_length ..⟩
  case esmc =>
    refine ⟨_, execEsmcPduSend_eq s, ?_⟩
    obtain ⟨t, only, port, after⟩ := (esmcOn_perPort s).foldl_port s j.isLt
    have sends : (portEnabled s j && (portOf s j).up) = true := by simp [enabled, up]
    have enabled' : portEnabled t j = true := by
      rw [only]
      exact enabled
    have step : esmcOn s t j = queued t j (esmcItem t j) := (if_pos sends).trans (enqueue_open enabled' (by rw [port, up]) _)
    rw [after, step, queued_queue, List.map_append, port]
    exact congrArg (fun f => _ ++ [f]) (esmcFrame_congr only j)

end Sys2Proof.Machine
end

section
/-! SUPPORT. O25 and O26: rotations of the NTS keys and the key commands (R264 to R275). The switch to the committed slots
and the failure of a commit each have their rule on the state of the key store; the rest of the device sees events. -/

namespace Sys2Proof.Machine

variable {s t u : State}

/-! ## Rules of the key store -/

theorem refreshServing_nts (s : State) : ∃ b, (refreshServing s).nts = { s.nts with serving := b } := by
  unfold refreshServing
  extract_lets a src s1 b
  have first : s1.nts = s.nts := by
    unfold s1
    split
    · rfl
    · rw [raiseN_nts]
  split
  · exact ⟨s.nts.serving, first⟩
  · rw [raiseN_nts]
    exact ⟨b, congrArg (fun n : Nts => { n with serving := b }) first⟩

theorem plainRegs_refreshServing (s : State) : plainRegs (refreshServing s) = plainRegs s := by
  unfold refreshServing
  extract_lets a src s1 b
  have first : plainRegs s1 = plainRegs s := by
    unfold s1
    split
    · rfl
    · exact plainRegs_raiseN ..
  split
  · exact first
  · exact (plainRegs_raiseN ..).trans first

/-- What the refresh of the serving state leaves alone: all but the responder and the NTS keys. -/
theorem refreshServing_within (s : State) : Within servingParts s (refreshServing s) :=
  (within_refreshServing fun _ h => h).2 .refl

theorem refreshServing_loam (s : State) : (refreshServing s).loam = s.loam := refreshServing_within s .loam (by decide)

theorem refreshServing_tb (s : State) : (refreshServing s).tb = s.tb := refreshServing_within s .tb (by decide)

theorem refreshServing_glb (s : State) : (refreshServing s).glb = s.glb := refreshServing_within s .glb (by decide)

theorem refreshServing_ent (s : State) : (refreshServing s).ent = s.ent := refreshServing_within s .ent (by decide)

theorem keyCmdDone_nts (s : State) (n : Nat) :
    (keyCmdDone s n).nts = { s.nts with result := n, busy := s.nts.held.any Option.isSome } := raiseN_nts ..

theorem plainRegs_keyCmdDone (s : State) (n : Nat) : plainRegs (keyCmdDone s n) = plainRegs s := plainRegs_raiseN ..

theorem loamAlarmEnd_quiet (s : State) : Quiet s (loamAlarmEnd s) := by
  unfold loamAlarmEnd
  split
  · exact (alarmClear_quiet s 328).trans (alarmClear_quiet _ 330)
  · exact .refl s

theorem plainRegs_loamAlarmEnd (s : State) : plainRegs (loamAlarmEnd s) = plainRegs s := by
  unfold loamAlarmEnd
  split
  · rw [plainRegs_alarmClear, plainRegs_alarmClear]
  · rfl

theorem resolveConflict_nts (s : State) : (resolveConflict s).nts = { s.nts with conflict := false } := by
  unfold resolveConflict
  split
  · rw [(loamAlarmEnd_quiet _).nts, alarmClear_nts]
  · next peace => rw [← Bool.eq_false_iff.mpr peace]

theorem plainRegs_resolveConflict (s : State) : plainRegs (resolveConflict s) = plainRegs s := by
  unfold resolveConflict
  split
  · rw [plainRegs_loamAlarmEnd, plainRegs_alarmClear]
    rfl
  · rfl

/-- The committed slots have become the running ones. -/
structure Switched (s t : State) : Prop where
  idle : t.nts.phase = .idle
  slots : t.nts.slots = s.nts.committed
  retry : t.nts.retry = false
  held : t.nts.held = s.nts.held
  stale : t.nts.stale = s.nts.stale

theorem Switched.of_nts {n : Nts} (h : Switched s t) (same : u.nts = n)
    (but : n = { t.nts with serving := n.serving, result := n.result, busy := n.busy }) : Switched s u := by
  subst same
  obtain ⟨idle, slots, retry, held, stale⟩ := h
  constructor <;> rw [but] <;> assumption

theorem takeCommitted_switched (s : State) : Switched s (takeCommitted s) := by
  unfold takeCommitted
  extract_lets base src s1 rotated s2 s3
  have first : Switched s s1 := by
    constructor <;> exact (congrArg _ (resolveConflict_nts _)).trans rfl
  have second : s2.nts = s1.nts := by
    unfold s2
    split
    · split
      · rw [raiseN_nts]
      · rfl
    · rfl
  have third : Switched s s3 := by
    have start := first.of_nts second rfl
    unfold s3
    split
    · exact start.of_nts (keyCmdDone_nts ..) rfl
    · exact start
  obtain ⟨b, eq⟩ := refreshServing_nts s3
  exact third.of_nts eq rfl

theorem plainRegs_takeCommitted (s : State) : plainRegs (takeCommitted s) = plainRegs s := by
  unfold takeCommitted
  extract_lets base src s1 rotated s2 s3
  have first : plainRegs s1 = plainRegs s := plainRegs_resolveConflict _
  have second : plainRegs s2 = plainRegs s1 := by
    unfold s2
    split
    · split
      · exact plainRegs_raiseN ..
      · rfl
    · rfl
  have third : plainRegs s3 = plainRegs s2 := by
    unfold s3
    split
    · exact plainRegs_keyCmdDone ..
    · rfl
  rw [plainRegs_refreshServing, third, second, first]

/-- Nothing is held: what has ended ends alone. -/
theorem ended_of_none_held (none : s.nts.held = []) : ended s = s := by
  rw [ended, none]
  rfl

/-- While something runs, what is held waits. -/
theorem runHeld_of_running (running : s.nts.phase ≠ .idle) (n : Nat) : runHeld n s = s := by
  cases n with
  | zero => rfl
  | succ n => exact if_pos running

theorem ended_of_running (running : s.nts.phase ≠ .idle) : ended s = s := runHeld_of_running running _

theorem commitFailed_rotation (noCmd : s.nts.cmd = none) : (commitFailed s).nts =
    { s.nts with phase := .idle, slots := s.nts.slots.filter fun e => decide (e.2.st ≠ .pending), retry := true } := by
  unfold commitFailed
  extract_lets src s1
  rw [noCmd]
  dsimp -zeta only
  refine (raiseN_nts ..).trans ?_
  rw [← noCmd]
  rfl

/-! ## Commits of keys -/

theorem requestKeys_fits {slots : Tab KeySlot} (fits : CommitFits s clsKeys) :
    ∃ t, requestKeys s slots = (t, none) ∧ t.nts = { s.nts with phase := .commit, committed := slots } ∧
      t.loam.queue.length = s.loam.queue.length + 1 ∧ t.ent = s.ent := by
  have fits : CommitFits { s with nts := { s.nts with phase := .commit, committed := slots } } clsKeys :=
    fits.congr rfl rfl rfl
  obtain ⟨tokens, queued⟩ := requestCommit_fits
    (c := { by_ := .keyRotation, cls := clsKeys, segs := [0], payload := some (.keys slots s.loam.csig) }) fits
  exact ⟨_, queued, rfl, List.length_append, rfl⟩

/-! ## The end of a mirror wait -/

theorem mirrorLate_nts (s : State) (e : MirrorOut) :
    (mirrorLate s e).nts = if e.cls = clsKeys then { s.nts with stale := true } else s.nts := by
  unfold mirrorLate
  extract_lets src s1
  rw [raiseN_nts, bump_nts]
  split
  · exact raiseN_nts ..
  · rfl

theorem mirrorLate_counted (s : State) (e : MirrorOut) : Counted s (mirrorLate s e) 0x130004C 1 := by
  unfold mirrorLate
  extract_lets src s1
  have plain : eventReg 0x130004C = false := by decide
  refine (bump_counted _ 1 (by decide)).raiseN _ _ _ plain |>.of_rd ?_
  split
  · exact rd_raiseN _ _ _ _ plain
  · rfl

theorem keysStale_nts (s : State) : (keysStale s).nts = { s.nts with stale := true } := raiseN_nts ..

/-- Settles O25: the rules of the switch, of a failed commit and of a late mirror record, each on the key store. -/
theorem ntsRotationsRunTheirSteps : Obligations.NtsRotationsRunTheirSteps := by
  unfold Obligations.NtsRotationsRunTheirSteps
  refine ⟨fun s k cur peace due valid idle active => ?due, fun s draw delivering fits => ?drawn,
    fun s commit gone alone none => ?switched, fun s commit gone pair own => ?mirrored,
    fun s commit gone none cmd => ?failed, fun s e mirror none late serial keys => ?expired,
    fun s mirror none late => ?noneLate, fun s e late other => ?otherLate, fun s retry idle active => ?retried⟩
  case due =>
    refine ⟨_, rfl, ?_⟩
    rw [if_neg (by simp [active]), cur]
    dsimp only
    rw [if_neg (by simp [peace]; omega), if_neg (by simp [valid]), beginRotation, if_pos idle]
    exact ⟨rfl, rfl, rfl, rfl⟩
  case drawn =>
    refine ⟨_, rfl, ?_⟩
    rw [if_neg (by simp [draw, delivering])]
    extract_lets n first key s1 id s2 x after s3
    have drawn2 : s2.loam = s.loam ∧ s2.tb = s.tb ∧ s2.glb = s.glb ∧ s.ent.drawn + 64 ≤ s2.ent.drawn := by
      unfold s2
      split
      · exact ⟨rfl, rfl, rfl, Nat.le_add_right _ 4⟩
      · exact ⟨rfl, rfl, rfl, Nat.le_refl _⟩
    obtain ⟨loam, tb, glb, drawn⟩ := drawn2
    have loam' : (refreshServing s3).loam = s.loam := (refreshServing_loam s3).trans loam
    obtain ⟨t, requested, nts, queue, ent⟩ := requestKeys_fits (slots := after) (fits.congr loam'
      (congrArg Tb.ticks ((refreshServing_tb s3).trans tb))
      (congrArg Glb.deferred ((refreshServing_glb s3).trans glb)))
    rw [requested]
    refine ⟨by rw [nts], by rw [queue, loam'], ?_⟩
    rw [ent, refreshServing_ent]
    exact drawn
  case switched =>
    refine ⟨_, rfl, ?_⟩
    have switch := takeCommitted_switched s
    have alone : (inPair s && !fromPeer s) = false := by
      rcases alone with h | h <;> simp [h]
    rw [if_neg (by simp [commit, gone]), if_neg (by decide), if_neg (by simp [alone]),
      ended_of_none_held (switch.held.trans none)]
    exact ⟨switch.idle, switch.slots, switch.retry⟩
  case mirrored =>
    refine ⟨_, rfl, ?_⟩
    have mirrors : (inPair s && !fromPeer s) = true := by simp [pair, own]
    rw [if_neg (by simp [commit, gone]), if_neg (by decide), if_pos mirrors]
    unfold sendMirror
    dsimp only
    split
    · next k up key =>
      refine ⟨rfl, rfl, rfl, rfl, fun k' _ key' => ?_, fun down => ?_⟩
      · rw [key, Option.some.injEq] at key'
        rw [key']
        rfl
      · simp [up, key] at down
    · next without =>
      exact ⟨rfl, rfl, rfl, rfl, fun k up key => absurd key (without k up), fun _ => rfl⟩
  case failed =>
    refine ⟨_, rfl, ?_⟩
    have nts := commitFailed_rotation cmd
    rw [if_neg (by simp [commit, gone]), if_pos rfl, ended_of_none_held (by rw [nts, none])]
    beta_reduce
    rw [nts]
    exact ⟨rfl, rfl⟩
  case expired =>
    refine ⟨_, rfl, ?_⟩
    have nts := mirrorLate_nts s e
    rw [if_pos keys] at nts
    have switch := takeCommitted_switched (mirrorLate s e)
    rw [late]
    dsimp only
    rw [if_pos ⟨mirror, serial⟩, ended_of_none_held (by rw [switch.held, nts, none])]
    refine ⟨switch.idle, by rw [switch.stale, nts], by rw [switch.slots, nts], ?_⟩
    have kept := rd_of_plainRegs (plainRegs_takeCommitted (mirrorLate s e)) (a := 0x130004C) (by decide)
    exact kept.trans (mirrorLate_counted s e)
  case noneLate =>
    refine ⟨_, rfl, ?_⟩
    have nts := keysStale_nts s
    have switch := takeCommitted_switched (keysStale s)
    rw [late]
    dsimp only
    rw [if_pos mirror, ended_of_none_held (by rw [switch.held, nts, none])]
    exact ⟨switch.idle, by rw [switch.stale, nts], by rw [switch.slots, nts]⟩
  case otherLate =>
    refine ⟨_, rfl, ?_⟩
    rw [late]
    dsimp only
    rw [if_neg fun both => other.elim (· both.1) (· both.2)]
    refine ⟨mirrorLate_counted s e, ?_⟩
    rw [mirrorLate_nts]
    split <;> rfl
  case retried =>
    refine ⟨_, rfl, ?_⟩
    rw [if_pos ⟨retry, active⟩, beginRotation, if_pos idle]
    exact ⟨rfl, rfl, rfl⟩

theorem keyCmd_of_idle (idle : s.nts.phase = .idle) (c : KeyCmd) : keyCmd s c = ended (runKeyCmd s c) := if_pos idle

theorem keyCmd_of_running (running : s.nts.phase ≠ .idle) (c : KeyCmd) :
    (keyCmd s c).nts.held = s.nts.held ++ [some c] := by
  rw [keyCmd, if_neg running]

/-- Settles O26: a command runs where nothing does, and is held where something does. -/
theorem ntsKeyCommandsTakeEffect : Obligations.NtsKeyCommandsTakeEffect := by
  unfold Obligations.NtsKeyCommandsTakeEffect
  refine ⟨fun s idle cur peace => ?rotate, fun s idle => ?auth, fun s sl c idle conflict prev fits => ?accept,
    fun s rec idle pair fits => ?restore, fun s rec running => ?held, fun s k idle none => ?invalid⟩
  case rotate =>
    have run : runKeyCmd s .rotateNow = { s with nts := { s.nts with
        cmd := some .rotateNow, busy := true, phase := .draw, first := false } } := by
      unfold runKeyCmd
      dsimp only
      rw [if_pos (by simp [cur, peace])]
      exact if_pos idle
    refine ⟨_, rfl, ?_⟩
    rw [keyCmd_of_idle idle, run, ended_of_running (by simp)]
    exact ⟨rfl, rfl, rfl, rfl⟩
  case auth =>
    have run : runKeyCmd s .authNew = { s with nts := { s.nts with
        cmd := some .authNew, busy := true, phase := .draw, first := true } } := by
      unfold runKeyCmd
      dsimp only
      exact if_pos idle
    refine ⟨_, rfl, ?_⟩
    rw [keyCmd_of_idle idle, run, ended_of_running (by simp)]
    exact ⟨rfl, rfl, rfl⟩
  case accept =>
    refine ⟨_, rfl, ?_⟩
    rw [keyCmd_of_idle idle]
    unfold runKeyCmd
    extract_lets src s0
    dsimp -zeta only
    rw [conflict, prev]
    dsimp -zeta only
    extract_lets kept
    obtain ⟨t, requested, nts, queue, -⟩ := requestKeys_fits (s := s0) (slots := kept) (fits.congr rfl rfl rfl)
    rw [requested]
    dsimp only
    have commit : t.nts.phase = .commit := by rw [nts]
    rw [ended_of_running (by rw [commit]; decide)]
    exact ⟨commit, queue⟩
  case restore =>
    refine ⟨_, rfl, ?_⟩
    rw [keyCmd_of_idle idle]
    unfold runKeyCmd
    extract_lets src s0
    dsimp -zeta only
    rw [if_pos pair]
    extract_lets slots
    obtain ⟨t, requested, nts, queue, -⟩ := requestKeys_fits (s := s0) (slots := slots) (fits.congr rfl rfl rfl)
    rw [requested]
    dsimp only
    obtain ⟨b, refreshed⟩ := refreshServing_nts (keepListed t slots)
    have commit : (refreshServing (keepListed t slots)).nts.phase = .commit := by
      rw [refreshed]
      exact congrArg Nts.phase nts
    rw [ended_of_running (by rw [commit]; decide)]
    refine ⟨commit, ?_⟩
    rw [refreshServing_loam]
    exact queue
  case held =>
    exact ⟨⟨_, rfl, keyCmd_of_running running _⟩, ⟨_, rfl, keyCmd_of_running running _⟩,
      ⟨_, rfl, keyCmd_of_running running _⟩, ⟨_, rfl, keyCmd_of_running running _⟩,
      fun k => ⟨_, rfl, keyCmd_of_running running _⟩⟩
  case invalid =>
    have nts : (runKeyCmd s .invalid).nts =
        { s.nts with cmd := some .invalid, result := 1, busy := s.nts.held.any Option.isSome } := keyCmdDone_nts ..
    refine ⟨_, rfl, ?_⟩
    rw [keyCmd_of_idle idle, ended_of_none_held (by rw [nts, none])]
    beta_reduce
    rw [nts]
    exact ⟨rfl, by rw [none]; rfl, idle⟩

end Sys2Proof.Machine
end

section
/-! SUPPORT. O27: completions of fetched descriptors (R308) and the mint (R276 to R278). -/

namespace Sys2Proof.Machine

variable {s t u : State}

/-! ## Completions -/

theorem writeCompl_fetched {r : Nat} (beside : ¬EventRing r) (idx status : Nat) (body : Bytes) :
    (ringOf (writeCompl s r idx status body) r).fetched = (ringOf s r).fetched := by
  obtain ⟨armed, eq⟩ := ringOf_writeCompl (s := s) beside idx status body
  rw [eq]
  rfl

theorem flushCompl_fetched {r : Nat} (beside : ¬EventRing r) (n : Nat) (s : State) :
    (ringOf (flushCompl n s r) r).fetched = (ringOf s r).fetched := by
  induction n generalizing s with
  | zero => rfl
  | succ n ih =>
    unfold flushCompl
    dsimp only
    split
    · split
      · rfl
      · rw [ih, writeCompl_fetched beside, ringOf_setRing]
    · rfl

/-- A completion on a running ring takes the descriptor that it answers off those fetched. -/
theorem complete_completed {r : Nat} (beside : ¬EventRing r) (running : (ringOf s r).st = .running) (idx st : Nat)
    (body : Bytes) : Completed s (complete s r idx st body) r idx := by
  unfold Completed complete
  dsimp only
  rw [if_pos (.inl running), flushCompl_fetched beside, ringOf_setRing]

theorem Completed.of_rings {r idx : Nat} (beside : ¬EventRing r) (same : rings u = rings s) (h : Completed u t r idx) :
    Completed s t r idx := by
  unfold Completed at *
  rw [h, ring_fetched_of_rings same beside]

/-! ## Nonces and host accesses -/

theorem takeNonces_within (s : State) (n : Nat) : Within [.nts, .ent] s (takeNonces s n) :=
  (within_takeNonces (by decide) n).2 .refl

theorem notePool_ent (s : State) : (notePool s).ent = s.ent := by
  unfold notePool
  extract_lets e src s1
  split
  · rfl
  · split
    · rw [raiseN_ent]
    · rfl

theorem takeNonces_drawn (s : State) (n : Nat) : (takeNonces s n).ent.drawn = s.ent.drawn + 16 * n :=
  congrArg Ent.drawn (notePool_ent _)

theorem takeNonces_stat (s : State) (n : Nat) : (takeNonces s n).stat = s.stat :=
  takeNonces_within s n .stat (by decide)

theorem rings_notePool (s : State) : rings (notePool s) = rings s := by
  unfold notePool
  extract_lets e src s1
  split
  · rfl
  · split
    · exact rings_raiseN ..
    · rfl

theorem rings_takeNonces (s : State) (n : Nat) : rings (takeNonces s n) = rings s := rings_notePool _

theorem hostWrite_stat (s : State) (r idx addr : Nat) (b : Bytes) : (hostWrite s r idx addr b).stat = s.stat :=
  pmcSignal_stat ..

theorem hostRead_stat (s : State) (r idx addr n : Nat) : (hostRead s r idx addr n).stat = s.stat := pmcSignal_stat ..

theorem hostWrite_ent (s : State) (r idx addr : Nat) (b : Bytes) : (hostWrite s r idx addr b).ent = s.ent :=
  pmcSignal_ent ..

theorem hostRead_ent (s : State) (r idx addr n : Nat) : (hostRead s r idx addr n).ent = s.ent := pmcSignal_ent ..

theorem rings_statInc (s : State) (a n : Nat) : rings (statInc s a n) = rings s := rfl

/-! ## The mint -/

/-- The cookies of a mint descriptor, written behind the keys that the host's buffer holds (R277). -/
def minted (s : State) (r idx addr count : Nat) (cookies : Bytes) : State :=
  hostWrite (hostWrite (statInc (takeNonces (hostRead s r idx addr 64) count) 0xC00118 count) r idx (addr + 64) cookies)
    r idx addr (List.replicate 64 0)

theorem minted_statGet (s : State) (r idx addr count : Nat) (cookies : Bytes) :
    statGet (minted s r idx addr count cookies) 0xC00118 = statGet s 0xC00118 + BitVec.ofNat 64 count := by
  unfold minted
  rw [statGet, hostWrite_stat, hostWrite_stat, ← statGet, statGet_statInc, statGet, takeNonces_stat, hostRead_stat,
    ← statGet]

theorem minted_drawn (s : State) (r idx addr count : Nat) (cookies : Bytes) :
    (minted s r idx addr count cookies).ent.drawn = s.ent.drawn + 16 * count := by
  unfold minted
  rw [hostWrite_ent, hostWrite_ent]
  show (takeNonces (hostRead s r idx addr 64) count).ent.drawn = _
  rw [takeNonces_drawn, hostRead_ent]

theorem rings_minted (s : State) (r idx addr count : Nat) (cookies : Bytes) :
    rings (minted s r idx addr count cookies) = rings s := by
  unfold minted
  rw [rings_hostWrite, rings_hostWrite, rings_statInc, rings_takeNonces, rings_hostRead]

/-- What a mint descriptor fulfils to be minted (R277). -/
structure Mintable (s : State) (d : Bytes) : Prop where
  reserved : le16 d 14 = 0
  high : leNat (sub d 20 12) = 0
  version : byteAt d 10 = 1
  least : 1 ≤ byteAt d 11
  most : byteAt d 11 ≤ 8
  aead : le16 d 12 = 15
  room : 64 + 104 * byteAt d 11 ≤ le16 d 8
  ready : s.ent.ready = true
  pool : byteAt d 11 ≤ poolLevel s
  current : (curSlot? s).isSome = true
  peace : s.nts.conflict = false

theorem execMint_mintable {r : Fin 256} {x : Fetched} {rest : List Fetched} (low : 144 ≤ r.val) (high : r.val ≤ 151)
    (fetched : (ringOf s r).fetched = x :: rest) (h : Mintable s x.desc) (b : Bytes) :
    ∃ cookies body, execMint r (some b) true s =
      .next (complete (minted s r x.idx (descAddr x.desc 0) (byteAt x.desc 11) cookies) r x.idx stOk body) := by
  obtain ⟨reserved, upper, version, least, most, aead, room, ready, pool, current, peace⟩ := h
  obtain ⟨k, cur⟩ := Option.isSome_iff_exists.mp current
  unfold execMint
  rw [fetched]
  dsimp only
  rw [if_neg (by omega : ¬(r.val < 144 ∨ 151 < r.val)), if_neg (by simp [reserved, upper]), if_neg (by omega),
    if_neg (not_not.mpr aead), if_neg (Nat.not_lt.mpr room), if_neg (by simp [ready]; exact pool), cur, peace]
  exact ⟨_, _, rfl⟩

/-- Settles O27: a descriptor that fulfils every check is minted, and its completion keeps what the mint has counted. -/
theorem mintDeliversCookies : Obligations.MintDeliversCookies := by
  intro s r x rest b k low high fetched reserved upper version least most aead room ready pool cur peace
  have current : (curSlot? s).isSome = true := Option.isSome_iff_exists.mpr ⟨k, cur⟩
  obtain ⟨cookies, body, minting⟩ := execMint_mintable low high fetched
    ⟨reserved, upper, version, least, most, aead, room, ready, pool, current, peace⟩ b
  have beside : ¬EventRing r.val := by omega
  have same := rings_minted s r x.idx (descAddr x.desc 0) (byteAt x.desc 11) cookies
  refine ⟨_, minting, ?_, ?_, fun running => ?_⟩
  · rw [statGet, complete_stat, ← statGet, minted_statGet]
  · rw [complete_ent, minted_drawn]
  · exact .of_rings beside same (complete_completed beside ((ring_st_of_rings same beside).trans running) ..)

end Sys2Proof.Machine
end

section
/-! SUPPORT. O28: the Gauntlet's buckets, policies and budgets (R284 to R297). A region's sweep or fill is settled per
bucket index: by whether the region holds the index. -/

namespace Sys2Proof.Machine

variable {s t u : State}

/-! ## Segments of the fill -/

/-- A run of bucket indices with the tokens and the stamp of each. -/
abbrev Seg := Nat × Nat × Nat × Nat

/-- What the first segment that holds an index gives its bucket. -/
def fillAt (segs : List Seg) (idx : Nat) : Option (Nat × Nat) :=
  (segs.find? fun e => decide (e.1 ≤ idx ∧ idx < e.2.1)).map fun e => e.2.2

theorem fillAt_cons_of_mem {e : Seg} {idx : Nat} (holds : e.1 ≤ idx ∧ idx < e.2.1) (segs : List Seg) :
    fillAt (e :: segs) idx = some e.2.2 := by simp [fillAt, holds]

theorem fillAt_cons_of_not_mem {e : Seg} {idx : Nat} (apart : ¬(e.1 ≤ idx ∧ idx < e.2.1)) (segs : List Seg) :
    fillAt (e :: segs) idx = fillAt segs idx := by
  rw [fillAt, List.find?_cons_of_neg (by simpa using apart), ← fillAt]

theorem fillAt_append (a b : List Seg) (idx : Nat) : fillAt (a ++ b) idx = (fillAt a idx).or (fillAt b idx) := by
  rw [fillAt, List.find?_append, Option.map_or, ← fillAt, ← fillAt]

/-- A list whose segments all lie apart from an index gives it nothing. -/
theorem fillAt_eq_none {segs : List Seg} {idx : Nat} (apart : ∀ e ∈ segs, ¬(e.1 ≤ idx ∧ idx < e.2.1)) :
    fillAt segs idx = none := by
  rw [fillAt, List.find?_eq_none.mpr fun e mem => by simpa using apart e mem]
  rfl

section
variable {lo hi idx : Nat}

theorem fillAt_segsIn (low : lo ≤ idx) (high : idx < hi) (f : Nat × Nat → Nat × Nat) (segs : List Seg) :
    fillAt ((segsIn lo hi segs).map fun e => (e.1, e.2.1, f e.2.2)) idx = (fillAt segs idx).map f := by
  induction segs with
  | nil => rfl
  | cons e segs ih =>
    by_cases holds : e.1 ≤ idx ∧ idx < e.2.1
    · have kept : segsIn lo hi (e :: segs) = (max e.1 lo, min e.2.1 hi, e.2.2) :: segsIn lo hi segs :=
        List.filter_cons_of_pos (by simp; omega)
      rw [kept, List.map_cons, fillAt_cons_of_mem (by simp; omega), fillAt_cons_of_mem holds]
      rfl
    · rw [fillAt_cons_of_not_mem holds, ← ih, segsIn, List.map_cons, List.filter_cons]
      split
      · rw [List.map_cons, fillAt_cons_of_not_mem (by simp; omega)]
        rfl
      · rfl

theorem fillAt_segsIn_apart (apart : idx < lo ∨ hi ≤ idx) (f : Nat × Nat → Nat × Nat) (segs : List Seg) :
    fillAt ((segsIn lo hi segs).map fun e => (e.1, e.2.1, f e.2.2)) idx = none := by
  refine fillAt_eq_none fun e mem => ?_
  obtain ⟨x, inside, rfl⟩ := List.mem_map.mp mem
  obtain ⟨y, -, rfl⟩ := List.mem_map.mp (List.mem_of_mem_filter inside)
  simp
  omega

theorem fillAt_segsOut (apart : idx < lo ∨ hi ≤ idx) (segs : List Seg) :
    fillAt (segsOut lo hi segs) idx = fillAt segs idx := by
  induction segs with
  | nil => rfl
  | cons e segs ih =>
    rw [segsOut, List.flatMap_cons, fillAt_append, ← segsOut, ih]
    by_cases holds : e.1 ≤ idx ∧ idx < e.2.1
    · rw [fillAt_cons_of_mem holds]
      rcases Nat.lt_or_ge idx lo with below | above
      · rw [List.filter_cons_of_pos (by simp; omega), fillAt_cons_of_mem (by simp; omega)]
        rfl
      · rw [List.filter_cons]
        split
        · rw [fillAt_cons_of_not_mem (by simp; omega), List.filter_cons_of_pos (by simp; omega),
            fillAt_cons_of_mem (by simp; omega)]
          rfl
        · rw [List.filter_cons_of_pos (by simp; omega), fillAt_cons_of_mem (by simp; omega)]
          rfl
    · rw [fillAt_cons_of_not_mem holds, fillAt_eq_none, Option.none_or]
      intro x mem
      have mem := List.mem_of_mem_filter mem
      simp only [List.mem_cons, List.not_mem_nil, or_false] at mem
      rcases mem with rfl | rfl <;> simp <;> omega

end

/-! ## Buckets -/

theorem bucketOf_eq (s : State) (idx : Nat) :
    bucketOf s idx = (s.gnt.buckets.lookup idx).getD ((fillAt s.gnt.fill idx).getD (8192, 0)) := rfl

theorem lookup_map_if (c : Nat → Prop) [DecidablePred c] (f : Nat × Nat → Nat × Nat) (l : Tab (Nat × Nat)) (idx : Nat) :
    (l.map fun e => if c e.1 then (e.1, f e.2) else e).lookup idx
      = (l.lookup idx).map fun b => if c idx then f b else b := by
  induction l with
  | nil => rfl
  | cons e l ih =>
    obtain ⟨a, b⟩ := e
    by_cases here : idx = a
    · subst here
      by_cases holds : c idx <;> simp [holds]
    · have there : (idx == a) = false := by simpa using here
      by_cases holds : c a <;> simp [List.lookup_cons, there, holds, ih]

/-- Only the Gauntlet differs. -/
def GauntletOnly (s t : State) : Prop := t = { s with gnt := t.gnt }

theorem GauntletOnly.trans (h : GauntletOnly s t) (k : GauntletOnly t u) : GauntletOnly s u := by
  rw [GauntletOnly, k, h]

theorem sweepRegion_only (n k : Nat) (s : State) : GauntletOnly s (sweepRegion n s k) := rfl

theorem fillRegion_only (s : State) (k : Nat) : GauntletOnly s (fillRegion s k) := rfl

/-- The policy `k` does not name the bucket. -/
def Apart (s : State) (k idx : Nat) : Prop := idx < polBase s k ∨ polBase s k + 2 ^ polSize s k ≤ idx

theorem Apart.of_only {k idx : Nat} (h : Apart s k idx) (only : GauntletOnly s t) : Apart t k idx := by
  rw [only]
  exact h

/-- A region's sweep leaves a bucket beside it, and what would fill it. -/
theorem sweepRegion_apart {k idx : Nat} (h : Apart s k idx) (n : Nat) :
    bucketOf (sweepRegion n s k) idx = bucketOf s idx ∧
    fillAt (sweepRegion n s k).gnt.fill idx = fillAt s.gnt.fill idx := by
  have filled : fillAt (sweepRegion n s k).gnt.fill idx = fillAt s.gnt.fill idx := by
    show fillAt (List.map _ _ ++ _) idx = _
    rw [fillAt_append, fillAt_segsIn_apart h, fillAt_segsOut h, Option.none_or]
  refine ⟨?_, filled⟩
  have outside : ¬(polBase s k ≤ idx ∧ idx < polBase s k + 2 ^ polSize s k) := by
    unfold Apart at h
    omega
  rw [bucketOf_eq, bucketOf_eq, filled]
  show (List.lookup idx (List.map _ _)).getD _ = _
  rw [lookup_map_if (fun i => polBase s k ≤ i ∧ i < polBase s k + 2 ^ polSize s k)]
  simp [outside]

/-- A region's sweep refills a bucket in it. -/
theorem sweepRegion_inside {k idx : Nat} (low : polBase s k ≤ idx) (high : idx < polBase s k + 2 ^ polSize s k)
    (listed : (fillAt s.gnt.fill idx).isSome = true) (n : Nat) :
    bucketOf (sweepRegion n s k) idx = refill s k n (bucketOf s idx) := by
  obtain ⟨b, fill⟩ := Option.isSome_iff_exists.mp listed
  have filled : fillAt (sweepRegion n s k).gnt.fill idx = some (refill s k n b) := by
    show fillAt (List.map _ _ ++ _) idx = _
    rw [fillAt_append, fillAt_segsIn low high, fill]
    rfl
  rw [bucketOf_eq, bucketOf_eq, filled, fill]
  show (List.lookup idx (List.map _ _)).getD _ = _
  rw [lookup_map_if (fun i => polBase s k ≤ i ∧ i < polBase s k + 2 ^ polSize s k)]
  cases s.gnt.buckets.lookup idx <;> simp [low, high]

/-- The sweep of policies that do not name a bucket. -/
theorem sweeps_apart (n idx : Nat) (ks : List Nat) (s : State) (h : ∀ k ∈ ks, Apart s k idx) :
    GauntletOnly s (ks.foldl (sweepRegion n) s) ∧
    bucketOf (ks.foldl (sweepRegion n) s) idx = bucketOf s idx ∧
    fillAt (ks.foldl (sweepRegion n) s).gnt.fill idx = fillAt s.gnt.fill idx := by
  induction ks generalizing s with
  | nil => exact ⟨rfl, rfl, rfl⟩
  | cons k ks ih =>
    obtain ⟨bucket, fill⟩ := sweepRegion_apart (h k List.mem_cons_self) n
    obtain ⟨only, buckets, fills⟩ := ih (sweepRegion n s k) fun q mem =>
      (h q (List.mem_cons_of_mem _ mem)).of_only (sweepRegion_only n k s)
    exact ⟨(sweepRegion_only n k s).trans only, buckets.trans bucket, fills.trans fill⟩

/-- The bucket that one policy of a sweep names is refilled once. -/
theorem sweeps_inside {n k idx : Nat} {a b : List Nat} (before : ∀ q ∈ a, Apart s q idx) (after : ∀ q ∈ b, Apart s q idx)
    (low : polBase s k ≤ idx) (high : idx < polBase s k + 2 ^ polSize s k)
    (listed : (fillAt s.gnt.fill idx).isSome = true) :
    bucketOf ((a ++ k :: b).foldl (sweepRegion n) s) idx = refill s k n (bucketOf s idx) := by
  rw [List.foldl_append, List.foldl_cons]
  obtain ⟨only, bucket, fill⟩ := sweeps_apart n idx a s before
  generalize a.foldl (sweepRegion n) s = m at only bucket fill
  have only' : GauntletOnly s (sweepRegion n m k) := only.trans (sweepRegion_only n k m)
  rw [(sweeps_apart n idx b _ fun q mem => (after q mem).of_only only').2.1, sweepRegion_inside _ _ (by rw [fill, listed]),
    bucket]
  all_goals rw [only]
  · rfl
  · exact low
  · exact high

theorem bucketOf_fillRegion {k idx : Nat} (low : polBase s k ≤ idx) (high : idx < polBase s k + 2 ^ polSize s k) :
    bucketOf (fillRegion s k) idx = (polBurst s k * 1024, stampUnit (nowT16 s)) := by
  have filled : fillAt (fillRegion s k).gnt.fill idx = some (polBurst s k * 1024, stampUnit (nowT16 s)) :=
    fillAt_cons_of_mem ⟨low, high⟩ _
  have gone : (fillRegion s k).gnt.buckets.lookup idx = none := by
    refine List.lookup_eq_none_iff.mpr fun e mem => ?_
    have beside := of_decide_eq_true (List.mem_filter.mp mem).2
    simp
    omega
  rw [bucketOf_eq, filled, gone]
  rfl

/-- The draw of a key keeps what was drawn while it fills the regions. -/
theorem fillAll_kept (s : State) :
    (fillAll s).gnt.drbgKey = s.gnt.drbgKey ∧ (fillAll s).gnt.rekey = s.gnt.rekey ∧ (fillAll s).ent = s.ent := by
  have fold (ks : List Nat) (t : State) : (ks.foldl fillRegion t).gnt.drbgKey = t.gnt.drbgKey ∧
      (ks.foldl fillRegion t).gnt.rekey = t.gnt.rekey ∧ (ks.foldl fillRegion t).ent = t.ent := by
    induction ks generalizing t with
    | nil => exact ⟨rfl, rfl, rfl⟩
    | cons k ks ih => exact ih (fillRegion t k)
  obtain ⟨key, rekey, ent⟩ := fold ((List.range 64).filter fun k => !polEn s k) s
  obtain ⟨key', rekey', ent'⟩ :=
    fold ((List.range 64).filter (polEn s)) (((List.range 64).filter fun k => !polEn s k).foldl fillRegion s)
  exact ⟨key'.trans key, rekey'.trans rekey, ent'.trans ent⟩

/-! ## Policies -/

theorem polA_asWritten : ∀ k : Fin 64, storesAsWritten (polA k) = true := by decide +kernel

theorem polA_plain (k : Fin 64) : eventReg (polA k) = false := by
  unfold eventReg polA
  simp only [Bool.or_eq_false_iff, decide_eq_false_iff_not]
  omega

/-- The state behind the store of a policy's word. -/
def policyStored (s : State) (k : Nat) (v : Word) : State := storeMask s (polA k) 0xFFFFFCFF v

theorem rd_policyStored (s : State) (k : Fin 64) (v : Word) :
    rd (policyStored s k v) (polA k) = (rd s (polA k) &&& ~~~(0xFFFFFCFF : Word)) ||| (v &&& 0xFFFFFCFF) :=
  rd_storeMask_asWritten s (polA_asWritten k) _ v

theorem polEn_policyStored (s : State) (k : Fin 64) (v : Word) : polEn (policyStored s k v) k = flag v 0 := by
  rw [polEn, rb, rd_policyStored]
  simp [flag]

theorem polBurst_policyStored (s : State) (k : Nat) (v : Word) : polBurst (policyStored s k v) k = polBurst s k := by
  rw [polBurst, rf, policyStored, rd_storeMask_ne _ _ _ (by omega)]
  rfl

theorem nowT16_policyStored (s : State) (k : Nat) (v : Word) : nowT16 (policyStored s k v) = nowT16 s := by
  rw [nowT16, policyStored, storeMask_tb]
  rfl

/-- A policy's write, where its ACTION is one of the three (R291, R297). -/
theorem execGntPolicyWrite_action {v : Word} (action : fld v 1 2 ≠ 3) (s : State) (k : Fin 64) :
    execGntPolicyWrite k v s = .next (
      if polEn (policyStored s k v) k = true ∧ regionBad (policyStored s k v) k = true then raiseN s 259 k [k]
      else if polSize (policyStored s k v) k = polSize s k ∧ polBase (policyStored s k v) k = polBase s k then
        policyStored s k v
      else fillRegion (policyStored s k v) k) := by
  unfold execGntPolicyWrite
  dsimp only
  rw [if_neg action]
  rfl

/-- Settles O28: per bucket, what a sweep and a fill leave; per policy, what its write stores. -/
theorem gauntletTakesEffect : Obligations.GauntletTakesEffect := by
  unfold Obligations.GauntletTakesEffect
  refine ⟨fun s => rfl, fun s delivering rekey => ?drawn, fun s k idx known en low high listed alone => ?sweep,
    fun s k v off action => ?stored, fun s k v action fits moved => ?filled, fun s k v on action bad => ?refused,
    fun s k v on action fits size base => ?kept, fun s j v => ?credit, fun s => ⟨_, rfl, rfl⟩⟩
  case drawn =>
    refine ⟨_, rfl, ?_⟩
    rw [if_pos ⟨delivering, .inl rekey⟩]
    dsimp only
    obtain ⟨key, asked, ent⟩ := fillAll_kept { takeDrbg s 16 with gnt := { (takeDrbg s 16).gnt with
      key := BitVec.ofNat 128 (leNat (drbg s 16)), drbgKey := true, rekey := false } }
    rw [raiseN_gnt, raiseN_ent]
    exact ⟨key, asked, congrArg Ent.drawn ent⟩
  case sweep =>
    have mem : k ∈ (List.range 64).filter (polEn s) := List.mem_filter.mpr ⟨List.mem_range.mpr known, en⟩
    have nodup : ((List.range 64).filter (polEn s)).Nodup := List.nodup_range.filter _
    obtain ⟨a, b, split⟩ := List.append_of_mem mem
    have other (q : Nat) (mem : q ∈ (List.range 64).filter (polEn s)) (other : q ≠ k) : Apart s q idx :=
      alone q (List.mem_range.mp (List.mem_filter.mp mem).1) other (List.mem_filter.mp mem).2
    rw [split] at nodup other
    have distinct := List.nodup_middle.mp nodup
    have apart (q : Nat) (mem : q ∈ a ++ b) : Apart s q idx := by
      refine other q ?_ fun same => (List.nodup_cons.mp distinct).1 (same ▸ mem)
      rcases List.mem_append.mp mem with h | h
      · exact List.mem_append_left _ h
      · exact List.mem_append_right _ (List.mem_cons_of_mem _ h)
    have isSome : (fillAt s.gnt.fill idx).isSome = true := by
      obtain ⟨e, mem, holds⟩ := listed
      rw [fillAt, Option.isSome_map, List.find?_isSome]
      exact ⟨e, mem, decide_eq_true holds⟩
    refine ⟨_, rfl, ?_⟩
    beta_reduce
    rw [split]
    exact sweeps_inside (fun q mem => apart q (List.mem_append_left _ mem))
      (fun q mem => apart q (List.mem_append_right _ mem)) low high isSome
  case stored =>
    refine ⟨_, execGntPolicyWrite_action action s k, ?_⟩
    rw [if_neg (by simp [polEn_policyStored, off]), ← rd_policyStored]
    split <;> rfl
  case filled =>
    refine ⟨_, execGntPolicyWrite_action action s k, ?_⟩
    have taken : ¬(polEn (policyStored s k v) k = true ∧ regionBad (policyStored s k v) k = true) := by
      rw [polEn_policyStored]
      rintro ⟨on, bad⟩
      rcases fits with off | good
      · rw [off] at on
        cases on
      · exact absurd bad (by rw [policyStored, good]; decide)
    rw [if_neg taken, policyStored, if_neg moved, ← policyStored]
    refine ⟨polEn_policyStored s k v, fun idx low high => ?_⟩
    rw [bucketOf_fillRegion (s := policyStored s k v) low high, polBurst_policyStored, nowT16_policyStored]
  case refused =>
    refine ⟨_, execGntPolicyWrite_action action s k, ?_⟩
    rw [if_pos ⟨by rw [polEn_policyStored, on], bad⟩]
    exact ⟨raiseN_gnt .., rd_raiseN _ _ _ _ (polA_plain k)⟩
  case kept =>
    refine ⟨_, execGntPolicyWrite_action action s k, ?_⟩
    have taken : ¬(polEn (policyStored s k v) k = true ∧ regionBad (policyStored s k v) k = true) :=
      fun both => absurd both.2 (by rw [policyStored, fits]; decide)
    rw [if_neg taken, if_pos ⟨size, base⟩]
    exact ⟨(polEn_policyStored s k v).trans on, storeMask_gnt ..⟩
  case credit =>
    refine ⟨_, rfl, ?_⟩
    beta_reduce
    rw [creditOf_setCredit, creditOf, storeMask_gnt]
    rfl

end Sys2Proof.Machine
end

section
/-! SUPPORT. The host interface beside its completions: no completion and no event moves a ring's state, its indices P, F
and C or its fetched descriptors, nor what the link has set (R308, R325, R479). -/

namespace Sys2Proof.Machine

variable {s t u : State}

/-- A ring without what its completions move. -/
def Ring.mark (g : Ring) : Ring := { g with q := 0, phase := true, armed := false, compl := [] }

/-- The host interface without what completions and vectors move. -/
structure HostView where
  rings : Nat → Ring
  link : Hif

def hostView (s : State) : HostView := ⟨fun r => (ringOf s r).mark, { s.hif with rings := [], vecs := [] }⟩

theorem hostView_of_hif (h : t.hif = s.hif) : hostView t = hostView s := by
  unfold hostView ringOf
  rw [h]

theorem hostView_of_rings (h : ∀ r, (ringOf t r).mark = (ringOf s r).mark)
    (link : ({ t.hif with rings := [], vecs := [] } : Hif) = { s.hif with rings := [], vecs := [] }) :
    hostView t = hostView s := by
  unfold hostView
  rw [funext h, link]

theorem ring_mark_of_hostView (h : hostView t = hostView s) (r : Nat) : (ringOf t r).mark = (ringOf s r).mark :=
  congrFun (congrArg HostView.rings h) r

theorem ring_st_of_hostView (h : hostView t = hostView s) (r : Nat) : (ringOf t r).st = (ringOf s r).st :=
  (congrArg Ring.st (ring_mark_of_hostView h r) :)

theorem ring_cause_of_hostView (h : hostView t = hostView s) (r : Nat) : (ringOf t r).cause = (ringOf s r).cause :=
  (congrArg Ring.cause (ring_mark_of_hostView h r) :)

theorem ring_c_of_hostView (h : hostView t = hostView s) (r : Nat) : (ringOf t r).c = (ringOf s r).c :=
  (congrArg Ring.c (ring_mark_of_hostView h r) :)

theorem ring_f_of_hostView (h : hostView t = hostView s) (r : Nat) : (ringOf t r).f = (ringOf s r).f :=
  (congrArg Ring.f (ring_mark_of_hostView h r) :)

theorem ring_fetched_of_hostView (h : hostView t = hostView s) (r : Nat) :
    (ringOf t r).fetched = (ringOf s r).fetched :=
  (congrArg Ring.fetched (ring_mark_of_hostView h r) :)

theorem link_of_hostView (h : hostView t = hostView s) :
    ({ t.hif with rings := [], vecs := [] } : Hif) = { s.hif with rings := [], vecs := [] } :=
  congrArg HostView.link h

@[simp] theorem hostView_ite {c : Prop} [Decidable c] :
    hostView (if c then t else u) = if c then hostView t else hostView u := apply_ite ..

theorem hostView_foldl {α : Type} {f : State → α → State} (step : ∀ s a, hostView (f s a) = hostView s) (l : List α)
    (s : State) : hostView (l.foldl f s) = hostView s := by
  induction l generalizing s with
  | nil => rfl
  | cons a l ih => rw [List.foldl_cons, ih, step]

@[simp] theorem hostView_bump (s : State) (a n : Nat) : hostView (bump s a n) = hostView s := by
  rw [bump_regs]
  rfl

theorem hostView_setRing (s : State) (r : Nat) {g : Ring} (same : g.mark = (ringOf s r).mark) :
    hostView (setRing s r g) = hostView s := by
  refine hostView_of_rings (fun k => ?_) rfl
  by_cases here : k = r
  · rw [here, ringOf_setRing, same]
  · rw [ringOf_setRing_ne s g here]

@[simp] theorem hostView_alarmClear (s : State) (id : Nat) : hostView (alarmClear s id) = hostView s := by
  refine hostView_of_hif ?_
  unfold alarmClear
  split <;> rfl

/-! ## Vectors and performance counters -/

@[simp] theorem hostView_setVec (s : State) (v : Nat) (x : Vec) : hostView (setVec s v x) = hostView s := rfl

@[simp] theorem hostView_vecFire (s : State) (v : Nat) : hostView (vecFire s v) = hostView s := by
  have entry (e : Nat × Ring) : (if ringVec s e.1 = v then (e.1, { e.2 with armed := false }) else e)
      = (e.1, disarmed s v e.1 e.2) := by
    unfold disarmed
    split <;> rfl
  have cold (k : Nat) : disarmed s v k Ring.cold = Ring.cold := by
    unfold disarmed
    split <;> rfl
  have mark (k : Nat) (g : Ring) : (disarmed s v k g).mark = g.mark := by
    unfold disarmed
    split <;> rfl
  unfold vecFire
  split
  · rfl
  · simp only [entry]
    exact hostView_of_rings (fun r => (congrArg Ring.mark (tget_map cold s.hif.rings r)).trans (mark r _)) rfl

@[simp] theorem hostView_vecRaise (s : State) (v n : Nat) : hostView (vecRaise s v n) = hostView s := by
  unfold vecRaise
  extract_lets x x1 s1 m
  rw [hostView_ite, hostView_vecFire, ite_self, hostView_setVec]

@[simp] theorem hostView_vecSettle (s : State) (v : Nat) : hostView (vecSettle s v) = hostView s := by
  unfold vecSettle
  rw [hostView_ite, hostView_setVec, ite_self]

theorem hostView_noteCompl (s : State) (r : Nat) : hostView (noteCompl s r) = hostView s := by
  unfold noteCompl
  rw [hostView_ite, hostView_vecRaise, ite_self]

/-! ## Completions and events -/

@[simp] theorem hostView_writeCompl (s : State) (r idx status : Nat) (body : Bytes) :
    hostView (writeCompl s r idx status body) = hostView s := by
  unfold writeCompl
  extract_lets g size lastSlot s1
  exact (hostView_noteCompl ..).trans ((hostView_of_hif (dmaBytes_hif ..)).trans (hostView_setRing s r rfl))

@[simp] theorem hostView_flushCompl (n r : Nat) (s : State) : hostView (flushCompl n s r) = hostView s := by
  induction n generalizing s with
  | zero => rfl
  | succ n ih =>
    unfold flushCompl
    dsimp only
    split
    · split
      · rfl
      · rw [ih, hostView_writeCompl]
        exact hostView_setRing s r rfl
    · rfl

theorem hostView_writeEvent (s : State) (r typ id sev part parts stamp : Nat) (p : Bytes) :
    hostView (writeEvent s r typ id sev part parts stamp p) = hostView s := by
  unfold writeEvent
  dsimp only
  rw [hostView_writeCompl, hostView_ite]
  exact ite_self _

theorem hostView_writeParts (r typ id sev parts stamp n : Nat) (s : State) (p : Bytes) :
    hostView (writeParts r typ id sev parts stamp n s p) = hostView s := by
  induction n generalizing s p with
  | zero => rfl
  | succ n ih => rw [writeParts, ih, hostView_writeEvent]

theorem hostView_tickOrder (s : State) (r parts : Nat) : hostView (tickOrder s r parts) = hostView s := by
  unfold tickOrder
  dsimp -zeta only
  extract_lets m s1 new l
  split <;> rfl

theorem hostView_writeTogether (s : State) (r typ id sev parts stamp : Nat) (p : Bytes) :
    hostView (writeTogether s r typ id sev parts stamp p) = hostView s := by
  unfold writeTogether
  dsimp only
  rw [hostView_ite, hostView_tickOrder, ite_self, hostView_writeParts]

@[simp] theorem hostView_flushPend (n r : Nat) (s : State) : hostView (flushPend n s r) = hostView s := by
  induction n generalizing s with
  | zero => rfl
  | succ n ih =>
    unfold flushPend
    split
    · split
      · rfl
      · rw [ih, hostView_writeEvent]
        rfl
    · rfl

theorem hostView_deliver (s : State) (typ id sev stamp : Nat) (p : Bytes) :
    hostView (deliver s typ id sev stamp p).s = hostView s := by
  unfold deliver
  dsimp only
  repeat' split
  · exact hostView_bump ..
  · rw [hostView_bump]
    exact hostView_flushPend ..
  · exact hostView_flushPend ..
  · rw [hostView_writeTogether, hostView_flushPend]
  · exact hostView_flushPend ..
  · rw [hostView_writeTogether, hostView_flushPend]

theorem hostView_alarmRaise (s : State) (id inst sev : Nat) : hostView (alarmRaise s id inst sev) = hostView s := by
  unfold alarmRaise
  dsimp only
  repeat' split
  all_goals rfl

theorem hostView_raiseFuel (n : Nat) (s : State) (id inst sev : Nat) (p : Bytes) :
    hostView (raiseFuel n s id inst sev p) = hostView s := by
  induction n generalizing s id inst sev p with
  | zero => rfl
  | succ n ih =>
    have counted := hostView_of_hif (pmcAddAll_hif 1 (pmcCounting s id 31) s)
    unfold raiseFuel
    rcases hp : pmcAddAll 1 (pmcCounting s id 31) s with ⟨s1, ovfs⟩
    rw [hp] at counted
    dsimp -zeta only
    extract_lets s2 y s3 d s4
    have alarmed : hostView s3 = hostView s := by
      show hostView s2 = hostView s
      rw [hostView_ite, hostView_alarmRaise, ite_self, counted]
    have delivered : hostView d.s = hostView s := by
      show hostView (Delivery.s (if y.summary then _ else _)) = hostView s
      split
      · exact alarmed
      · rw [hostView_deliver, alarmed]
    rw [hostView_foldl fun t _ => ih t ..]
    show hostView (if d.startsCoalescing then _ else _) = hostView s
    rw [hostView_ite, ih, ite_self, delivered]

@[simp] theorem hostView_raiseSev (s : State) (id inst sev : Nat) (p : Bytes) :
    hostView (raiseSev s id inst sev p) = hostView s := (hostView_of_hif rfl).trans (hostView_raiseFuel 4 s id inst sev p)

@[simp] theorem hostView_raiseN (s : State) (id inst : Nat) (ns : List Nat) :
    hostView (raiseN s id inst ns) = hostView s := hostView_raiseSev ..

@[simp] theorem hostView_raiseLim (s : State) (id inst lim : Nat) (ns : List Nat) :
    hostView (raiseLim s id inst lim ns) = hostView s := by
  unfold raiseLim
  extract_lets k prev
  rw [hostView_ite, hostView_raiseN]
  exact ite_self _

@[simp] theorem hostView_pmcSignal (s : State) (sig qual n : Nat) : hostView (pmcSignal s sig qual n) = hostView s := by
  have counted := hostView_of_hif (pmcAddAll_hif n (pmcCounting s sig qual) s)
  unfold pmcSignal
  rcases hp : pmcAddAll n (pmcCounting s sig qual) s with ⟨s1, ovfs⟩
  rw [hp] at counted
  exact (hostView_foldl (fun t _ => hostView_raiseN t ..) ovfs s1).trans counted

@[simp] theorem hostView_hostWrite (s : State) (r idx addr : Nat) (b : Bytes) :
    hostView (hostWrite s r idx addr b) = hostView s := hostView_pmcSignal ..

@[simp] theorem hostView_hostRead (s : State) (r idx addr n : Nat) :
    hostView (hostRead s r idx addr n) = hostView s := hostView_pmcSignal ..

theorem hostView_dmaError (s : State) (r : Nat) : hostView (dmaError s r) = hostView s :=
  (hostView_raiseLim ..).trans (hostView_bump ..)

theorem hostView_dropPend (s : State) (r : Nat) : hostView (dropPend s r) = hostView s := by
  unfold dropPend
  extract_lets n s1
  rw [hostView_ite, hostView_bump]
  exact ite_self _

/-! ## Rings whose completions are written -/

/-- The rings' states and indices: the host's view without the descriptors that a completion takes off. -/
def stand (s : State) (r : Nat) : Ring := { (ringOf s r).mark with fetched := [] }

theorem stand_of_hostView (h : hostView t = hostView s) : stand t = stand s :=
  funext fun r => by rw [stand, ring_mark_of_hostView h r, ← stand]

theorem stand_of_hif (h : t.hif = s.hif) : stand t = stand s := stand_of_hostView (hostView_of_hif h)

theorem ring_st_of_stand (h : stand t = stand s) (r : Nat) : (ringOf t r).st = (ringOf s r).st :=
  (congrArg Ring.st (congrFun h r) :)

theorem ring_f_of_stand (h : stand t = stand s) (r : Nat) : (ringOf t r).f = (ringOf s r).f :=
  (congrArg Ring.f (congrFun h r) :)

@[simp] theorem stand_ite {c : Prop} [Decidable c] : stand (if c then t else u) = if c then stand t else stand u :=
  apply_ite ..

theorem stand_setRing (s : State) (r : Nat) {g : Ring}
    (same : ({ g.mark with fetched := [] } : Ring) = { (ringOf s r).mark with fetched := [] }) :
    stand (setRing s r g) = stand s := by
  funext k
  by_cases here : k = r
  · rw [here, stand, ringOf_setRing, same, ← stand]
  · rw [stand, ringOf_setRing_ne s g here, ← stand]

@[simp] theorem stand_complete (s : State) (r idx status : Nat) (body : Bytes) :
    stand (complete s r idx status body) = stand s := by
  unfold complete
  dsimp only
  split
  · rw [stand_of_hostView (hostView_flushCompl ..)]
    exact stand_setRing s r rfl
  · rfl

theorem stand_foldl {α : Type} {f : State → α → State} (step : ∀ s a, stand (f s a) = stand s) (l : List α) (s : State) :
    stand (l.foldl f s) = stand s := by
  induction l generalizing s with
  | nil => rfl
  | cons a l ih => rw [List.foldl_cons, ih, step]

@[simp] theorem stand_finishItem (s : State) (i : TxItem) (status : Nat) (stamp : Option Nat) (len : Nat) :
    stand (finishItem s i status stamp len) = stand s := by
  unfold finishItem
  split
  · exact stand_complete ..
  · rfl

@[simp] theorem stand_enqueue (s : State) (j : Nat) (i : TxItem) : stand (enqueue s j i) = stand s := by
  unfold enqueue
  dsimp only
  split
  · rfl
  · split
    · exact stand_finishItem ..
    · exact stand_of_hostView (hostView_bump ..)
    · rfl

theorem stand_mgSend (s : State) (i : TxItem) : stand (mgSend s i) = stand s := stand_finishItem ..

@[simp] theorem stand_enqueueMg (s : State) (i : TxItem) : stand (enqueueMg s i) = stand s := by
  have drained (t : State) : stand (mgDrain t) = stand t := by
    unfold mgDrain
    split
    · exact stand_foldl stand_mgSend ..
    · rfl
  unfold enqueueMg
  rw [stand_ite, drained, stand_finishItem]
  exact ite_self _

end Sys2Proof.Machine
end

section
/-! SUPPORT. O29 and O30: doorbells, fetches and states of the rings (R305 to R331), vectors and the link (R299, R324,
R326). -/

namespace Sys2Proof.Machine

variable {s t u : State}

/-! ## Errors and stops -/

theorem ringError_ring (s : State) (r cause : Nat) :
    (ringOf (ringError s r cause) r).st = .error ∧ (ringOf (ringError s r cause) r).cause = cause := by
  unfold ringError
  extract_lets g s0 s1 purge src s2
  have set : ringOf s2 r = { g with st := .error, cause := cause, fetched := [], compl := [] } := ringOf_setRing ..
  rw [ring_st_of_hostView (hostView_raiseN ..), ring_cause_of_hostView (hostView_raiseN ..), set]
  exact ⟨rfl, rfl⟩

theorem stand_flushFrames (s : State) (r : Nat) : stand (flushFrames s r) = stand s :=
  stand_foldl (fun t i => stand_finishItem t i ..) ..

theorem stand_flushJobs (s : State) (r : Nat) : stand (flushJobs s r) = stand s :=
  stand_foldl (fun t j => stand_complete (dropJob t j) ..) ..

theorem stand_flushCommits (s : State) (r : Nat) : stand (flushCommits s r) = stand s := by
  refine stand_foldl (fun t c => ?_) ..
  split
  · exact stand_complete ..
  · rfl

theorem stand_flushFetched (s : State) (r : Nat) : stand (flushFetched s r) = stand s :=
  stand_foldl (fun t _ => stand_complete t ..) ..

theorem flushPosted_st (s : State) (r : Nat) : (ringOf (flushPosted s r) r).st = (ringOf s r).st := by
  unfold flushPosted
  dsimp only
  rw [ring_st_of_stand (stand_foldl (fun t _ => stand_complete t ..) ..), ringOf_setRing]

/-- What leaves a ring that stops completes without a change of its state (R323). -/
theorem flushes_st (s : State) (r : Nat) :
    (ringOf (flushPosted (flushFetched (flushCommits (flushJobs (flushFrames s r) r) r) r) r) r).st = (ringOf s r).st := by
  rw [flushPosted_st]
  exact ring_st_of_stand (by rw [stand_flushFetched, stand_flushCommits, stand_flushJobs, stand_flushFrames]) r

theorem ringErrorEnd_hif (s : State) : (ringErrorEnd s).hif = s.hif := by
  unfold ringErrorEnd
  split
  · rfl
  · unfold alarmClear
    split <;> rfl

theorem ringOf_vecSettle (s : State) (v r : Nat) : ringOf (vecSettle s v) r = ringOf s r := by
  unfold vecSettle
  split <;> rfl

/-! ## Doorbells and fetches -/

theorem hostView_armRing (s : State) (r : Nat) : hostView (armRing s r) = hostView s := by
  have armed := hostView_setRing s r (g := { ringOf s r with armed := true }) rfl
  unfold armRing
  extract_lets g s1
  rw [hostView_ite, hostView_vecRaise, ite_self]
  exact armed

theorem hostView_ringSpace (s : State) (r : Nat) : hostView (ringSpace s r) = hostView s := by
  unfold ringSpace
  extract_lets s1
  rw [hostView_ite, hostView_flushPend, ite_self]
  exact hostView_flushCompl ..

theorem stand_dmaError (s : State) (r : Nat) : stand (dmaError s r) = stand s := stand_of_hostView (hostView_dmaError s r)

theorem stand_bump (s : State) (a n : Nat) : stand (bump s a n) = stand s := stand_of_hostView (hostView_bump ..)

theorem stand_txFetch (s : State) (r idx : Nat) (d : Bytes) (data : Option Bytes) : stand (txFetch s r idx d data) = stand s := by
  have done (t : State) (status : Nat) (w : List Word) : stand (complete t r idx status (txBody w none 0)) = stand t :=
    stand_complete ..
  unfold txFetch
  dsimp only
  repeat' split
  all_goals simp only [done, stand_bump, stand_dmaError, stand_enqueueMg, stand_enqueue]

theorem noteDrawWaits_stand (s : State) : stand (noteDrawWaits s) = stand s := by
  unfold noteDrawWaits
  split
  · rfl
  · refine stand_foldl (fun t j => ?_) ..
    rw [stand_of_hostView (hostView_raiseLim ..), stand_bump]
    rfl

theorem stand_pkeFetch (s : State) (r idx : Nat) (d : Bytes) (input : Option Bytes) :
    stand (pkeFetch s r idx d input) = stand s := by
  unfold pkeFetch
  repeat' split
  · exact stand_complete ..
  · exact (stand_complete ..).trans (stand_bump ..)
  · exact noteDrawWaits_stand _

theorem stand_fetchToken (s : State) (cls : Nat) : stand (fetchToken s cls).1 = stand s := by
  unfold fetchToken
  split
  · exact stand_bump ..
  · split
    · exact stand_bump ..
    · split
      · exact (stand_of_hostView (hostView_raiseLim ..)).trans (stand_bump ..)
      · next u taken =>
        unfold takeToken at taken
        split at taken
        · rw [← Option.some.inj taken]
        · dsimp only at taken
          split at taken
          · cases taken
          · rw [← Option.some.inj taken]
            rfl

/-- A descriptor that waits for its command. -/
def keepFetched (s : State) (r : Nat) (x : Fetched) : State :=
  setRing s r { ringOf s r with fetched := (ringOf s r).fetched ++ [x] }

theorem stand_keepFetched (s : State) (r : Nat) (x : Fetched) : stand (keepFetched s r x) = stand s := stand_setRing s r rfl

theorem execHifDescFetch_f {r : Fin 256} {d : Bytes} {data : Option Bytes} (may : mayFetch s r = true) :
    Gives (.hifDescFetch r d data) s fun t => (ringOf t r).f = (ringOf s r).f + 1 := by
  refine ⟨_, rfl, ?_⟩
  rw [if_pos may]
  extract_lets g desc idx s0 s2 src s1 keep
  have fetched : (ringOf s1 r).f = (ringOf s r).f + 1 := (congrArg Ring.f (ringOf_setRing ..) :)
  have moved {t : State} (h : stand t = stand s1) : (ringOf t r).f = (ringOf s r).f + 1 := (ring_f_of_stand h r).trans fetched
  have kept (t : State) (token : Bool) : stand (keep t token) = stand t := stand_keepFetched ..
  beta_reduce
  split
  · exact moved (stand_txFetch ..)
  · split
    · exact moved (stand_pkeFetch ..)
    · split
      · exact moved (stand_complete ..)
      · split
        · exact moved (kept ..)
        · next cls _ =>
          have token {t : State} {n : Option NoCommit} (eq : fetchToken s1 cls = (t, n)) : stand t = stand s1 :=
            (congrArg (fun x => stand x.1) eq.symm).trans (stand_fetchToken s1 cls)
          split
          · next eq => exact moved ((kept ..).trans (token eq))
          · next eq => exact moved ((stand_complete ..).trans (token eq))
          · next eq => exact moved ((stand_complete ..).trans (token eq))
          · next eq => exact moved ((stand_complete ..).trans (token eq))

/-- Settles O29: a ring keeps the state and the indices that a doorbell, a fetch or a stop has given it. -/
theorem ringsTakeEffect : Obligations.RingsTakeEffect := by
  unfold Obligations.RingsTakeEffect
  refine ⟨fun s r v high plain running fits => ?posted, fun s r v high plain running beyond => ?overrun,
    fun s r v high running fits => ?consumed, fun s r d x may => execHifDescFetch_f may,
    fun s r cfg disabled good => ?enabled, fun s r running => ?stopping, fun s r error => ?disabled,
    fun s r stopping drained => ?stopped, fun s r b running => ?failed⟩
  case posted =>
    refine ⟨_, rfl, ?_⟩
    rw [if_neg (not_not.mpr high), if_neg (by simp [plain])]
    dsimp only
    rw [if_neg (not_not.mpr running), if_neg (Nat.not_lt.mpr fits), ringOf_setRing]
    exact ⟨rfl, running⟩
  case overrun =>
    refine ⟨_, rfl, ?_⟩
    rw [if_neg (not_not.mpr high), if_neg (by simp [plain])]
    dsimp only
    rw [if_neg (not_not.mpr running), if_pos beyond]
    exact ringError_ring ..
  case consumed =>
    refine ⟨_, rfl, ?_⟩
    rw [if_neg (not_not.mpr high)]
    extract_lets g c s1
    rw [if_neg (fun both => both.1 running), if_neg (Nat.not_lt.mpr fits)]
    have set : ringOf s1 r = { g with c := c } := ringOf_setRing ..
    have view : hostView (ringSpace (vecSettle (if flag v 31 then armRing s1 r else s1) (ringVec s r)) r) = hostView s1 := by
      rw [hostView_ringSpace, hostView_vecSettle, hostView_ite, hostView_armRing, ite_self]
    beta_reduce
    rw [ring_c_of_hostView view, ring_st_of_hostView view, set]
    exact ⟨rfl, running⟩
  case enabled =>
    refine ⟨_, rfl, ?_⟩
    rw [if_neg (not_not.mpr disabled)]
    dsimp only
    rw [if_neg (by simp [good]), ringOf_vecSettle, ringOf_vecSettle]
    exact ringOf_setRing ..
  case stopping =>
    refine ⟨_, rfl, ?_⟩
    rw [running]
    dsimp only
    rw [flushes_st, ringOf_setRing]
  case disabled =>
    refine ⟨_, rfl, ?_⟩
    rw [error]
    dsimp only
    rw [ringOf, ringErrorEnd_hif, ← ringOf, ringOf_setRing]
  case stopped =>
    refine ⟨_, rfl, ?_⟩
    dsimp only
    rw [if_pos ⟨stopping, drained⟩, ring_st_of_hostView (hostView_raiseN ..), ringOf_setRing]
  case failed =>
    refine ⟨_, rfl, ?_⟩
    rw [running]
    exact ringError_ring ..

/-! ## Vectors -/

theorem vecFire_unmasked {v : Nat} (free : vecMasked s v = false) :
    (vecFire s v).out = .msix v (msixTlp s v) (msixData s v) :: s.out ∧ vecOf (vecFire s v) v = Vec.cold := by
  unfold vecFire
  rw [if_neg (by simp [free])]
  exact ⟨rfl, vecOf_setVec ..⟩

theorem vecFire_masked {v : Nat} (masked : vecMasked s v = true) :
    (vecFire s v).out = s.out ∧ (vecOf (vecFire s v) v).pba = true := by
  unfold vecFire
  rw [if_pos masked]
  exact ⟨rfl, (congrArg Vec.pba (vecOf_setVec ..) :)⟩

theorem vecFire_funcMask (s : State) (v : Nat) : (vecFire s v).hif.funcMask = s.hif.funcMask := by
  unfold vecFire
  split <;> rfl

/-- The state in which a vector's mask bit is clear. -/
def unmasked (s : State) (v : Nat) : State := wrf s (0xE0800C + 0x10 * v) 0 1 0

theorem unmasked_bit (s : State) (v : Nat) : rb (unmasked s v) (0xE0800C + 0x10 * v) 0 = false := by
  rw [rb, unmasked, rd_wrf_same]
  simp [flag, putFld]

theorem unmasked_msix (s : State) (v : Nat) :
    msixTlp (unmasked s v) v = msixTlp s v ∧ msixData (unmasked s v) v = msixData s v := by
  have word {a : Nat} (other : a ≠ 0xE0800C + 0x10 * v) : rd (unmasked s v) a = rd s a := rd_wrf_ne s _ _ _ other
  unfold msixTlp msixData addrPair
  rw [word (by omega), word (by omega), word (by omega)]
  exact ⟨rfl, rfl⟩

theorem hostView_fireWaiting (s : State) : hostView (fireWaiting s) = hostView s := by
  unfold fireWaiting
  exact hostView_foldl (f := fun t (e : Nat × Vec) => vecFire t e.1) (fun t e => hostView_vecFire t e.1) _ s

/-- What a link sets stays where the host's view of the interface does. -/
theorem link_fields (h : hostView t = hostView s) :
    t.hif.linkUp = s.hif.linkUp ∧ t.hif.speed = s.hif.speed ∧ t.hif.width = s.hif.width ∧ t.hif.mps = s.hif.mps ∧
      t.hif.mrrs = s.hif.mrrs ∧ t.hif.tag10 = s.hif.tag10 := by
  have link := link_of_hostView h
  exact ⟨(congrArg Hif.linkUp link :), (congrArg Hif.speed link :), (congrArg Hif.width link :),
    (congrArg Hif.mps link :), (congrArg Hif.mrrs link :), (congrArg Hif.tag10 link :)⟩

theorem configWord_zero : configWord 0 >>> 16 = 0x4880 := by
  have fixed : configWord 0 = (Config.pcieConfig 0 &&& 0x0000FFFF#32) ||| 0x48800000#32 := rfl
  have low : (0x0000FFFF#32) >>> 16 = 0#32 := rfl
  have high : (0x48800000#32) >>> 16 = 0x4880#32 := rfl
  rw [fixed, BitVec.ushiftRight_or_distrib, BitVec.ushiftRight_and_distrib, low, high, BitVec.and_zero, BitVec.zero_or]
  rfl

theorem configWord_two : configWord 2 = 0x088000B0 := by
  have fixed : configWord 2 = (Config.pcieConfig 2 &&& 0#32) ||| 0x088000B0#32 := rfl
  rw [fixed, BitVec.and_zero, BitVec.zero_or]
  rfl

theorem execHifFlr_effect (s : State) :
    Gives .hifFlr s fun t => (∀ r, (ringOf t r).st = .disabled) ∧ flag (rd t 0x10) 9 = true := by
  refine ⟨_, rfl, fun r => ?_, ?_⟩
  · rw [ring_st_of_hostView (hostView_raiseN ..)]
    show (ringOf (ringErrorEnd (clearMsix (resetRings s))) r).st = .disabled
    rw [ringOf, ringErrorEnd_hif]
    rfl
  · rw [rd_raiseN _ _ _ _ (by decide), rd_orReg_same]
    simp [flag]

/-- Settles O30: a vector's message by its mask, and the link by the host's view of it. -/
theorem vectorsAndLinkTakeEffect : Obligations.VectorsAndLinkTakeEffect := by
  unfold Obligations.VectorsAndLinkTakeEffect
  refine ⟨fun s v pending due free => ?fires, fun s v pending due masked => ?waits, fun s v pba open_ => ?unmasks,
    fun s v pba closed => ?stillMasked, fun s v quiet => ?idle, execHifFlr_effect, fun s => ?down, fun s sp w c => ?up,
    configWord_zero, configWord_two⟩
  case fires =>
    refine ⟨_, rfl, ?_⟩
    rw [if_pos pending, if_pos due]
    exact vecFire_unmasked free
  case waits =>
    refine ⟨_, rfl, ?_⟩
    rw [if_pos pending, if_pos due]
    exact vecFire_masked masked
  case unmasks =>
    refine ⟨_, rfl, ?_⟩
    have bit := unmasked_bit s v
    have free : vecMasked (unmasked s v) v = false := by
      rw [vecMasked, bit, Bool.or_false]
      exact open_
    obtain ⟨out, cold⟩ := vecFire_unmasked free
    obtain ⟨tlp, data⟩ := unmasked_msix s v
    rw [← unmasked]
    dsimp only
    rw [if_pos (show (vecOf (unmasked s v) v).pba = true from pba), out, tlp, data]
    refine ⟨rfl, cold, ?_⟩
    rw [vecMasked, vecFire_funcMask, rb, rd, vecFire_regs, ← rd, ← rb, bit, Bool.or_false]
    exact open_
  case stillMasked =>
    refine ⟨_, rfl, ?_⟩
    have masked : vecMasked (unmasked s v) v = true := by
      rw [vecMasked, Bool.or_eq_true]
      exact .inl closed
    obtain ⟨out, waits⟩ := vecFire_masked masked
    rw [← unmasked]
    dsimp only
    rw [if_pos (show (vecOf (unmasked s v) v).pba = true from pba)]
    refine ⟨out, waits, ?_⟩
    rw [rb, rd, vecFire_regs, ← rd, ← rb, unmasked_bit]
  case idle =>
    refine ⟨_, rfl, ?_⟩
    rw [← unmasked]
    dsimp only
    rw [if_neg (by rw [show (vecOf (unmasked s v) v).pba = false from quiet]; decide)]
    exact ⟨rfl, unmasked_bit s v⟩
  case down =>
    refine ⟨_, rfl, ?_⟩
    obtain ⟨up, speed, width, -⟩ := link_fields (hostView_raiseN _ 277 0 [])
    exact ⟨up, speed, width⟩
  case up =>
    refine ⟨_, rfl, ?_⟩
    obtain ⟨up, speed, width, mps, mrrs, tag⟩ := link_fields ((hostView_raiseN _ 277 0 []).trans (hostView_fireWaiting _))
    refine ⟨up, speed, width, ?_, ?_, tag⟩
    · rw [mps]
      exact Nat.min_le_left ..
    · rw [mrrs]
      exact Nat.min_le_left ..

end Sys2Proof.Machine
end

section
/-! SUPPORT. O31 to O33: the recipes of the public-key engine (R333 to R341). One rule says what a core leaves of the job
that it runs; each recipe is a use of it. -/

namespace Sys2Proof.Machine

variable {s t u : State} {c op : Nat} {j : PkeJob}

/-- A job that runs a recipe keeps what the recipe yields. -/
theorem runRecipe_of_runs (runs : Runs s c j op) (f : PkeJob → Recipe) :
    runRecipe s c op f = setJob (f j).s { j with result := (f j).result, output := (f j).output, faulty := (f j).faulty } := by
  obtain ⟨clock, on, opcode, fresh, valid⟩ := runs
  unfold runRecipe
  rw [on]
  dsimp only
  rw [if_neg (by simp [clock]), if_pos ⟨opcode, fresh⟩, if_neg (not_not.mpr valid)]

/-- A recipe that has no fault leaves its job with result and output. -/
theorem runRecipe_jobWith (runs : Runs s c j op) {f : PkeJob → Recipe} {result : Nat} {out : Bytes}
    (yields : f j = { s := u, result := result, output := out }) : runRecipe s c op f = jobWith u j result out := by
  rw [runRecipe_of_runs runs, yields]
  rfl

theorem modular_of_runs (runs : Runs s c j op) (g : Nat → Nat → Nat → Nat) :
    modular s c op g =
      jobWith s j 0 (beBytes (pkeBytes (pkeSize j.desc)) (g (jobField j 0) (jobField j 1) (jobField j 2))) :=
  runRecipe_jobWith runs rfl

/-- Settles O31: each modular operation is the recipe of its formula. -/
theorem modularOperationsCompute : Obligations.ModularOperationsCompute := by
  unfold Obligations.ModularOperationsCompute
  refine ⟨fun s c j runs => ?add, fun s c j runs => ?sub, fun s c j runs => ?mul, fun s c j v runs inverse => ?inv,
    fun s c j runs without => ?noInv, fun s c j runs => ?exp⟩
  case add => exact congrArg Host.Outcome.next (modular_of_runs runs _)
  case sub => exact congrArg Host.Outcome.next (modular_of_runs runs _)
  case mul => exact congrArg Host.Outcome.next (modular_of_runs runs _)
  case exp => exact congrArg Host.Outcome.next (modular_of_runs runs _)
  case inv =>
    refine congrArg Host.Outcome.next (runRecipe_jobWith runs ?_)
    simp only [jobField] at inverse
    dsimp only
    rw [inverse]
  case noInv =>
    refine congrArg Host.Outcome.next (runRecipe_jobWith runs ?_)
    simp only [jobField] at without
    dsimp only
    rw [without]

/-- Settles O32: each signature and each agreement is the recipe of its formula. -/
theorem signaturesAndKeyAgreementCompute : Obligations.SignaturesAndKeyAgreementCompute := by
  unfold Obligations.SignaturesAndKeyAgreementCompute
  refine ⟨fun s c j runs => ?ecSign, fun s c j runs => ?ecVerify, fun s c j runs => ?edSign, fun s c j runs => ?edVerify,
    fun s c j runs => ?agree, fun s c j m runs good => ?rsa, fun s c j runs bad => ?rsaFault, fun s c j runs => ?rsaPub⟩
  case ecSign => exact congrArg Host.Outcome.next (runRecipe_jobWith runs rfl)
  case ecVerify => exact congrArg Host.Outcome.next (runRecipe_jobWith runs rfl)
  case edSign => exact congrArg Host.Outcome.next (runRecipe_jobWith runs rfl)
  case edVerify => exact congrArg Host.Outcome.next (runRecipe_jobWith runs rfl)
  case agree => exact congrArg Host.Outcome.next (runRecipe_jobWith runs rfl)
  case rsaPub => exact congrArg Host.Outcome.next (runRecipe_jobWith runs rfl)
  case rsa =>
    refine congrArg Host.Outcome.next (runRecipe_jobWith runs ?_)
    dsimp only
    rw [good]
  case rsaFault =>
    refine congrArg Host.Outcome.next ?_
    rw [runRecipe_of_runs runs, bad]

/-! ## Keys -/

theorem setJob_regs (s : State) (j : PkeJob) : (setJob s j).regs = s.regs := rfl

theorem setJob_slots (s : State) (j : PkeJob) : (setJob s j).pke.slots = s.pke.slots := rfl

/-- The slot of an import that fails its check is empty, and the failure is counted (R341). -/
theorem importFailed_kept (s : State) (slot : Nat) (j : PkeJob) :
    let t := setJob (raiseN (bump (setSlotKey s slot []) 0xF0014C 1) 306 slot [slot]) j
    slotKeyOf t slot = [] ∧ Counted s t 0xF0014C 1 := by
  intro t
  refine ⟨?_, (bump_counted (setSlotKey s slot []) 1 (by decide)).raiseN 306 slot [slot] (by decide)⟩
  rw [slotKeyOf, setJob_slots, raiseN_pke, bump_pke]
  exact slotKeyOf_setSlotKey ..

/-- Settles O33: each key operation is the recipe of its formula on the key slots. -/
theorem keyOperationsMoveKeys : Obligations.KeyOperationsMoveKeys := by
  unfold Obligations.KeyOperationsMoveKeys
  refine ⟨fun s c j p runs unwraps header length => ?taken, fun s c j runs fails => ?failed, fun s c j runs => ?wrap,
    fun s c j runs => ?keygen, fun s c j runs => ?erase, fun s => rfl⟩
  case taken =>
    refine congrArg Host.Outcome.next (runRecipe_jobWith runs ?_)
    dsimp only
    rw [unwraps]
    dsimp only
    rw [if_pos ⟨header, length⟩]
  case failed =>
    refine ⟨_, congrArg Host.Outcome.next (runRecipe_of_runs runs _), ?_⟩
    dsimp only
    rw [fails]
    exact importFailed_kept ..
  case wrap => exact congrArg Host.Outcome.next (runRecipe_jobWith runs rfl)
  case keygen => exact congrArg Host.Outcome.next (runRecipe_jobWith runs rfl)
  case erase => exact congrArg Host.Outcome.next (runRecipe_jobWith runs rfl)

end Sys2Proof.Machine
end

section
/-! SUPPORT. O34 and O35: how the public-key engine runs its jobs (R338 to R347, R356), its core tests and aborts. -/

namespace Sys2Proof.Machine

variable {s t u : State} {j : PkeJob}

/-! ## The list of jobs -/

/-- The names of the jobs. -/
def jobKeys (s : State) : List (Nat × Nat) := s.pke.jobs.map fun x => (x.ring, x.idx)

/-- No job has the name of this one. -/
def JobGone (s : State) (j : PkeJob) : Prop := ∀ x ∈ s.pke.jobs, ¬(x.ring = j.ring ∧ x.idx = j.idx)

theorem jobGone_iff : JobGone s j ↔ (j.ring, j.idx) ∉ jobKeys s := by
  simp [JobGone, jobKeys]

theorem JobGone.of_keys (h : JobGone s j) (same : jobKeys t = jobKeys s) : JobGone t j := by
  rw [jobGone_iff] at *
  rwa [same]

theorem JobGone.of_pke (h : JobGone s j) (same : t.pke = s.pke) : JobGone t j :=
  h.of_keys (by rw [jobKeys, same, ← jobKeys])

theorem dropJob_gone (s : State) (j : PkeJob) : JobGone (dropJob s j) j := by
  rintro x mem ⟨ring, idx⟩
  have other := of_decide_eq_true (List.mem_filter.mp mem).2
  exact other.elim (· ring) (· idx)

theorem setJob_keys (s : State) (j : PkeJob) : jobKeys (setJob s j) = jobKeys s := by
  show List.map _ (List.map _ _) = _
  rw [List.map_map]
  refine List.map_congr_left fun x _ => ?_
  dsimp only [Function.comp]
  split
  · next same => rw [same.1, same.2]
  · rfl

theorem setJob_named {x : PkeJob} (mem : x ∈ (setJob s j).pke.jobs) (ring : x.ring = j.ring) (idx : x.idx = j.idx) :
    x = j := by
  obtain ⟨y, -, eq⟩ := List.mem_map.mp mem
  by_cases same : y.ring = j.ring ∧ y.idx = j.idx
  · rw [if_pos same] at eq
    exact eq.symm
  · rw [if_neg same] at eq
    exact absurd ⟨eq ▸ ring, eq ▸ idx⟩ same

theorem setJob_length (s : State) (j : PkeJob) : (setJob s j).pke.jobs.length = s.pke.jobs.length := List.length_map ..

/-! ## Jobs that wait for their draw -/

/-- One job that waits for its draw is noted. -/
def noteDraw (s : State) (j : PkeJob) : State :=
  raiseLim (bump (setJob s { j with waited := true }) 0xF00150 1) 307 0 0 []

theorem noteDraw_pke (s : State) (j : PkeJob) : (noteDraw s j).pke = (setJob s { j with waited := true }).pke :=
  (raiseLim_pke ..).trans (bump_pke ..)

/-- What the noting of waiting draws leaves alone. -/
structure DrawsNoted (s t : State) : Prop where
  keys : jobKeys t = jobKeys s
  cores : t.pke.cores = s.pke.cores
  within : Within [.pke] s t
  reg : ∀ a, eventReg a = false → a ≠ 0xF00150 → rd t a = rd s a

theorem noteDraw_noted (s : State) (j : PkeJob) : DrawsNoted s (noteDraw s j) where
  keys := by
    rw [jobKeys, noteDraw_pke]
    exact setJob_keys s { j with waited := true }
  cores := (congrArg Pke.cores (noteDraw_pke s j)).trans rfl
  within := by simp [noteDraw, setJob, setJobs]
  reg a plain other := (raiseLim_kept (fun _ => false) _ _ _ _ _ a plain rfl).trans
    (rd_bump_ne _ _ other (by rintro rfl; cases plain))

theorem DrawsNoted.trans (h : DrawsNoted s t) (k : DrawsNoted t u) : DrawsNoted s u where
  keys := k.keys.trans h.keys
  cores := k.cores.trans h.cores
  within := h.within.trans k.within
  reg a plain other := (k.reg a plain other).trans (h.reg a plain other)

theorem noteDrawWaits_noted (s : State) : DrawsNoted s (noteDrawWaits s) := by
  have none : DrawsNoted s s := ⟨rfl, rfl, .refl, fun _ _ _ => rfl⟩
  unfold noteDrawWaits
  split
  · exact none
  · exact List.foldlRecOn (motive := fun t : State => DrawsNoted s t) _ _ none
      fun t noted j _ => noted.trans (noteDraw_noted t j)

/-! ## The end of a job -/

theorem countJob_pke (s : State) (j : PkeJob) (n : Nat) : (countJob s j n).pke = s.pke := by
  unfold countJob
  dsimp only
  split
  · exact bump_pke ..
  · rfl

theorem countJob_ent (s : State) (j : PkeJob) (n : Nat) : (countJob s j n).ent = s.ent := by
  unfold countJob
  dsimp only
  split
  · exact bump_ent ..
  · rfl

theorem countJob_stat (s : State) (j : PkeJob) (n : Nat) :
    (countJob s j n).stat = (statInc s (if isInteractive j then 0xF00100 else 0xF00108) 1).stat := by
  unfold countJob
  dsimp only
  split
  · exact bump_stat ..
  · rfl

theorem countJob_reg (s : State) (j : PkeJob) (n : Nat) {a : Nat} (other : a ≠ 0xF00140) (sat : a ≠ 0x1500040) :
    rd (countJob s j n) a = rd s a := by
  unfold countJob
  dsimp only
  split
  · exact rd_bump_ne _ _ other sat
  · rfl

/-- The end of a job beside its completion and its verdict: counters and the jobs stay. -/
structure JobEnded (s t : State) : Prop where
  pke : t.pke = s.pke
  stat : t.stat = s.stat
  regs : t.regs = s.regs

theorem endJob_ended (s : State) (j : PkeJob) (n : Nat) (body : Bytes) : JobEnded s (endJob s j n body) := by
  unfold endJob
  split
  · exact ⟨rfl, rfl, rfl⟩
  · exact ⟨complete_pke .., complete_stat .., complete_regs ..⟩

theorem abortDone_pke (s : State) (r : Nat) : (abortDone s r).pke = s.pke := by
  unfold abortDone
  split
  · rfl
  · exact raiseN_pke ..

theorem rd_abortDone (s : State) (r : Nat) {a : Nat} (plain : eventReg a = false) : rd (abortDone s r) a = rd s a := by
  unfold abortDone
  split
  · rfl
  · exact rd_raiseN _ _ _ _ plain

theorem rd_hostWrite (s : State) (r idx addr : Nat) (b : Bytes) {a : Nat} (plain : eventReg a = false) :
    rd (hostWrite s r idx addr b) a = rd s a := rd_of_plainRegs (plainRegs_pmcSignal ..) plain

theorem rd_dmaError (s : State) (r : Nat) {a : Nat} (plain : eventReg a = false) (other : a ≠ 0xE00008) :
    rd (dmaError s r) a = rd s a :=
  (raiseLim_kept (fun _ => false) _ _ _ _ _ a plain rfl).trans (rd_bump_ne _ _ other (by rintro rfl; cases plain))

/-- A job with the fault that its core has found, or without one. -/
def faulted (s : State) (c : Nat) (j : PkeJob) (fault : Bool) : State :=
  if fault then coreFault (dropJob s j) c else dropJob s j

/-- A job's output is written, or its write fails. -/
def written (s : State) (j : PkeJob) (out : Bytes) (ok : Bool) : State :=
  if out = [] then s
  else if ok then hostWrite s j.ring j.idx (descAddr j.desc 8) out
  else dmaError (hostWrite s j.ring j.idx (descAddr j.desc 8) ((List.range out.length).map Config.bufferUndefined)) j.ring

/-- The failed read of a job's input is counted. -/
def readFailed (s : State) (j : PkeJob) : State := if j.result = 0x0D then dmaError s j.ring else s

/-- The last steps of a job's end. -/
def finished (s : State) (j : PkeJob) (result : Nat) (body : Bytes) : State :=
  let v := noteDrawWaits (endJob (countJob s j result) j result body)
  if j.abort then abortDone v j.ring else v

theorem written_quiet (s : State) (j : PkeJob) (out : Bytes) (ok : Bool) : Quiet s (written s j out ok) := by
  unfold written
  repeat' split
  · exact .refl s
  · exact hostWrite_quiet ..
  · exact (hostWrite_quiet ..).trans (dmaError_quiet ..)

theorem rd_written (s : State) (j : PkeJob) (out : Bytes) (ok : Bool) {a : Nat} (plain : eventReg a = false)
    (other : a ≠ 0xE00008) : rd (written s j out ok) a = rd s a := by
  unfold written
  repeat' split
  · rfl
  · exact rd_hostWrite _ _ _ _ _ plain
  · exact (rd_dmaError _ _ plain other).trans (rd_hostWrite _ _ _ _ _ plain)

theorem readFailed_quiet (s : State) (j : PkeJob) : Quiet s (readFailed s j) := by
  unfold readFailed
  split
  · exact dmaError_quiet ..
  · exact .refl s

theorem rd_readFailed (s : State) (j : PkeJob) {a : Nat} (plain : eventReg a = false) (other : a ≠ 0xE00008) :
    rd (readFailed s j) a = rd s a := by
  unfold readFailed
  split
  · exact rd_dmaError _ _ plain other
  · rfl

theorem execPkeJobDone_ends {c : Fin 12} {pe wo : Bool} {n : Nat} (clock : clkRuns s.clk.pke = true)
    (on : jobOn s c = some j) (goes : ¬(j.abort = true ∧ (pe || j.faulty) = false))
    (ran : ¬(j.result = notRun ∧ (pe || j.faulty) = false)) :
    ∃ out result body, execPkeJobDone c pe wo n s =
      .next (finished (readFailed (written (faulted s c j (pe || j.faulty)) j out wo) j) j result body) := by
  unfold execPkeJobDone
  rw [on]
  dsimp only
  rw [if_neg (by simp [clock]), if_neg goes, if_neg ran]
  exact ⟨_, _, _, rfl⟩

theorem coreFault_jobs (s : State) (c : Nat) : (coreFault s c).pke.jobs = s.pke.jobs := by
  unfold coreFault
  rw [raiseN_pke]
  show (bump s 0xF00144 1).pke.jobs = _
  rw [bump_pke]

theorem coreFault_stat (s : State) (c : Nat) : (coreFault s c).stat = s.stat := (raiseN_stat ..).trans (bump_stat ..)

theorem coreFault_faulty (s : State) (c : Nat) : (coreOf (coreFault s c) c).faulty = true := by
  rw [coreOf, coreFault, raiseN_pke, ← coreOf, coreOf_setCore]

theorem coreFault_counted (s : State) (c : Nat) : Counted s (coreFault s c) 0xF00144 1 :=
  Counted.raiseN (t := setCore (bump s 0xF00144 1) c { coreOf s c with faulty := true })
    (bump_counted s 1 (by decide)) 304 c [c] (by decide)

/-- The last steps keep a job that has gone away gone, count it once, and leave the cores and their faults. -/
theorem finished_kept (s : State) (j : PkeJob) (result : Nat) (body : Bytes) :
    (JobGone s j → JobGone (finished s j result body) j) ∧
    (finished s j result body).stat = (statInc s (if isInteractive j then 0xF00100 else 0xF00108) 1).stat ∧
    (finished s j result body).pke.cores = s.pke.cores ∧
    rd (finished s j result body) 0xF00144 = rd s 0xF00144 := by
  have ended := endJob_ended (countJob s j result) j result body
  have noted := noteDrawWaits_noted (endJob (countJob s j result) j result body)
  have pke := ended.pke.trans (countJob_pke s j result)
  have stat := ended.stat.trans (countJob_stat s j result)
  have reg : rd (endJob (countJob s j result) j result body) 0xF00144 = rd s 0xF00144 := by
    rw [rd, ended.regs, ← rd]
    exact countJob_reg s j result (by decide) (by decide)
  have reg' := (noted.reg 0xF00144 (by decide) (by decide)).trans reg
  have cores := noted.cores.trans (congrArg Pke.cores pke)
  have stat' := Eq.trans (noted.within .stat (by decide)) stat
  have gone (h : JobGone s j) := (h.of_pke pke).of_keys noted.keys
  unfold finished
  dsimp only
  split
  · refine ⟨fun h => (gone h).of_pke (abortDone_pke ..), ?_, ?_, (rd_abortDone _ _ (by decide)).trans reg'⟩
    · exact Eq.trans (((within_abortDone (ps := []) j.ring).2 .refl) .stat (by decide)) stat'
    · rw [abortDone_pke, cores]
  · exact ⟨gone, stat', cores, reg'⟩

theorem ended_gone {c : Nat} {fault : Bool} (out : Bytes) (ok : Bool) (result : Nat) (body : Bytes) :
    let t := finished (readFailed (written (faulted s c j fault) j out ok) j) j result body
    JobGone t j ∧ statGet t (if isInteractive j then 0xF00100 else 0xF00108)
      = statGet s (if isInteractive j then 0xF00100 else 0xF00108) + 1 := by
  intro t
  obtain ⟨gone, stat, -, -⟩ := finished_kept (readFailed (written (faulted s c j fault) j out ok) j) j result body
  have quiet := (written_quiet (faulted s c j fault) j out ok).trans (readFailed_quiet _ j)
  have jobs : (faulted s c j fault).pke.jobs = (dropJob s j).pke.jobs := by
    unfold faulted
    split
    · exact coreFault_jobs ..
    · rfl
  have stats : (faulted s c j fault).stat = s.stat := by
    unfold faulted
    split
    · exact coreFault_stat ..
    · rfl
  have dropped : JobGone (faulted s c j fault) j := by
    unfold JobGone
    rw [jobs]
    exact dropJob_gone s j
  refine ⟨gone (dropped.of_pke quiet.pke), ?_⟩
  rw [statGet, stat, ← statGet, statGet_statInc, statGet, quiet.stat, stats]
  rfl

theorem ended_faulted {c : Nat} (out : Bytes) (ok : Bool) (result : Nat) (body : Bytes) :
    let t := finished (readFailed (written (faulted s c j true) j out ok) j) j result body
    (coreOf t c).faulty = true ∧ Counted s t 0xF00144 1 := by
  intro t
  obtain ⟨-, -, cores, reg⟩ := finished_kept (readFailed (written (faulted s c j true) j out ok) j) j result body
  have quiet := (written_quiet (faulted s c j true) j out ok).trans (readFailed_quiet _ j)
  refine ⟨?_, ?_⟩
  · rw [coreOf, cores, quiet.pke, ← coreOf]
    exact coreFault_faulty ..
  · have same := reg.trans ((rd_readFailed _ j (by decide) (by decide)).trans
      (rd_written (faulted s c j true) j out ok (by decide) (by decide)))
    exact same.trans (coreFault_counted (dropJob s j) c)

/-! ## RANDOM -/

theorem randomNotReady_counted (s : State) (r idx : Nat) (d : Bytes) :
    Counted s (randomNotReady s r idx d) 0x100014C 1 := by
  rw [Counted, randomNotReady, rd, complete_regs, ← rd]
  exact bump_counted s 1 (by decide)

theorem randomNotReady_pke (s : State) (r idx : Nat) (d : Bytes) : (randomNotReady s r idx d).pke = s.pke :=
  (complete_pke ..).trans (bump_pke ..)

/-- Settles O34: dispatch and draws replace the job that they name, and an end takes it off the list. -/
theorem pkeJobsAreRun : Obligations.PkeJobsAreRun := by
  unfold Obligations.PkeJobsAreRun
  refine ⟨fun s c j free started clock idle next => ?interactive,
    fun s c j free started clock idle none few next => ?bulk, fun s r j first early valid delivering => ?drawn,
    fun s c j n on class_ going waits busy => ?yields, fun s c j pe wo n clock on going ran => ?ends,
    fun s c j wo n clock on => ?faults, fun s r j waits valid delivering => ?random,
    fun s r j oldest stopped => ?expired, fun s c j on fresh size => ?unknown⟩
  case interactive =>
    refine ⟨_, rfl, ?_⟩
    rw [if_neg (by simp [free, started, clock]), idle]
    dsimp only
    rw [next]
    refine ⟨rfl, setJob_length .., fun x mem ring idx => ?_⟩
    rw [setJob_named mem ring idx]
  case bulk =>
    refine ⟨_, rfl, ?_⟩
    rw [if_neg (by simp [free, started, clock]), idle]
    dsimp only
    rw [none]
    dsimp only
    rw [if_pos few, next]
    intro x mem ring idx
    rw [setJob_named mem ring idx]
  case drawn =>
    refine ⟨_, rfl, ?_⟩
    rw [first]
    dsimp only
    have passes : checkJob s j = 0 := valid
    rw [if_neg (by simp [early]), if_neg (not_not.mpr passes), if_pos delivering]
    refine ⟨rfl, fun x mem ring idx => ?_⟩
    rw [setJob_named mem ring idx]
    exact ⟨rfl, rfl⟩
  case yields =>
    refine congrArg Host.Outcome.next ?_
    rw [on]
    dsimp only
    rw [if_neg (by simp [class_]), if_neg (by simp [going]), if_pos ⟨waits, by rw [busy]; rfl⟩]
  case ends =>
    obtain ⟨out, result, body, done⟩ := execPkeJobDone_ends (pe := pe) (wo := wo) (n := n) clock on
      (fun both => by simp [going] at both) (fun both => ran both.1)
    exact ⟨_, done, ended_gone ..⟩
  case faults =>
    obtain ⟨out, result, body, done⟩ := execPkeJobDone_ends (pe := true) (wo := wo) (n := n) clock on
      (fun both => by simp at both) (fun both => by simp at both)
    exact ⟨_, done, ended_faulted ..⟩
  case random =>
    refine ⟨_, rfl, ?_⟩
    have ready : s.ent.ready = true := (Bool.and_eq_true_iff.mp delivering).1
    rw [waits]
    dsimp only
    rw [if_neg (not_not.mpr valid), if_neg (by simp [ready]), if_neg (by simp [delivering]), if_pos rfl]
    refine ⟨?_, ?_⟩
    · rw [complete_ent, countJob_ent, hostWrite_ent]
      rfl
    · exact (dropJob_gone s j).of_pke ((complete_pke ..).trans ((countJob_pke ..).trans (pmcSignal_pke ..)))
  case expired =>
    refine ⟨_, rfl, ?_⟩
    rw [oldest]
    dsimp only
    rw [if_neg (by simp [stopped])]
    exact ⟨randomNotReady_counted (dropJob s j) .., (dropJob_gone s j).of_pke (randomNotReady_pke ..)⟩
  case unknown =>
    refine congrArg Host.Outcome.next ?_
    rw [on]
    dsimp only
    rw [if_pos ⟨fresh, .inl size⟩]

end Sys2Proof.Machine
end

section
/-! SUPPORT. O35 and O36: core tests and aborts (R339, R345), and the entropy source (R350 to R356). -/

namespace Sys2Proof.Machine

variable {s t u : State}

/-! ## Core tests -/

/-- The core `c` as the request for a test of the cores `m` leaves it. -/
def coreRetested (s : State) (m : BitVec 12) (c : Nat) : Core :=
  if m.getLsbD c = true ∧ (jobOn s c).isNone = true then { coreOf s c with testing := true } else coreOf s c

/-- One core is tested where the request names it. -/
def coreRetest (m : BitVec 12) (s : State) (c : Nat) : State :=
  if m.getLsbD c = true ∧ (jobOn s c).isNone = true then setCore s c { coreOf s c with testing := true } else s

theorem coreRetest_jobs (m : BitVec 12) (s : State) (c : Nat) : (coreRetest m s c).pke.jobs = s.pke.jobs := by
  unfold coreRetest
  split <;> rfl

theorem coreOf_coreRetest_same (m : BitVec 12) (s : State) (c : Nat) :
    coreOf (coreRetest m s c) c = coreRetested s m c := by
  unfold coreRetest coreRetested
  split
  · rw [coreOf_setCore]
  · rfl

theorem coreOf_coreRetest_ne (m : BitVec 12) (s : State) {c k : Nat} (other : k ≠ c) :
    coreOf (coreRetest m s c) k = coreOf s k := by
  unfold coreRetest
  split
  · rw [coreOf_setCore_ne _ _ other]
  · rfl

theorem coreRetested_of_same (m : BitVec 12) {c : Nat} (core : coreOf t c = coreOf s c) (jobs : t.pke.jobs = s.pke.jobs) :
    coreRetested t m c = coreRetested s m c := by
  have on : jobOn t c = jobOn s c := by rw [jobOn, jobs, ← jobOn]
  rw [coreRetested, coreRetested, core, on]

/-- The cores below `n` have been seen to; those from it on are as they were. -/
theorem coreOf_coreRetests (m : BitVec 12) (s : State) (n c : Nat) :
    coreOf ((List.range n).foldl (coreRetest m) s) c = (if c < n then coreRetested s m c else coreOf s c) ∧
    ((List.range n).foldl (coreRetest m) s).pke.jobs = s.pke.jobs := by
  induction n with
  | zero => exact ⟨rfl, rfl⟩
  | succ n ih =>
    obtain ⟨core, jobs⟩ := ih
    rw [List.range_succ, List.foldl_append, List.foldl_cons, List.foldl_nil]
    refine ⟨?_, (coreRetest_jobs ..).trans jobs⟩
    rcases Nat.lt_trichotomy c n with below | rfl | above
    · rw [coreOf_coreRetest_ne m _ (by omega), core, if_pos below, if_pos (by omega)]
    · rw [if_neg (Nat.lt_irrefl c)] at core
      rw [coreOf_coreRetest_same, coreRetested_of_same m core jobs, if_pos (by omega)]
    · rw [coreOf_coreRetest_ne m _ (by omega), core, if_neg (by omega), if_neg (by omega)]

/-! ## Aborts -/

/-- A job that an abort leaves on its ring: it runs, or is a key command that has started. -/
def Survives (x : PkeJob) : Prop := isRunning x = true ∨ (isKeyOp (pkeOp x.desc) = true ∧ hasStarted x = true)

theorem abortJob_pke (s : State) (j : PkeJob) : (abortJob s j).pke = (dropJob s j).pke :=
  (complete_pke ..).trans (bump_pke ..)

/-- One job's abort leaves each other job as it was, or makes it one that survives. -/
theorem abortOne_jobs (s : State) (j : PkeJob) {x : PkeJob} (mem : x ∈ (abortOne s j).pke.jobs) :
    Survives x ∨ (x ∈ s.pke.jobs ∧ x ≠ j) := by
  unfold abortOne at mem
  split at mem
  · next keeps =>
    by_cases same : x = j
    · exact .inl (same ▸ .inr (Bool.and_eq_true_iff.mp keeps))
    · exact .inr ⟨mem, same⟩
  · split at mem
    · next running =>
      obtain ⟨y, there, eq⟩ := List.mem_map.mp mem
      split at eq
      · exact .inl (.inl (eq ▸ running))
      · next other =>
        refine .inr ⟨eq ▸ there, ?_⟩
        rintro rfl
        exact other ⟨by rw [eq], by rw [eq]⟩
    · rw [abortJob_pke] at mem
      refine .inr ⟨List.mem_of_mem_filter mem, ?_⟩
      rintro rfl
      exact dropJob_gone s x x mem ⟨rfl, rfl⟩

theorem aborts_jobs (js : List PkeJob) (s : State) {r : Nat}
    (ring : ∀ x ∈ s.pke.jobs, x.ring = r → Survives x ∨ x ∈ js) :
    ∀ x ∈ (js.foldl abortOne s).pke.jobs, x.ring = r → Survives x := by
  induction js generalizing s with
  | nil => exact fun x mem here => (ring x mem here).resolve_right List.not_mem_nil
  | cons j js ih =>
    refine ih (abortOne s j) fun x mem here => ?_
    rcases abortOne_jobs s j mem with survives | ⟨there, other⟩
    · exact .inl survives
    · exact (ring x there here).imp_right fun h => (List.mem_cons.mp h).resolve_left other

/-- Settles O35: each named core is tested on its own, and an abort goes through its ring's jobs one by one. -/
theorem coreTestsAndAbortsAreExact : Obligations.CoreTestsAndAbortsAreExact := by
  unfold Obligations.CoreTestsAndAbortsAreExact
  refine ⟨fun s m k known => ?retest, fun s c pass testing => ?done, fun s r => ?abort⟩
  case retest =>
    refine ⟨_, rfl, ?_⟩
    have core := (coreOf_coreRetests m s 12 k).1
    rw [if_pos known] at core
    exact core
  case done =>
    refine ⟨_, rfl, ?_⟩
    rw [if_pos testing]
    extract_lets s1 s2
    have set : coreOf s1 c = { faulty := !pass, testing := false } := coreOf_setCore ..
    have same {t : State} (pke : t.pke = s1.pke) : coreOf t c = { faulty := !pass, testing := false } := by
      rw [coreOf, pke, ← coreOf, set]
    beta_reduce
    split
    · split
      · exact same (raiseN_pke ..)
      · exact same ((alarmClear_pke ..).trans (raiseN_pke ..))
    · exact set
  case abort =>
    refine ⟨_, rfl, fun x mem ring => ?_⟩
    rw [abortDone_pke] at mem
    refine aborts_jobs _ s (r := 128 + r.val) (fun x mem here => .inr ?_) x mem ring
    exact List.mem_filter.mpr ⟨mem, decide_eq_true here⟩

/-! ## Entropy -/

theorem notePool_pool (s : State) : (notePool s).nts.pool = s.nts.pool := by
  unfold notePool
  extract_lets e src s1
  split
  · rfl
  · split
    · rw [raiseN_nts]
    · rfl

theorem notePool_stat (s : State) : (notePool s).stat = s.stat := by
  unfold notePool
  extract_lets e src s1
  split
  · rfl
  · split
    · rw [raiseN_stat]
    · rfl

theorem fillPool_pool (s : State) : (fillPool s).nts.pool = 65536 := notePool_pool _

theorem fillPool_ent (s : State) : (fillPool s).ent = (takeDrbg s (16 * (65536 - s.nts.pool))).ent := notePool_ent _

theorem fillPool_stat (s : State) : (fillPool s).stat = s.stat := notePool_stat _

/-- The generate requests that fill the pool are few beside what is counted. -/
theorem fillPool_reqs (fresh : s.ent.reqs = 0) :
    (fillPool s).ent.reqs = ceilDiv (16 * (65536 - s.nts.pool)) 8192 := by
  have few : ceilDiv (16 * (65536 - s.nts.pool)) 8192 ≤ 2 ^ 21 - 1 := by
    unfold ceilDiv
    omega
  rw [fillPool_ent]
  show min (2 ^ 21 - 1) (s.ent.reqs + _) = _
  rw [fresh, Nat.zero_add, Nat.min_eq_right few]

theorem refreshServing_pool (s : State) : (refreshServing s).nts.pool = s.nts.pool := by
  obtain ⟨b, eq⟩ := refreshServing_nts s
  rw [eq]

theorem noteStep_ent (s : State) (n : Nat) : (noteStep s n).ent = s.ent :=
  ((within_noteStep (ps := [.glb]) (by decide) n).2 .refl) .ent (by decide)

theorem noteStep_nts (s : State) (n : Nat) : (noteStep s n).nts = s.nts :=
  ((within_noteStep (ps := [.glb]) (by decide) n).2 .refl) .nts (by decide)

theorem execEntReady_ready (started : s.ent.started = true) (waits : s.ent.ready = false) (kat : s.ent.katFail = false)
    (able : cannotReseed s = false) :
    Gives .entReady s fun t =>
      t.ent.ready = true ∧ t.ent.reqs = ceilDiv (16 * (65536 - s.nts.pool)) 8192 ∧ t.nts.pool = 65536 := by
  refine ⟨_, rfl, ?_⟩
  rw [if_neg (by simp [started, waits, kat]), if_neg (by simp [able])]
  extract_lets src s1 s2
  have ent : s2.ent = (fillPool s1).ent := (alarmClear_ent ..).trans (raiseN_ent ..)
  have pool : s2.nts.pool = 65536 :=
    (congrArg Nts.pool ((alarmClear_nts ..).trans (raiseN_nts ..))).trans (fillPool_pool s1)
  beta_reduce
  rw [refreshServing_ent, refreshServing_pool, noteStep_ent, noteStep_nts, ent, pool, fillPool_reqs rfl, fillPool_ent]
  exact ⟨rfl, rfl, rfl⟩

/-- The counters of a failed source stand apart from its mark and from one another. -/
theorem sourceFail_kept (s : State) (x : Fin 4) {rct apt : Bool} (failed : rct = true ∨ apt = true) :
    (sourceFail s x rct apt).ent.failing.getLsbD x = true ∧
    (rct = true → Counted s (sourceFail s x rct apt) (0x1000100 + 8 * x.val) 1) ∧
    (apt = true → Counted s (sourceFail s x rct apt) (0x1000104 + 8 * x.val) 1) := by
  have plain {a : Nat} (ha : a = 0x1000100 + 8 * x.val ∨ a = 0x1000104 + 8 * x.val) : eventReg a = false := by
    unfold eventReg
    simp only [Bool.or_eq_false_iff, decide_eq_false_iff_not]
    omega
  unfold sourceFail
  rw [if_neg (by rcases failed with h | h <;> simp [h])]
  extract_lets src s1 s2 s3 s4
  have rest : s3.ent = s1.ent := by
    unfold s3
    split
    · exact bump_ent ..
    · rfl
  have ent : s4.ent = s1.ent := by
    unfold s4
    split
    · exact (bump_ent ..).trans rest
    · exact rest
  refine ⟨?_, fun hr => ?_, fun ha => ?_⟩
  · rw [raiseN_ent, ent]
    fin_cases x <;> simp [s1, setEnt]
  · have first : Counted s s3 (0x1000100 + 8 * x.val) 1 := by
      unfold s3
      rw [if_pos hr]
      exact (bump_counted s2 1 (by omega)).of_rd (rd_orReg_ne s1 _ (by omega))
    have second : Counted s s4 (0x1000100 + 8 * x.val) 1 := by
      unfold s4
      split
      · rw [Counted, rd_bump_ne _ _ (by omega) (by omega)]
        exact first
      · exact first
    exact second.raiseN _ _ _ (plain (.inl rfl))
  · have before : rd s3 (0x1000104 + 8 * x.val) = rd s (0x1000104 + 8 * x.val) := by
      have marked : rd s2 (0x1000104 + 8 * x.val) = rd s (0x1000104 + 8 * x.val) := rd_orReg_ne s1 _ (by omega)
      unfold s3
      split
      · rw [rd_bump_ne _ _ (by omega) (by omega), marked]
      · exact marked
    have counted : Counted s s4 (0x1000104 + 8 * x.val) 1 := by
      unfold s4
      rw [if_pos ha]
      exact (bump_counted s3 1 (by omega)).of_rd before
    exact counted.raiseN _ _ _ (plain (.inr rfl))

theorem execEntSourceRecover_good (s : State) (x : Fin 4) :
    Gives (.entSourceRecover x) s fun t => t.ent.failing.getLsbD x = false := by
  refine ⟨_, rfl, ?_⟩
  split
  · next good => exact good
  · extract_lets src s1 s2 s3 src2
    have cleared : s1.ent.failing.getLsbD x = false := by fin_cases x <;> simp [s1, setEnt]
    have ent : s3.ent = s1.ent := by
      unfold s3
      split
      · exact (alarmClear_ent ..).trans (raiseN_ent ..)
      · exact raiseN_ent ..
    split
    · show s3.ent.failing.getLsbD x = false
      rw [ent, cleared]
    · rw [ent, cleared]

/-- A reseed that may not run leaves the old state serving, and is counted (R354). -/
theorem reseed_refused (unable : cannotReseed s = true) :
    (reseed s).ent.servingOld = true ∧ Counted s (reseed s) 0x1000148 1 := by
  unfold reseed
  rw [if_pos unable]
  extract_lets first src s1
  have counted : Counted s s1 0x1000148 1 := bump_counted _ 1 (by decide)
  have old : s1.ent.servingOld = true := (congrArg Ent.servingOld (bump_ent ..) :)
  split
  · exact ⟨(congrArg Ent.servingOld (raiseN_ent ..)).trans old, counted.raiseN _ _ _ (by decide)⟩
  · exact ⟨old, counted⟩

theorem reseed_starts (able : cannotReseed s = false) : reseed s = setEnt s { s.ent with reseeding := true } :=
  if_neg (by simp [able])

theorem execEntReseedDone_done (reseeding : s.ent.reseeding = true) :
    Gives .entReseedDone s fun t =>
      t.ent.reseeding = false ∧ t.ent.blocked = false ∧ t.ent.servingOld = false ∧
      t.ent.reqs = ceilDiv (16 * (65536 - s.nts.pool)) 8192 ∧
      t.nts.pool = 65536 ∧ statGet t 0x1000140 = statGet s 0x1000140 + 1 := by
  refine ⟨_, rfl, ?_⟩
  rw [if_pos reseeding]
  extract_lets old src s1 s2 s3
  have quiet : Quiet s2 s3 := by
    unfold s3
    split
    · exact (raiseN_quiet ..).trans (alarmClear_quiet ..)
    · exact .refl _
  have reqs : (fillPool s3).ent.reqs = ceilDiv (16 * (65536 - s.nts.pool)) 8192 := by
    rw [fillPool_reqs (by rw [quiet.ent]; rfl), quiet.nts]
    rfl
  have ent : (fillPool s3).ent.reseeding = false ∧ (fillPool s3).ent.blocked = false ∧
      (fillPool s3).ent.servingOld = false := by
    rw [fillPool_ent]
    show s3.ent.reseeding = false ∧ s3.ent.blocked = false ∧ s3.ent.servingOld = false
    rw [quiet.ent]
    exact ⟨rfl, rfl, rfl⟩
  obtain ⟨ended, free, fresh⟩ := ent
  beta_reduce
  rw [refreshServing_ent, refreshServing_pool, fillPool_pool]
  refine ⟨ended, free, fresh, reqs, rfl, ?_⟩
  rw [statGet, refreshServing_within _ .stat (by decide), fillPool_stat, quiet.stat, ← statGet, statGet_statInc]
  rfl

/-- Settles O36: readiness, failed and recovered sources, and reseeds that run, are refused or end. -/
theorem entropyTakesEffect : Obligations.EntropyTakesEffect := by
  unfold Obligations.EntropyTakesEffect
  refine ⟨fun s started waits kat able => execEntReady_ready started waits kat able,
    fun s x rct apt failed => ⟨_, rfl, sourceFail_kept s x failed⟩, execEntSourceRecover_good,
    fun s ready rests due able => ?due, fun s ready rests due unable => ?refused, fun s early => ?early,
    fun s ready able => ?now, fun s reseeding => execEntReseedDone_done reseeding, fun s old free aged => ?blocked⟩
  case due =>
    refine ⟨_, rfl, ?_⟩
    rw [if_pos ⟨ready, rests, due⟩, reseed_starts able]
    rfl
  case refused =>
    refine ⟨_, rfl, ?_⟩
    rw [if_pos ⟨ready, rests, due⟩]
    exact reseed_refused unable
  case early =>
    refine congrArg Host.Outcome.next (if_neg ?_)
    simp [early]
  case now =>
    refine ⟨_, rfl, ?_⟩
    rw [if_pos ready, reseed_starts (s := setEnt s { s.ent with reseedNow := true }) able]
    exact ⟨rfl, rfl⟩
  case blocked =>
    refine ⟨_, rfl, ?_⟩
    rw [if_pos ⟨old, free, aged⟩]
    beta_reduce
    rw [(noteDrawWaits_noted _).within .ent (by decide), raiseN_ent]
    exact ⟨rfl, rfl⟩

end Sys2Proof.Machine
end

section
/-! SUPPORT. The outputs beside the host's completions: no event and no completion takes a frame, a message, a transfer
or a host access off the outputs, nor adds one (R308, R325, R479). -/

namespace Sys2Proof.Machine

variable {s t u : State}

/-- Completions and MSI-X messages: what events and completed descriptors put out. -/
def Out.atRing : Out → Bool
  | .completion .. => true
  | .msix .. => true
  | _ => false

/-- The outputs of the device but for those of completions. -/
def told (s : State) : List Out := s.out.filter fun o => !o.atRing

theorem told_of_out (h : t.out = s.out) : told t = told s := congrArg (List.filter _) h

theorem mem_out_of_told {o : Out} (h : o ∈ told s) : o ∈ s.out := List.mem_of_mem_filter h

theorem told_emit (s : State) {o : Out} (h : o.atRing = false) : told (emit s o) = o :: told s :=
  List.filter_cons_of_pos (by rw [h]; rfl)

theorem told_emit_atRing (s : State) {o : Out} (h : o.atRing = true) : told (emit s o) = told s :=
  List.filter_cons_of_neg (by rw [h]; exact Bool.false_ne_true)

@[simp] theorem told_ite {c : Prop} [Decidable c] : told (if c then t else u) = if c then told t else told u :=
  apply_ite ..

theorem told_foldl {α : Type} {f : State → α → State} (step : ∀ s a, told (f s a) = told s) (l : List α) (s : State) :
    told (l.foldl f s) = told s := by
  induction l generalizing s with
  | nil => rfl
  | cons a l ih => rw [List.foldl_cons, ih, step]

@[simp] theorem told_bump (s : State) (a n : Nat) : told (bump s a n) = told s := by
  rw [bump_regs]
  rfl

@[simp] theorem told_alarmClear (s : State) (id : Nat) : told (alarmClear s id) = told s := by
  rw [alarmClear_evt]
  rfl

theorem told_pmcAddAll (n : Nat) (ks : List Nat) (s : State) : told (pmcAddAll n ks s).1 = told s := by
  induction ks generalizing s with
  | nil => rfl
  | cons k ks ih => exact ih _

/-! ## Vectors and completions -/

@[simp] theorem told_vecFire (s : State) (v : Nat) : told (vecFire s v) = told s := by
  unfold vecFire
  dsimp only
  split
  · rfl
  · exact told_emit_atRing _ rfl

@[simp] theorem told_vecRaise (s : State) (v n : Nat) : told (vecRaise s v n) = told s := by
  unfold vecRaise
  extract_lets x x1 s1 m
  rw [told_ite, told_vecFire]
  exact ite_self _

@[simp] theorem told_writeCompl (s : State) (r idx status : Nat) (body : Bytes) :
    told (writeCompl s r idx status body) = told s := by
  unfold writeCompl noteCompl
  extract_lets g size lastSlot s1
  rw [told_ite, told_vecRaise, ite_self, told_emit_atRing _ rfl]
  exact told_pmcAddAll ..

@[simp] theorem told_flushCompl (n r : Nat) (s : State) : told (flushCompl n s r) = told s := by
  induction n generalizing s with
  | zero => rfl
  | succ n ih =>
    unfold flushCompl
    dsimp only
    split
    · split
      · rfl
      · rw [ih, told_writeCompl]
        rfl
    · rfl

@[simp] theorem told_complete (s : State) (r idx status : Nat) (body : Bytes) :
    told (complete s r idx status body) = told s := by
  unfold complete
  dsimp only
  rw [told_ite, told_flushCompl]
  exact ite_self _

@[simp] theorem told_writeRecord (s : State) (r : Nat) (body : Bytes) : told (writeRecord s r body) = told s := by
  unfold writeRecord
  dsimp only
  rw [told_ite, told_ite, told_writeCompl, told_bump, ite_self, ite_self]

/-! ## Events -/

theorem told_writeEvent (s : State) (r typ id sev part parts stamp : Nat) (p : Bytes) :
    told (writeEvent s r typ id sev part parts stamp p) = told s := by
  unfold writeEvent
  dsimp only
  rw [told_writeCompl, told_ite]
  exact ite_self _

theorem told_writeParts (r typ id sev parts stamp n : Nat) (s : State) (p : Bytes) :
    told (writeParts r typ id sev parts stamp n s p) = told s := by
  induction n generalizing s p with
  | zero => rfl
  | succ n ih => rw [writeParts, ih, told_writeEvent]

/-- Other bodies for completions leave the other outputs as they are. -/
theorem filter_putBodies (r : Nat) (bs : List Bytes) (os : List Out) :
    (putBodies r bs os).filter (fun o => !o.atRing) = os.filter fun o => !o.atRing := by
  fun_induction putBodies r bs os with
  | case1 os => rfl
  | case2 bs => rfl
  | case3 b bs i st ph c t rest ih => exact ih
  | case4 b bs q i st ph c t rest other ih => exact ih
  | case5 bs o rest _ _ ih => rw [List.filter_cons, List.filter_cons, ih]

theorem told_tickOrder (s : State) (r parts : Nat) : told (tickOrder s r parts) = told s := by
  unfold tickOrder
  dsimp -zeta only
  extract_lets m s1 new l
  split
  · rfl
  · exact filter_putBodies ..

theorem told_writeTogether (s : State) (r typ id sev parts stamp : Nat) (p : Bytes) :
    told (writeTogether s r typ id sev parts stamp p) = told s := by
  unfold writeTogether
  dsimp only
  rw [told_ite, told_tickOrder, ite_self, told_writeParts]

@[simp] theorem told_flushPend (n r : Nat) (s : State) : told (flushPend n s r) = told s := by
  induction n generalizing s with
  | zero => rfl
  | succ n ih =>
    unfold flushPend
    split
    · split
      · rfl
      · rw [ih, told_writeEvent]
        rfl
    · rfl

theorem told_deliver (s : State) (typ id sev stamp : Nat) (p : Bytes) :
    told (deliver s typ id sev stamp p).s = told s := by
  unfold deliver
  dsimp only
  repeat' split
  · exact told_bump ..
  · rw [told_bump]
    exact told_flushPend ..
  · exact told_flushPend ..
  · rw [told_writeTogether, told_flushPend]
  · exact told_flushPend ..
  · rw [told_writeTogether, told_flushPend]

theorem told_alarmRaise (s : State) (id inst sev : Nat) : told (alarmRaise s id inst sev) = told s := by
  unfold alarmRaise
  dsimp only
  repeat' split
  all_goals rfl

theorem told_raiseFuel (n : Nat) (s : State) (id inst sev : Nat) (p : Bytes) :
    told (raiseFuel n s id inst sev p) = told s := by
  induction n generalizing s id inst sev p with
  | zero => rfl
  | succ n ih =>
    have counted := told_pmcAddAll 1 (pmcCounting s id 31) s
    unfold raiseFuel
    rcases hp : pmcAddAll 1 (pmcCounting s id 31) s with ⟨s1, ovfs⟩
    rw [hp] at counted
    dsimp -zeta only
    extract_lets s2 y s3 d s4
    have alarmed : told s3 = told s := by
      show told s2 = told s
      rw [told_ite, told_alarmRaise, ite_self, counted]
    have delivered : told d.s = told s := by
      show told (Delivery.s (if y.summary then _ else _)) = told s
      split
      · exact alarmed
      · rw [told_deliver, alarmed]
    rw [told_foldl fun t _ => ih t ..]
    show told (if d.startsCoalescing then _ else _) = told s
    rw [told_ite, ih, ite_self, delivered]

@[simp] theorem told_raiseSev (s : State) (id inst sev : Nat) (p : Bytes) :
    told (raiseSev s id inst sev p) = told s := told_raiseFuel 4 s id inst sev p

@[simp] theorem told_raiseN (s : State) (id inst : Nat) (ns : List Nat) : told (raiseN s id inst ns) = told s :=
  told_raiseSev ..

@[simp] theorem told_raiseLim (s : State) (id inst lim : Nat) (ns : List Nat) :
    told (raiseLim s id inst lim ns) = told s := by
  unfold raiseLim
  extract_lets k prev
  rw [told_ite, told_raiseN]
  exact ite_self _

@[simp] theorem told_pmcSignal (s : State) (sig qual n : Nat) : told (pmcSignal s sig qual n) = told s := by
  have counted := told_pmcAddAll n (pmcCounting s sig qual) s
  unfold pmcSignal
  rcases hp : pmcAddAll n (pmcCounting s sig qual) s with ⟨s1, ovfs⟩
  rw [hp] at counted
  exact (told_foldl (fun t _ => told_raiseN t ..) ovfs s1).trans counted

@[simp] theorem told_dmaError (s : State) (r : Nat) : told (dmaError s r) = told s :=
  (told_raiseLim ..).trans (told_bump ..)

/-- A write to host memory is put out. -/
theorem told_hostWrite (s : State) (r idx addr : Nat) (b : Bytes) :
    ∃ tlps, told (hostWrite s r idx addr b) = .hostWrite r idx tlps b :: told s :=
  ⟨_, (told_pmcSignal ..).trans (told_emit _ rfl)⟩

end Sys2Proof.Machine
end

section
/-! SUPPORT. O37: the commands of the Loam ring that commit, read and end (R373 to R375, R389, R398, R399). -/

namespace Sys2Proof.Machine

variable {s t u : State}

/-! ## The descriptor in front -/

/-- A command of the host takes the descriptor in front of its ring. -/
theorem LoamCmd.runs {r op : Nat} {x : Fetched} (h : LoamCmd s r x op) {ok : Nat → Bool} (known : ok op = true)
    (f : Fetched → State) : loamCommand s r ok f = f x := by
  obtain ⟨front, loamRing, free, clean, code⟩ := h
  obtain ⟨rest, fetched⟩ := List.head?_eq_some_iff.mp front
  unfold loamCommand
  rw [fetched]
  dsimp only
  rw [if_neg (by simp [loamRing, free]), if_neg (by simp [clean]), code, if_pos known]

/-- The rings of Loam hold no events. -/
theorem LoamCmd.beside {r op : Nat} {x : Fetched} (h : LoamCmd s r x op) : ¬EventRing r := by
  obtain ⟨-, loamRing, -⟩ := h
  obtain ⟨low, high⟩ := of_decide_eq_true loamRing
  omega

theorem loamEnd_completed {r : Nat} (beside : ¬EventRing r) (running : (ringOf s r).st = .running) (x : Fetched)
    (result : Nat) : Completed s (loamEnd s r x result) r x.idx :=
  complete_completed beside running ..

/-! ## Commits of the host -/

/-- A commit whose class has room and a token is queued, whoever has paid the token. -/
theorem requestCommit_queued {c : Commit} (fits : CommitFits s c.cls) (pays : Bool) :
    ∃ tokens, requestCommit s c pays
      = ({ s with loam := { s.loam with tokens := tokens, queue := s.loam.queue ++ [c] } }, none) := by
  cases pays with
  | true => exact requestCommit_fits fits
  | false =>
    obtain ⟨powered, space, -⟩ := fits
    exact ⟨s.loam.tokens, by simp [requestCommit, powered, space]⟩

/-- What a host's commit holds. -/
def hostRequest (r : Nat) (x : Fetched) (cls : Nat) (segs : List Nat) (p : Option Payload) : Commit :=
  { by_ := .host r x.idx (loamTag x.desc) (loamOp x.desc), cls := cls, segs := segs, payload := p }

theorem hostCommit_queue {cls : Nat} (fits : CommitFits s cls) (r : Nat) (x : Fetched) (segs : List Nat)
    (p : Option Payload) :
    (hostCommit s r x cls segs p).loam.queue = s.loam.queue ++ [hostRequest r x cls segs p] := by
  obtain ⟨tokens, queued⟩ := requestCommit_queued (c := hostRequest r x cls segs p) fits (!x.token)
  unfold hostCommit
  dsimp only
  rw [← hostRequest, queued]
  rfl

/-! ## The clauses -/

theorem loamCommit_queues {r : Fin 256} {x : Fetched} (cmd : LoamCmd s r x 0x01)
    (cls : loamCls x.desc = clsCfg ∨ loamCls x.desc = clsTime) (fits : CommitFits s (loamCls x.desc)) :
    Gives (.loamCommit r) s fun t => t.loam.queue = s.loam.queue ++
      [{ by_ := .host r x.idx (loamTag x.desc) 0x01, cls := loamCls x.desc,
         segs := List.range (segCount (loamCls x.desc)), payload := none }] := by
  obtain ⟨-, -, -, -, code⟩ := id cmd
  refine ⟨_, rfl, ?_⟩
  rw [cmd.runs rfl]
  dsimp only
  rw [if_pos cls, hostCommit_queue fits, hostRequest, code]

theorem loamRead_writes {r : Fin 256} {x : Fetched} {p : Payload} {c : Copy} (cmd : LoamCmd s r x 0x02)
    (peace : s.nts.conflict = false) (held : recOf s (loamCls x.desc) (loamSeg x.desc) = some p)
    (used : copyInUse s (loamCls x.desc) (loamSeg x.desc) = some c)
    (room : (copyHeader c ++ payloadBytes c.payload).length ≤ loamLen x.desc) (running : (ringOf s r).st = .running) :
    Gives (.loamRead r true) s fun t =>
      (∃ tl, .hostWrite r x.idx tl (copyHeader c ++ payloadBytes c.payload) ∈ t.out) ∧ Completed s t r x.idx := by
  refine ⟨_, rfl, ?_⟩
  rw [cmd.runs rfl]
  dsimp only
  rw [if_neg (by simp [peace]), held, used]
  dsimp only
  rw [if_neg (Nat.not_lt.mpr room), if_pos rfl]
  have same := rings_hostWrite s r x.idx (descAddr x.desc 0) (copyHeader c ++ payloadBytes c.payload)
  constructor
  · obtain ⟨tlps, told⟩ := told_hostWrite s r x.idx (descAddr x.desc 0) (copyHeader c ++ payloadBytes c.payload)
    exact ⟨tlps, mem_out_of_told (by rw [told_complete, told]; exact List.mem_cons_self)⟩
  · exact .of_rings cmd.beside same
      (complete_completed cmd.beside ((ring_st_of_rings same cmd.beside).trans running) ..)

theorem csigSet_queues {r : Fin 256} {x : Fetched} (k : Bytes) (cmd : LoamCmd s r x 0x20) (unset : s.loam.csig = none)
    (len : loamLen x.desc = 32) (fits : CommitFits s clsKeys) :
    Gives (.csigSet r (some k)) s fun t =>
      t.loam.queue.length = s.loam.queue.length + 1 ∧
      ∃ c ∈ t.loam.queue, ∃ sl, c.cls = clsKeys ∧ c.payload = some (.keys sl (some (subPad k 0 32))) := by
  refine ⟨_, rfl, ?_⟩
  rw [cmd.runs rfl]
  dsimp only
  rw [if_neg (by simp [unset]), if_neg (not_not.mpr len)]
  have fits' : CommitFits (hostRead s r x.idx (descAddr x.desc 0) 32) clsKeys :=
    fits.congr (pmcSignal_loam ..) (congrArg Tb.ticks (pmcSignal_tb ..)) (congrArg Glb.deferred (pmcSignal_glb ..))
  have loam : (hostRead s r x.idx (descAddr x.desc 0) 32).loam = s.loam := pmcSignal_loam ..
  rw [hostCommit_queue fits', loam]
  exact ⟨List.length_append, _, List.mem_append_right _ (List.mem_singleton_self _), [], rfl, rfl⟩

theorem wipe_queues {r : Fin 256} {x : Fetched} (cmd : LoamCmd s r x 0x30) (fits : CommitFits s clsKeys) :
    Gives (.wipe r) s fun t => t.loam.queue = s.loam.queue ++
      [{ by_ := .host r x.idx (loamTag x.desc) 0x30, cls := clsKeys, segs := [0],
         payload := some (.keys [] s.loam.csig) }] := by
  obtain ⟨-, -, -, -, code⟩ := id cmd
  refine ⟨_, rfl, ?_⟩
  rw [cmd.runs rfl]
  dsimp only
  rw [hostCommit_queue fits, hostRequest, code]

/-- Settles O37: each command takes the descriptor in front of its ring. -/
theorem loamCommandsTakeEffect : Obligations.LoamCommandsTakeEffect := by
  refine ⟨fun s r x cmd cls fits => loamCommit_queues cmd cls fits,
    fun s r x p c cmd peace held used room running => loamRead_writes cmd peace held used room running,
    fun s r x k cmd unset len fits => csigSet_queues k cmd unset len fits,
    fun s r x cmd fits => wipe_queues cmd fits, fun s r x op cmd unknown running => ⟨_, rfl, ?_⟩⟩
  rw [cmd.runs (by rw [unknown]; rfl)]
  exact ⟨loamEnd_completed cmd.beside running x 1, complete_loam ..⟩

end Sys2Proof.Machine
end

section
/-! SUPPORT. O38: firmware slots and their trial (R388 to R396, R398, R497). -/

namespace Sys2Proof.Machine

variable {s t u : State}

/-! ## Slots -/

theorem slotState_congr (h : t.loam = s.loam) (k : Nat) : slotState t k = slotState s k := by
  unfold slotState
  rw [h]

@[simp] theorem slotState_setSlotState (s : State) (k : Nat) (st : FwState) : slotState (setSlotState s k st) k = st := by
  unfold slotState setSlotState
  split <;> rfl

theorem setSlotState_loam (s : State) (k : Nat) (st : FwState) :
    ∃ a b, (setSlotState s k st).loam = { s.loam with slot0 := a, slot1 := b } := by
  unfold setSlotState
  split
  · exact ⟨st, s.loam.slot1, rfl⟩
  · exact ⟨s.loam.slot0, st, rfl⟩

/-- Where power holds and space is left, a slot takes its new state. -/
theorem fwSlotTo_slotState (powered : powerFailing s = false) (space : noSpace s clsFwmeta = false) (r : Nat)
    (x : Fetched) (k : Nat) (st : FwState) (result : Nat) (f : State → State) :
    slotState (fwSlotTo s r x k st result f) k = st := by
  have queued : (fwmetaCommit s).2 = none := by simp [fwmetaCommit, requestCommit, powered, space]
  have pair := Prod.mk.eta (p := fwmetaCommit s)
  rw [queued] at pair
  unfold fwSlotTo
  rw [← pair]
  dsimp only
  exact (slotState_congr (complete_loam ..) k).trans (slotState_setSlotState ..)

/-! ## Writing and activating -/

theorem fwWrite_flash {r : Fin 256} {x : Fetched} (b : Bytes) (cmd : LoamCmd s r x 0x10)
    (other : fwSlot x ≠ s.loam.runSlot) (empty : slotState s (fwSlot x) = .empty)
    (inside : loamOffset x.desc + loamLen x.desc ≤ 0x800000) :
    Gives (.fwWrite r (some b)) s fun t => t.loam.flash =
      (writeFlash s (fwSlot x * 0x800000 + loamOffset x.desc) (subPad b 0 (loamLen x.desc))).loam.flash := by
  have loam : (hostRead s r x.idx (descAddr x.desc 0) (loamLen x.desc)).loam = s.loam := pmcSignal_loam ..
  refine ⟨_, rfl, ?_⟩
  rw [cmd.runs rfl]
  dsimp only
  rw [if_neg other, if_neg (by simp [empty]), if_neg (by omega), if_pos empty]
  refine (congrArg Loam.flash (complete_loam ..)).trans ?_
  simp only [apply_ite State.loam, apply_ite Loam.flash, setLoam, writeFlash, ite_self, loam]

theorem fwActivate_slotState {r : Fin 256} {x : Fetched} {im : ImageCheck} (cmd : LoamCmd s r x 0x11)
    (peace : s.nts.conflict = false) (other : fwSlot x ≠ s.loam.runSlot) (noTrial : trialRunning s = false)
    (powered : powerFailing s = false) (space : noSpace s clsFwmeta = false)
    (open_ : slotState s (fwSlot x) = .empty ∨ slotState s (fwSlot x) = .valid) :
    Gives (.fwActivate r im) s fun t => slotState t (fwSlot x) =
      if imageAccepted s.loam.csig im = false then .rejected
      else if slotState s (fwSlot x) = .empty ∧ flag (descWord x.desc 3) 17 = true then .valid else .pending := by
  refine ⟨_, rfl, ?_⟩
  rw [cmd.runs rfl]
  dsimp only
  rw [if_neg (by simp [peace]), if_neg (by simp [other, noTrial]), if_neg (by tauto)]
  split
  · exact fwSlotTo_slotState powered space ..
  · exact fwSlotTo_slotState powered space ..

theorem imageAccepted_iff (key : Option Bytes) (im : ImageCheck) :
    imageAccepted key im = true ↔ im.vendor = true ∧ ∀ k, key = some k → im.counter = some k := by
  unfold imageAccepted
  cases key <;> simp

/-! ## The trial -/

theorem fwCommit_queues {r : Fin 256} {x : Fetched} (cmd : LoamCmd s r x 0x12) (trial : trialRunning s = true)
    (fits : CommitFits s clsFwmeta) :
    Gives (.fwCommit r) s fun t =>
      t.loam.queue.length = s.loam.queue.length + 1 ∧ ∃ c ∈ t.loam.queue, c.cls = clsFwmeta ∧ c.segs = [0] := by
  refine ⟨_, rfl, ?_⟩
  rw [cmd.runs rfl]
  dsimp only
  rw [if_pos trial, hostCommit_queue fits]
  exact ⟨List.length_append, _, List.mem_append_right _ (List.mem_singleton_self _), rfl, rfl⟩

theorem requestCommit_elapsed (s : State) (c : Commit) : (requestCommit s c false).1.loam.elapsed = s.loam.elapsed := by
  have counted (a n : Nat) : (bump s a n).loam = s.loam := bump_loam ..
  unfold requestCommit
  split
  · rw [counted]
  · split
    · rw [counted]
    · rfl

theorem fwTrialMinute_elapsed (trial : trialRunning s = true) :
    Gives .fwTrialMinute s fun t => t.loam.elapsed = min 255 (s.loam.elapsed + 1) := by
  refine ⟨_, rfl, ?_⟩
  beta_reduce
  rw [if_pos trial]
  refine (requestCommit_elapsed ..).trans ?_
  split
  · obtain ⟨a, b, loam⟩ := setSlotState_loam (setLoam s { s.loam with elapsed := min 255 (s.loam.elapsed + 1) })
      s.loam.runSlot .rejected
    rw [raiseN_loam, loam]
    rfl
  · rfl

/-! ## Rolling back -/

/-- The running slot is rejected and the command answered. -/
def rollingBack (s : State) (r : Nat) (x : Fetched) : State :=
  loamEnd (setSlotState s s.loam.runSlot .rejected) r x 0

theorem execFwRollback_trial {r : Fin 256} {x : Fetched} (cmd : LoamCmd s r x 0x13) (trial : trialRunning s = true)
    (env : StartEnv) : exec (.fwRollback r env) s = .next (requestWarm false true env (rollingBack s r x)) := by
  show execFwRollback r env s = _
  unfold execFwRollback
  rw [cmd.runs rfl]
  rw [if_pos trial]
  rfl

theorem rollingBack_loam (s : State) (r : Nat) (x : Fetched) :
    (rollingBack s r x).loam = (setSlotState s s.loam.runSlot .rejected).loam := complete_loam ..

theorem rollingBack_cur (s : State) (r : Nat) (x : Fetched) : (rollingBack s r x).loam.cur = s.loam.cur := by
  obtain ⟨a, b, loam⟩ := setSlotState_loam s s.loam.runSlot .rejected
  rw [rollingBack_loam, loam]

theorem rollingBack_glb (s : State) (r : Nat) (x : Fetched) : (rollingBack s r x).glb = s.glb := by
  refine (complete_glb ..).trans ?_
  unfold setSlotState
  split <;> rfl

/-- What a reset does first, while its cause is noted: nothing but outputs. -/
theorem gaspFirst_causeBit_loam (s : State) (i : Nat) : (gaspFirst (causeBit s i)).loam = s.loam :=
  ((within_gaspFirst (ps := [])).2 .refl) .loam (by decide)

theorem gaspFirst_causeBit_glb (s : State) (i : Nat) : (gaspFirst (causeBit s i)).glb = s.glb :=
  ((within_gaspFirst (ps := [])).2 .refl) .glb (by decide)

theorem coldWarm_bcp (s : State) : (coldWarm s).bcp = Bcp.cold := by
  unfold coldWarm
  exact (((within_fusedCold (ps := .gnt :: selectionParts) (by decide)).2
    ((within_dropSynce fun _ => List.mem_cons_of_mem _).2 .refl)) .bcp (by decide) :)

theorem startUp_bcp (full rollback : Bool) (reached : Nat → Bool) (env : StartEnv) (s : State) :
    (startUp full rollback reached env s).bcp = s.bcp := by
  have within_ : Within startParts s (startUp full rollback reached env s) :=
    (within_startUp (fun _ h => h) full rollback reached env).2 .refl
  exact within_ .bcp (by decide)

theorem actWarm_bcp (rollback : Bool) (env : StartEnv) (s : State) : (actWarm false rollback env s).bcp = Bcp.cold := by
  unfold actWarm
  extract_lets esced glb s1
  have cold : s1.bcp = Bcp.cold := (startUp_bcp ..).trans (coldWarm_bcp _)
  rw [if_neg (by simp)]
  exact cold

theorem fwRollback_bcp {r : Fin 256} {x : Fetched} (cmd : LoamCmd s r x 0x13) (trial : trialRunning s = true)
    (idle : s.loam.cur = none) (env : StartEnv) : Gives (.fwRollback r env) s fun t => t.bcp = Bcp.cold := by
  refine ⟨_, execFwRollback_trial cmd trial env, ?_⟩
  unfold requestWarm
  extract_lets s1
  have idle1 : s1.loam.cur = none := by
    rw [show s1.loam = _ from gaspFirst_causeBit_loam .., rollingBack_cur, idle]
  rw [if_neg (by simp [idle1])]
  exact actWarm_bcp ..

theorem fwRollback_deferred {r : Fin 256} {x : Fetched} (cmd : LoamCmd s r x 0x13) (trial : trialRunning s = true)
    (busy : s.loam.cur.isSome = true) (free : s.glb.deferred = none) (env : StartEnv) :
    Gives (.fwRollback r env) s fun t =>
      t.glb.deferred = some (.warm false true) ∧ slotState t s.loam.runSlot = .rejected := by
  refine ⟨_, execFwRollback_trial cmd trial env, ?_⟩
  unfold requestWarm
  extract_lets s1
  have loam : s1.loam = (rollingBack s r x).loam := gaspFirst_causeBit_loam ..
  have glb : s1.glb = s.glb := (gaspFirst_causeBit_glb ..).trans (rollingBack_glb ..)
  rw [if_pos (by rw [loam, rollingBack_cur, busy])]
  refine ⟨?_, ?_⟩
  · show some (mergeDeferred s1.glb.deferred false true) = _
    rw [glb, free]
    rfl
  · exact (slotState_congr (loam.trans (rollingBack_loam s r x)) _).trans (slotState_setSlotState ..)

/-- Settles O38: a write reaches the flash, an activation its slot, and a trial its end. -/
theorem firmwareSlotsTakeEffect : Obligations.FirmwareSlotsTakeEffect := by
  refine ⟨fun s r x b cmd other empty inside => fwWrite_flash b cmd other empty inside,
    fun s r x im cmd peace other noTrial powered space => ⟨fun valid accepted => ?_, fun empty accepted => ?_,
      fun open_ refused => ?_⟩,
    imageAccepted_iff, fun s r x cmd trial fits => fwCommit_queues cmd trial fits, fun s trial => fwTrialMinute_elapsed trial,
    fun s r env x cmd trial idle => fwRollback_bcp cmd trial idle env,
    fun s r env x cmd trial busy free => fwRollback_deferred cmd trial busy free env⟩
  · simpa [accepted, valid] using fwActivate_slotState (im := im) cmd peace other noTrial powered space (.inr valid)
  · simpa [accepted, empty] using fwActivate_slotState (im := im) cmd peace other noTrial powered space (.inl empty)
  · simpa [refused] using fwActivate_slotState (im := im) cmd peace other noTrial powered space open_

end Sys2Proof.Machine
end

section
/-! SUPPORT. O39: commits segment by segment, power failure and supplies (R374 to R385). -/

namespace Sys2Proof.Machine

variable {s t u : State}

/-! ## A commit starts -/

theorem loamCommitStart_starts {c : Commit} {rest : List Commit} {k : Nat} {p : Payload} {more : List (Nat × Payload)}
    (idle : s.loam.cur = none) (queue : s.loam.queue = c :: rest) (powered : powerFailing s = false)
    (space : noSpace s c.cls = false) (timely : csigTooLate s c = false)
    (segs : commitSegs { s with loam := { s.loam with queue := rest } } c = (k, p) :: more) :
    Gives .loamCommitStart s fun t =>
      t.loam.queue = rest ∧ (t.loam.cur.map fun x => (x.seg, x.payload, x.rest)) = some (k, p, more) := by
  refine ⟨_, rfl, ?_⟩
  rw [idle, queue]
  dsimp only
  rw [if_neg (by simp [powered]), if_neg (by simp [space]), if_neg (by simp [timely]), setLoam, segs]
  exact ⟨rfl, rfl⟩

theorem commitPayload_own {c : Commit} {k : Nat} (none_ : c.payload = none) (own : c.by_ = .firmware ∨ c.by_ = .pfail) :
    commitPayload s c k = snapshot s c.cls k := by
  unfold commitPayload
  rw [none_]
  rcases own with own | own <;> rw [own]

/-! ## A segment is programmed at the first try -/

theorem writeCopy_clean (n : Nat) (x : Loam × List Nat) (c : Copy) :
    ∃ copies pgm, writeCopy 0 n x c = ({ x.1 with copies := copies, pgm := pgm }, x.2) := by
  unfold writeCopy
  split
  · exact ⟨x.1.copies, x.1.pgm, rfl⟩
  · exact ⟨_, _, rfl⟩

theorem placeCopies_clean (s : State) (c : CurCommit) :
    ∃ copies pgm, placeCopies s c cleanProg cleanProg cleanProg = ({ s.loam with copies := copies, pgm := pgm }, []) := by
  obtain ⟨copies1, pgm1, first⟩ := writeCopy_clean cleanProg.retries.val (s.loam, []) (newCopy s c 1)
  obtain ⟨copies2, pgm2, second⟩ := writeCopy_clean cleanProg.retries.val
    ({ s.loam with copies := copies1, pgm := pgm1 }, []) (newCopy s c 2)
  obtain ⟨copies3, pgm3, third⟩ := writeCopy_clean cleanProg.retries.val
    ({ s.loam with copies := copies2, pgm := pgm2 }, []) (newCopy s c 3)
  unfold placeCopies
  dsimp only
  rw [show cleanProg.failed = 0 from rfl, first, second, third]
  exact ⟨_, pgm3, rfl⟩

/-- The store after a segment whose copies were all programmed at the first try. -/
def programmedLoam (s : State) (c : CurCommit) (copies : List Copy) (pgm : Tab Nat) : Loam :=
  saveTables (recordUse { s.loam with copies := copies, pgm := pgm } c (runLine s))

theorem programSegment_clean (s : State) (c : CurCommit) :
    ∃ copies pgm, programSegment s c { copy1 := cleanProg, copy2 := cleanProg, copy3 := cleanProg, sysFail := none }
      = setLoam (statInc s 0x1100030 1) (programmedLoam s c copies pgm) := by
  obtain ⟨copies, pgm, placed⟩ := placeCopies_clean s c
  refine ⟨copies, pgm, ?_⟩
  unfold programSegment
  dsimp only
  rw [placed]
  rfl

theorem programmedLoam_genUse (s : State) (c : CurCommit) (copies : List Copy) (pgm : Tab Nat) :
    tget (fun _ => 0) (programmedLoam s c copies pgm).genUse (segKey c.req.cls c.seg) = c.gen :=
  tget_tput_same ..

/-! ## What the end of a commit brings about -/

theorem mitReadyCheck_loam (s : State) : (mitReadyCheck s).loam = s.loam :=
  ((within_mitReadyCheck (ps := [.mit]) (by decide)).2 .refl) .loam (by decide)

theorem noteMirror_within (s : State) (c : CurCommit) : Within [.mit] s (noteMirror s c) := by
  unfold noteMirror
  extract_lets own
  split
  · exact (within_sendMirror (by decide) ..).2 .refl
  · exact .refl

theorem commitDone_within (s : State) (c : Commit) (status result segs gen : Nat) :
    Within [.rsp, .nts, .mit] s (commitDone s c status result segs gen) :=
  (within_commitDone (by decide) ..).2 .refl

/-- The store's progress: the commit that runs and the generations in use. -/
structure ProgressKept (l m : Loam) : Prop where
  cur : m.cur = l.cur
  genUse : m.genUse = l.genUse

theorem ProgressKept.of_eq {l m : Loam} (h : m = l) : ProgressKept l m := h ▸ ⟨rfl, rfl⟩

theorem ProgressKept.trans {l m n : Loam} (h : ProgressKept l m) (k : ProgressKept m n) : ProgressKept l n :=
  ⟨k.cur.trans h.cur, k.genUse.trans h.genUse⟩

theorem setSlotState_progress (s : State) (k : Nat) (st : FwState) :
    ProgressKept s.loam (setSlotState s k st).loam := by
  obtain ⟨a, b, loam⟩ := setSlotState_loam s k st
  rw [loam]
  exact ⟨rfl, rfl⟩

theorem settleUnreadable_progress (s : State) : ProgressKept s.loam (settleUnreadable s).loam := by
  unfold settleUnreadable
  extract_lets cls cs
  rw [refreshServing_loam]
  exact ⟨rfl, rfl⟩

theorem noteMirrored_progress (s : State) (c : Commit) (serial : Nat) :
    ProgressKept s.loam (noteMirrored s c serial).loam := by
  have acked (s0 : State) : (c.segs.foldl (fun t k => emit t (.mirrorAck c.cls k serial)) s0).loam = s0.loam :=
    (within_foldl (ps := []) (f := fun t k => emit t (.mirrorAck c.cls k serial)) (fun _ _ => by simp) c.segs).2 .refl
      .loam (by decide)
  unfold noteMirrored
  extract_lets nts0 loam0 s0 s1 got all
  have loam : s1.loam = s0.loam := acked s0
  rw [refreshServing_loam]
  show ProgressKept s.loam s1.loam
  rw [loam]
  show ProgressKept s.loam (State.loam (match c.payload with | some (.keys slots key) => _ | _ => s))
  split
  · exact ⟨rfl, rfl⟩
  · exact .of_eq rfl

/-- Only WIPE touches the generations in use, and nothing the commit that runs (R389, R395, R396, R398). -/
theorem commitEffect_progress (s : State) (c : Commit) (noWipe : ∀ r i g, c.by_ ≠ .host r i g 0x30) :
    ProgressKept s.loam (commitEffect s c).loam := by
  unfold commitEffect
  split
  · extract_lets k s1 old l
    have slots : ProgressKept s.loam s1.loam := (setSlotState_progress ..).trans (setSlotState_progress ..)
    have told : ProgressKept l (alarmClear (raiseN (setLoam s1 l) 339 0 []) 341).loam :=
      .of_eq ((alarmClear_loam ..).trans (raiseN_loam ..))
    have ended := told.trans (settleUnreadable_progress _)
    exact slots.trans ⟨ended.cur, ended.genUse⟩
  · split
    · exact ⟨rfl, rfl⟩
    · exact .of_eq rfl
  · next wipe => exact absurd wipe (noWipe _ _ _)
  · exact .of_eq (raiseN_loam ..)
  · exact .trans (noteMirrored_progress ..) (.of_eq (mitReadyCheck_loam _))
  · rw [refreshServing_loam, raiseN_loam]
    exact ⟨rfl, rfl⟩
  · exact .of_eq rfl

theorem commitEffect_wipe {c : Commit} {r i : Nat} {tag : Word} (wipe : c.by_ = .host r i tag 0x30) :
    commitEffect s c = setLoam s (wipeAll s.loam) := by
  unfold commitEffect
  rw [wipe]
  rfl

theorem eraseClass_copies (l : Loam) (cls : Nat) (x : Copy) :
    x ∈ (eraseClass l cls).copies ↔ x ∈ l.copies ∧ x.cls ≠ cls := by
  simp [eraseClass]

theorem wipeAll_copies {l : Loam} {x : Copy} (h : x ∈ (wipeAll l).copies) :
    x.cls = clsKeys ∨ x.cls = clsFwmeta ∨ 10 < x.cls ∨ x.cls = 0 := by
  have left : ∀ k ∈ [clsCfg, clsTime, clsHist, clsGnss, clsAlmanac, clsLife, clsTrace, clsRblog], x.cls ≠ k := by
    simp only [wipeAll, saveTables, List.foldl_cons, List.foldl_nil, eraseClass_copies] at h
    simp [h]
  simp only [List.forall_mem_cons, clsCfg, clsTime, clsHist, clsGnss, clsAlmanac, clsLife, clsTrace, clsRblog] at left
  simp only [clsKeys, clsFwmeta]
  omega

/-! ## A segment is done -/

/-- The state whose commit has programmed its last segment. -/
def lastProgrammed (s : State) (c : CurCommit) (copies : List Copy) (pgm : Tab Nat) : State :=
  let s2 := loamAlarmEnd (noteMirror (setLoam (statInc s 0x1100030 1) (programmedLoam s c copies pgm)) c)
  setLoam s2 { s2.loam with cur := none }

theorem execLoamSegmentDone_last {c : CurCommit} (cur : s.loam.cur = some c) (last : c.rest = [])
    (kept : s.loam.evicted.contains c.req.cls = false) :
    ∃ copies pgm, execLoamSegmentDone { copy1 := cleanProg, copy2 := cleanProg, copy3 := cleanProg, sysFail := none } s
      = .next (commitDone (commitEffect (lastProgrammed s c copies pgm) c.req) c.req stOk 0 (c.written + 1) c.gen) := by
  obtain ⟨copies, pgm, programmed⟩ := programSegment_clean s c
  refine ⟨copies, pgm, ?_⟩
  unfold execLoamSegmentDone
  rw [cur]
  dsimp only
  have kept' : ¬(setLoam (statInc s 0x1100030 1) (programmedLoam s c copies pgm)).loam.evicted.contains c.req.cls = true := by
    rw [show (setLoam (statInc s 0x1100030 1) (programmedLoam s c copies pgm)).loam.evicted = s.loam.evicted from rfl, kept]
    exact Bool.false_ne_true
  rw [programmed, if_neg kept', last]
  rfl

theorem lastProgrammed_loam (s : State) (c : CurCommit) (copies : List Copy) (pgm : Tab Nat) :
    (lastProgrammed s c copies pgm).loam = { programmedLoam s c copies pgm with cur := none } := by
  have loam (u : State) : (loamAlarmEnd (noteMirror u c)).loam = u.loam :=
    (loamAlarmEnd_quiet _).loam.trans (noteMirror_within u c .loam (by decide))
  exact congrArg (fun l : Loam => { l with cur := none }) (loam _)

theorem lastProgrammed_stat (s : State) (c : CurCommit) (copies : List Copy) (pgm : Tab Nat) :
    (lastProgrammed s c copies pgm).stat = (statInc s 0x1100030 1).stat :=
  (loamAlarmEnd_quiet _).stat.trans (noteMirror_within _ c .stat (by decide))

theorem commitEffect_stat (s : State) (c : Commit) : (commitEffect s c).stat = s.stat :=
  ((within_commitEffect (ps := [.rsp, .nts, .loam, .mit]) (by decide) c).2 .refl) .stat (by decide)

theorem loamSegmentDone_ends {c : CurCommit} (cur : s.loam.cur = some c) (last : c.rest = [])
    (kept : s.loam.evicted.contains c.req.cls = false) :
    Gives (.loamSegmentDone { copy1 := cleanProg, copy2 := cleanProg, copy3 := cleanProg, sysFail := none }) s fun t =>
      t.loam.cur = none ∧ statGet t 0x1100030 = statGet s 0x1100030 + 1 ∧
      ((∀ r i g, c.req.by_ ≠ .host r i g 0x30) → genUseOf t c.req.cls c.seg = c.gen) ∧
      (∀ r i g, c.req.by_ = .host r i g 0x30 →
        ∀ x ∈ t.loam.copies, x.cls = clsKeys ∨ x.cls = clsFwmeta ∨ 10 < x.cls ∨ x.cls = 0) := by
  obtain ⟨copies, pgm, ended⟩ := execLoamSegmentDone_last cur last kept
  refine ⟨_, ended, ?_⟩
  have done := commitDone_within (commitEffect (lastProgrammed s c copies pgm) c.req) c.req stOk 0 (c.written + 1) c.gen
  have loam : State.loam (commitDone ..) = State.loam (commitEffect ..) := done .loam (by decide)
  have stat : State.stat (commitDone ..) = State.stat (commitEffect ..) := done .stat (by decide)
  have counted : statGet (statInc s 0x1100030 1) 0x1100030 = statGet s 0x1100030 + 1 := statGet_statInc ..
  beta_reduce
  rw [loam, statGet, stat, commitEffect_stat, lastProgrammed_stat, ← statGet, counted, genUseOf, loam]
  by_cases wipe : ∃ r i g, c.req.by_ = .host r i g 0x30
  · obtain ⟨r, i, g, wipe⟩ := wipe
    rw [commitEffect_wipe wipe]
    refine ⟨congrArg Loam.cur (lastProgrammed_loam s c copies pgm), rfl, fun no => absurd wipe (no _ _ _),
      fun _ _ _ _ x mem => wipeAll_copies mem⟩
  · have noWipe (r i : Nat) (g : Word) : c.req.by_ ≠ .host r i g 0x30 := fun h => wipe ⟨r, i, g, h⟩
    obtain ⟨cur', genUse⟩ := commitEffect_progress (lastProgrammed s c copies pgm) c.req noWipe
    rw [cur', genUse, lastProgrammed_loam]
    exact ⟨rfl, rfl, fun _ => programmedLoam_genUse .., fun r i g h => absurd h (noWipe _ _ _)⟩

/-! ## Rewrites and wear -/

theorem loamRewrite_queues (idleQueue : s.loam.queue = []) (idle : s.loam.cur = none) (restored : s.loam.restored = true)
    (powered : powerFailing s = false) (open_ : s.loam.st ≠ 3) :
    Gives .loamRewrite s fun t => (t.loam.queue.map fun c => (c.cls, c.segs)) =
      (s.loam.repair.filter fun e => !(decide (e.1 = clsKeys) && s.nts.conflict)).map fun e => (e.1, [e.2]) := by
  refine ⟨_, rfl, ?_⟩
  beta_reduce
  rw [if_neg (by simp [idleQueue, idle, restored])]
  extract_lets old s1 segs
  have powered' : powerFailing s1 = false := powered
  have open' : s1.loam.st ≠ 3 := open_
  rw [if_neg (by simp [powered', open'])]
  exact List.map_map

/-- What a copy holds, wherever it stands. -/
def Copy.mark (c : Copy) : Nat × Nat × Nat × Nat × Payload := (c.cls, c.seg, c.copy, c.gen, c.payload)

theorem moveCopy_marks (bad : List Nat) (l : Loam) (c : Copy) :
    (moveCopy bad l c).copies.map Copy.mark = l.copies.map Copy.mark := by
  unfold moveCopy
  split
  · rfl
  · rw [programmed, List.map_map]
    refine List.map_congr_left fun x _ => ?_
    dsimp only [Function.comp_apply]
    split
    · next same => rw [same]; rfl
    · rfl

/-- One group's static record moves. -/
def wearMoved (l : Loam) (k : Nat) : Loam :=
  match staticCopy l k with
  | some c => moveCopy [] l c
  | none => l

theorem wearMoved_marks (l : Loam) (k : Nat) : (wearMoved l k).copies.map Copy.mark = l.copies.map Copy.mark := by
  unfold wearMoved
  split
  · exact moveCopy_marks ..
  · rfl

theorem loamWearMove_marks (s : State) : Gives .loamWearMove s fun t =>
    t.loam.copies.map Copy.mark = s.loam.copies.map Copy.mark :=
  ⟨_, rfl, (wearMoved_marks (wearMoved (wearMoved s.loam 1) 2) 3).trans
    ((wearMoved_marks (wearMoved s.loam 1) 2).trans (wearMoved_marks s.loam 1))⟩

theorem loamFirmwareCommit_queues {sid : SegId} {b : Bytes} (known : sid.seg.val < segCount sid.cls.val)
    (noCfg : sid.cls.val ≠ clsCfg) (noTime : sid.cls.val ≠ clsTime) (noKeys : sid.cls.val ≠ clsKeys) (some_ : b ≠ [])
    (fits : CommitFits s sid.cls.val) :
    Gives (.loamFirmwareCommit sid b) s fun t =>
      t.loam.queue = s.loam.queue ++ [ownCommit sid.cls.val sid.seg.val (some (.bytes (b.take pageRoom)))] := by
  refine ⟨_, rfl, ?_⟩
  beta_reduce
  extract_lets cls old s1 own
  have same : s1.loam = s.loam ∧ s1.tb = s.tb ∧ s1.glb = s.glb := by
    unfold s1
    split
    · exact ⟨rfl, rfl, rfl⟩
    · exact ⟨rfl, rfl, rfl⟩
  obtain ⟨loam, tb, glb⟩ := same
  have fits' : CommitFits s1 cls := fits.congr loam (congrArg Tb.ticks tb) (congrArg Glb.deferred glb)
  have known' : ¬(segCount cls ≤ sid.seg.val ∨ cls = clsCfg ∨ cls = clsTime ∨ cls = clsKeys) := by
    rintro (few | cfg | time | keys)
    · exact absurd known (Nat.not_lt.mpr few)
    · exact noCfg cfg
    · exact noTime time
    · exact noKeys keys
  obtain ⟨tokens, queued⟩ := fwCommit_fits (segs := [sid.seg.val])
    (p := if own = true ∧ b = [] then none else some (.bytes (b.take pageRoom))) fits'
  rw [if_neg known', queued, if_neg fun h => some_ h.2, loam]
  rfl

/-! ## Power failure -/

theorem loamPfail_queue (s : State) (held : s.loam.pfail = false) :
    Gives .loamPfail s fun t => t.loam.pfail = true ∧ ∀ c ∈ t.loam.queue, c.by_ = .pfail := by
  refine ⟨_, rfl, ?_⟩
  beta_reduce
  rw [if_neg (by simp [held])]
  extract_lets q old s1 hist old1 s2
  have refused (u : State) : (q.foldl powerFailOne u).loam = u.loam :=
    (within_foldl (ps := [.rsp, .nts, .mit]) (f := powerFailOne)
      (fun t c => (within_commitDone (by decide) ..).trans (within_bump ..)) q).2 .refl .loam (by decide)
  have empty : s1.loam = { s.loam with pfail := true, queue := [] } := refused _
  have loam : (lastGasp (raiseN s2 334 0 [])).loam = s2.loam :=
    Eq.trans ((within_lastGasp (ps := [.lp]) (by decide)).2 .refl .loam (by decide)) (raiseN_loam ..)
  rw [loam]
  unfold s2
  split
  · refine ⟨congrArg Loam.pfail empty, fun c mem => ?_⟩
    rw [List.mem_singleton.mp mem]
    rfl
  · rw [empty]
    exact ⟨rfl, fun c mem => absurd mem List.not_mem_nil⟩

/-! ## Supplies -/

/-- A table without its entries under a key reads the key's default there. -/
theorem tget_filter_none {α : Type} (d : Nat → α) (p : Nat → Bool) {k : Nat} (none_ : p k = false) (t : Tab α) :
    tget d (t.filter fun e => p e.1) k = d k := by
  induction t with
  | nil => rfl
  | cons e t ih =>
    rw [List.filter_cons]
    split
    · next kept =>
      have other : k ≠ e.1 := fun h => by simp [← h, none_] at kept
      simp only [tget]
      rw [if_neg other, ih]
    · exact ih

theorem rd_dropBackup {a : Nat} (low : 0x1100200 ≤ a) (high : a < 0x1100300) (s : State) :
    rd (dropBackup s) a = coldWord a :=
  tget_filter_none coldWord (fun b => decide (b < 0x1100200 ∨ 0x1100300 ≤ b)) (decide_eq_false (by omega)) s.regs

theorem vbatLoss_clears (off : s.glb.powered = false) :
    Gives .vbatLoss s fun t =>
      t.loam.rtcValid = false ∧ t.loam.rtcBase = 0 ∧ t.loam.rtcLost = true ∧
      ∀ a, 0x1100200 ≤ a → a < 0x1100300 → rd t a = coldWord a := by
  refine ⟨_, rfl, ?_⟩
  dsimp only
  rw [if_neg (by simp [off])]
  refine ⟨rfl, rfl, rfl, fun a low high => ?_⟩
  unfold keepAliveLost
  rw [rd_orReg_ne _ _ (by omega), rd_dropBackup low high]

/-- Settles O39: commits run segment by segment, a power failure refuses what waits, and supplies end. -/
theorem commitsAndPowerFailuresTakeEffect : Obligations.CommitsAndPowerFailuresTakeEffect := by
  refine ⟨fun s c rest k p more idle queue powered space timely segs =>
      loamCommitStart_starts idle queue powered space timely segs,
    fun s c k none_ own => commitPayload_own none_ own, fun s c cur last kept => loamSegmentDone_ends cur last kept,
    fun s idleQueue idle restored powered open_ => loamRewrite_queues idleQueue idle restored powered open_,
    loamPfail_queue, fun s held => ⟨_, rfl, ?_⟩, fun s => ⟨_, rfl, rfl⟩, loamWearMove_marks,
    fun s sid b known noCfg noTime noKeys some_ fits =>
      loamFirmwareCommit_queues known noCfg noTime noKeys some_ fits,
    fun s off => vbatLoss_clears off, fun s on => ?_, fun s low => rfl⟩
  · dsimp only
    rw [if_pos held]
    exact ⟨rfl, rfl⟩
  · show execVbatLoss s = _
    unfold execVbatLoss
    dsimp only
    rw [if_pos on, setLoam]

end Sys2Proof.Machine
end

section
/-! SUPPORT. O40: presence, search and enumeration of the Brim ring (R404, R409 to R411). -/

namespace Sys2Proof.Machine

variable {s t u : State}

/-! ## What a change of the servo's source leaves -/

@[simp] theorem refInputs_resumeTime (s : State) : refInputs (resumeTime s) = refInputs s := by
  simp [resumeTime]

@[simp] theorem refInputs_sourceChanged (before s : State) : refInputs (sourceChanged before s) = refInputs s := by
  simp [sourceChanged]

theorem plainRegs_sourceChanged (before s : State) : plainRegs (sourceChanged before s) = plainRegs s :=
  congrArg RefInputs.regs (refInputs_sourceChanged before s)

theorem sourceChanged_within (before s : State) : Within selectionParts s (sourceChanged before s) :=
  (within_sourceChanged (fun _ h => h) before).2 .refl

@[simp] theorem sourceChanged_brim (before s : State) : (sourceChanged before s).brim = s.brim :=
  sourceChanged_within before s .brim (by decide)

/-! ## Presence -/

theorem brimEnable_searches (off : s.brim.en = false) :
    Gives .brimEnable s fun t =>
      t.brim.en = true ∧ t.brim.st = .search ∧ t.brim.discPulse = true ∧ rb t 0x1200000 0 = true ∧
      unitState t 61 = 0 ∧ unitState t 62 = 0 ∧ t.out = .discPulse :: s.out := by
  refine ⟨_, rfl, ?_⟩
  dsimp only
  rw [if_neg (by simp [off])]
  refine ⟨rfl, rfl, rfl, ?_, ?_, ?_, rfl⟩
  · exact (congrArg (flag · 0) (rd_wrf_same s 0x1200000 0 1 1)).trans (flag_putFld_of_mem _ 1 (by omega) (by omega))
  · exact (unitState_setUnit_ne (setUnit (wrf s 0x1200000 0 1 1) 61 0) 0 (by omega)).trans
      ((unitState_setUnit (wrf s 0x1200000 0 1 1) 61 0).trans (if_neg (by simp)))
  · exact (unitState_setUnit (setUnit (wrf s 0x1200000 0 1 1) 61 0) 62 0).trans (if_neg (by simp))

theorem brimDisable_leaves (s : State) : Gives .brimDisable s fun t =>
    t.brim = { Brim.cold with tokenSeq := s.brim.tokenSeq } ∧ rb t 0x1200000 0 = false := by
  refine ⟨_, rfl, sourceChanged_brim .., ?_⟩
  unfold rb
  rw [rd_of_plainRegs (plainRegs_sourceChanged ..) rfl]
  exact (congrArg (flag · 0) (rd_wrf_same s 0x1200000 0 1 0)).trans (flag_putFld_of_mem _ 0 (by omega) (by omega))

theorem brimPresence_counts (on : s.brim.en = true) : Gives .brimPresence s fun t =>
    Counted s t 0x12000A4 1 ∧ t.brim = { s.brim with searching := false, found := [] } := by
  refine ⟨_, rfl, ?_⟩
  rw [if_pos on]
  exact ⟨.raiseN (.of_rd (u := setBrim s _) rfl (bump_counted _ 1 (by decide))) 350 0 [] rfl, (raiseN_brim ..).trans (bump_brim ..)⟩

/-! ## The search -/

theorem getLsbD_ofNat_two_pow (n : Nat) {k : Nat} (h : k < 64) :
    (BitVec.ofNat 64 (2 ^ n)).getLsbD k = decide (k = n) := by
  rw [BitVec.getLsbD_ofNat, Nat.testBit_two_pow]
  simp [h, eq_comm]

theorem decide_lt_succ_of_ne {k n : Nat} (h : k ≠ n) : decide (k < n + 1) = decide (k < n) :=
  decide_eq_decide.mpr (by omega)

/-- Bits that were read before a pass went on keep their values; those of the pass are what the line was not. -/
theorem scanId_released (own pulled : BitVec 64) (n : Nat) (id : BitVec 64) {k : Nat} (h : k < 64) (few : n ≤ 64) :
    (scanId own pulled n false id).getLsbD k = (id.getLsbD k || (decide (k < n) && !pulled.getLsbD k)) := by
  induction n generalizing id with
  | zero => simp [scanId]
  | succ n ih =>
    have bit := getLsbD_ofNat_two_pow n h
    rw [scanId, Bool.false_and, Bool.false_and, Bool.false_or, ih _ (by omega)]
    generalize BitVec.ofNat 64 (2 ^ n) = m at bit ⊢
    by_cases here : k = n
    · rw [here] at bit ⊢
      cases pulled.getLsbD n <;> simp [bit]
    · rw [decide_lt_succ_of_ne here]
      cases pulled.getLsbD n <;> simp [bit, here]

/-- A pass that nobody else pulls low reads the contender's own ID. -/
theorem scanId_alone (own : BitVec 64) (n : Nat) (id : BitVec 64) {k : Nat} (h : k < 64) (few : n ≤ 64) :
    (scanId own 0 n true id).getLsbD k = (id.getLsbD k || (decide (k < n) && own.getLsbD k)) := by
  induction n generalizing id with
  | zero => simp [scanId]
  | succ n ih =>
    have bit := getLsbD_ofNat_two_pow n h
    have stays : (true && !((true && !own.getLsbD n || (0 : BitVec 64).getLsbD n) && own.getLsbD n)) = true := by
      cases own.getLsbD n <;> simp
    rw [scanId, stays, ih _ (by omega)]
    generalize BitVec.ofNat 64 (2 ^ n) = m at bit ⊢
    by_cases here : k = n
    · rw [here] at bit ⊢
      cases own.getLsbD n <;> simp [bit]
    · rw [decide_lt_succ_of_ne here]
      cases own.getLsbD n <;> simp [bit, here]

/-- A pass in which a device contends or another one starts. -/
def PassRuns (s : State) (o : DiscPulls) : Prop := s.brim.found.contains s.fuse.brimId = false ∨ o.start = true

theorem execBrimSearchPass_runs {o : DiscPulls} (searching : s.brim.searching = true) (runs : PassRuns s o)
    (e w : List (BitVec 64)) (ms : Nat) :
    let contends := !s.brim.found.contains s.fuse.brimId
    let id := scanId s.fuse.brimId o.bits 64 contends 0
    execBrimSearchPass o e w ms s = .next (
      if (contends && decide (id = s.fuse.brimId)) || o.verify then
        (if s.brim.found.length < 8 then setBrim s { s.brim with found := s.brim.found ++ [id] } else s)
      else bump s 0x12000A8 1) := by
  intro contends id
  have open_ : (!s.brim.found.contains s.fuse.brimId || o.start) = true := by
    rcases runs with own | other
    · rw [own]; rfl
    · rw [other, Bool.or_true]
  unfold execBrimSearchPass
  rw [if_neg (by simp [searching])]
  dsimp only
  rw [if_pos open_]

theorem searchPass_reads {o : DiscPulls} (searching : s.brim.searching = true) (runs : PassRuns s o)
    (e w : List (BitVec 64)) (ms : Nat) :
    let contends := !s.brim.found.contains s.fuse.brimId
    let id := scanId s.fuse.brimId o.bits 64 contends 0
    ((contends = true ∧ id = s.fuse.brimId) ∨ o.verify = true → s.brim.found.length < 8 →
      exec (.brimSearchPass o e w ms) s = .next { s with brim := { s.brim with found := s.brim.found ++ [id] } }) ∧
    (¬(contends = true ∧ id = s.fuse.brimId) → o.verify = false →
      Gives (.brimSearchPass o e w ms) s fun t => Counted s t 0x12000A8 1 ∧ t.brim = s.brim) := by
  intro contends id
  have passed := execBrimSearchPass_runs searching runs e w ms
  dsimp only at passed
  constructor
  · intro read few
    refine passed.trans ?_
    rw [if_pos (by simpa [contends, id] using read), if_pos few, setBrim]
  · intro unread unverified
    refine ⟨_, passed, ?_⟩
    have mismatch : ¬((contends && decide (id = s.fuse.brimId)) || o.verify) = true := by
      simpa [unverified] using unread
    rw [if_neg mismatch]
    exact ⟨bump_counted _ 1 (by decide), bump_brim ..⟩

/-! ## The end of the search -/

/-- The members' waiting messages are settled; nothing else of the ring changes. -/
theorem settleTx_brim (s : State) :
    (settleTx s).brim = { s.brim with txq := s.brim.txq.filter fun m => destOk s.brim m.dest } := by
  have kept (l : List BrimTx) (t : State) : (l.foldl (fun t m => complete t m.ring m.idx stNotReady m.body) t).brim = t.brim := by
    induction l generalizing t with
    | nil => rfl
    | cons m l ih => rw [List.foldl_cons, ih, complete_brim]
  unfold settleTx
  rw [kept]
  rfl

/-- The members that a search has found, in ascending order. -/
def foundMembers (b : Brim) : List (BitVec 64) := b.found.foldl (fun l i => insertId i l) []

/-- The state of the ring after a search that found members and paths (R411). -/
def ringState (self : BitVec 64) (all e w : List (BitVec 64)) : BrimState :=
  if !all.contains self then .alone
  else if e ≠ [] ∧ e.length + 1 = all.length ∧ w = e.reverse then .ring
  else if e ≠ [] ∨ w ≠ [] then .line else .alone

theorem ringState_alone (self : BitVec 64) (all : List (BitVec 64)) : ringState self all [] [] = .alone := by
  simp [ringState]

theorem ringState_ring {self : BitVec 64} {all e w : List (BitVec 64)} (here : all.contains self = true) (some_ : e ≠ [])
    (full : e.length + 1 = all.length) (back : w = e.reverse) : ringState self all e w = .ring := by
  rw [ringState, here, if_neg (by simp), if_pos ⟨some_, full, back⟩]

theorem ringState_line {self : BitVec 64} {all e w : List (BitVec 64)} (here : all.contains self = true)
    (some_ : e ≠ [] ∨ w ≠ []) (broken : ¬(e ≠ [] ∧ e.length + 1 = all.length ∧ w = e.reverse)) :
    ringState self all e w = .line := by
  rw [ringState, here, if_neg (by simp), if_neg broken, if_pos some_]

/-- The state of a ring whose search has ended. -/
structure Enumerated (s t : State) (e w : List (BitVec 64)) (ms : Nat) : Prop where
  members : t.brim.members = foundMembers s.brim
  searching : t.brim.searching = false
  enumMs : t.brim.enumMs = ms
  east : t.brim.east = foundPath s.brim.upE s.fuse.brimId (foundMembers s.brim) e
  west : t.brim.west = foundPath s.brim.upW s.fuse.brimId (foundMembers s.brim) w
  st : t.brim.st = ringState s.fuse.brimId (foundMembers s.brim)
    (foundPath s.brim.upE s.fuse.brimId (foundMembers s.brim) e)
    (foundPath s.brim.upW s.fuse.brimId (foundMembers s.brim) w)

theorem Enumerated.of_brim {east west : List (BitVec 64)} {ms : Nat} (h : Enumerated s t east west ms) {due : Bool}
    (same : u.brim = { t.brim with restoreDue := due }) : Enumerated s u east west ms := by
  obtain ⟨members, searching, enumMs, east, west, st⟩ := h
  constructor <;> rw [same]
  all_goals assumption

theorem enumerated_enumerated (s : State) (east west : List (BitVec 64)) (ms : Nat) :
    Enumerated s (enumerated s east west ms) east west ms := by
  unfold enumerated
  extract_lets b found e w st leaderId b1 lead s1 s2
  have first : Enumerated s s1 east west ms := by
    have brim : s1.brim = { b1 with leader := lead, txq := s1.brim.txq } := by
      unfold s1
      rw [settleTx_brim, sourceChanged_brim, raiseN_brim]
      rfl
    constructor <;> rw [brim]
    all_goals rfl
  have second : s2.brim = s1.brim := by
    unfold s2
    split
    · rfl
    · exact raiseN_brim ..
  split
  · exact first.of_brim (due := false)
      ((raiseN_brim ..).trans (congrArg (fun b : Brim => { b with restoreDue := false }) second))
  · exact first.of_brim (due := s1.brim.restoreDue) second

theorem searchPass_ends {o : DiscPulls} (e w : List (BitVec 64)) (ms : Nat) (searching : s.brim.searching = true)
    (known : s.brim.found.contains s.fuse.brimId = true) (quiet : o.start = false) :
    let all := s.brim.found.foldl (fun l i => insertId i l) []
    let es := foundPath s.brim.upE s.fuse.brimId all e
    let ws := foundPath s.brim.upW s.fuse.brimId all w
    Gives (.brimSearchPass o e w ms) s fun t =>
      t.brim.members = all ∧ t.brim.searching = false ∧ t.brim.enumMs = ms ∧ t.brim.east = es ∧ t.brim.west = ws ∧
      (es = [] → ws = [] → t.brim.st = .alone) ∧
      (all.contains s.fuse.brimId = true → es ≠ [] → es.length + 1 = all.length → ws = es.reverse →
        t.brim.st = .ring) ∧
      (all.contains s.fuse.brimId = true → es ≠ [] ∨ ws ≠ [] →
        ¬(es ≠ [] ∧ es.length + 1 = all.length ∧ ws = es.reverse) → t.brim.st = .line) := by
  intro all es ws
  obtain ⟨members, ended, enumMs, east, west, st⟩ := enumerated_enumerated s e w ms
  have shape : (enumerated s e w ms).brim.st = ringState s.fuse.brimId all es ws := st
  refine ⟨enumerated s e w ms, ?_, members, ended, enumMs, east, west, fun noEast noWest => ?_,
    fun here some_ full back => ?_, fun here some_ broken => ?_⟩
  · show execBrimSearchPass o e w ms s = _
    unfold execBrimSearchPass
    rw [if_neg (by simp [searching])]
    dsimp only
    rw [if_neg (by rw [known, quiet]; exact Bool.false_ne_true)]
  · rw [shape, noEast, noWest, ringState_alone]
  · rw [shape, ringState_ring here some_ full back]
  · rw [shape, ringState_line here some_ broken]

/-- Settles O40: presence pulses, passes and the end of a search. -/
theorem brimSearchTakesEffect : Obligations.BrimSearchTakesEffect := by
  refine ⟨fun s off => brimEnable_searches off, brimDisable_leaves, fun s on => ?_,
    fun s on => brimPresence_counts on, fun s => rfl, fun s on over_ => ⟨_, rfl, ?_⟩,
    fun s o e w ms searching runs => searchPass_reads searching runs e w ms, fun own pulled k h => ?_, fun own => ?_,
    fun s o e w ms searching known quiet => searchPass_ends e w ms searching known quiet⟩
  · show Host.Outcome.next (presencePulse s) = _
    rw [presencePulse, if_pos on]
    rfl
  · dsimp only
    rw [if_pos ⟨on, over_⟩]
    split
    · exact alarmClear_brim ..
    · rfl
  · simpa [h] using scanId_released own pulled 64 0 h (Nat.le_refl _)
  · refine BitVec.eq_of_getLsbD_eq fun k h => ?_
    simpa [h] using scanId_alone own 64 0 h (Nat.le_refl _)

end Sys2Proof.Machine
end

section
/-! SUPPORT. O41: the lanes of the Brim ring and their exchanges (R405 to R407, R416). -/

namespace Sys2Proof.Machine

variable {s t u : State}

/-! ## Lanes that come up -/

theorem brimLaneUp_raises (on : s.brim.en = true) :
    (Gives (.brimLaneUp .east) s fun t => t.brim.upE = true ∧ t.brim.discPulse = true) ∧
    (Gives (.brimLaneUp .west) s fun t => t.brim.upW = true ∧ t.brim.discPulse = true) := by
  have pulse (b : Brim) (h : b.en = true) :
      (presencePulse (setBrim s b)).brim = { b with discPulse := true, searching := false, found := [] } := by
    unfold presencePulse
    rw [if_pos (by exact h)]
    rfl
  constructor
  · refine ⟨_, rfl, ?_⟩
    dsimp only
    rw [if_pos on, pulse { s.brim with upE := true } on]
    exact ⟨rfl, rfl⟩
  · refine ⟨_, rfl, ?_⟩
    dsimp only
    rw [if_pos on, pulse { s.brim with upW := true } on]
    exact ⟨rfl, rfl⟩

/-! ## A broken ring -/

/-- The first hop of a cut path stands unless it is the one that is cut. -/
theorem cutPath_ne_nil {cut : BitVec 64 → BitVec 64 → Bool} {self : BitVec 64} {path : List (BitVec 64)} (some_ : path ≠ [])
    (stands : ∀ x, cut self x = false) : cutPath cut self path ≠ [] := by
  cases path with
  | nil => exact absurd rfl some_
  | cons x xs =>
    rw [cutPath, stands x]
    exact List.cons_ne_nil _ _

theorem mem_of_mem_cutPath {cut : BitVec 64 → BitVec 64 → Bool} {x prev : BitVec 64} {path : List (BitVec 64)}
    (h : x ∈ cutPath cut prev path) : x ∈ path := by
  induction path generalizing prev with
  | nil => exact h
  | cons y ys ih =>
    rw [cutPath] at h
    split at h
    · exact absurd h List.not_mem_nil
    · rcases List.mem_cons.mp h with here | behind
      · exact here ▸ List.mem_cons_self
      · exact List.mem_cons_of_mem _ (ih behind)

/-- The ring with the paths that a break leaves, before it is known whom they reach. -/
def shortened (b : Brim) (e w : List (BitVec 64)) : Brim :=
  let st : BrimState := if e = [] ∧ w = [] then .alone else .line
  { b with east := e, west := w, st := st, restoreDue := true, leader := if st = .alone then none else b.leader,
           token := b.token && decide (st ≠ .alone) }

/-- The leader is out of reach over the paths that a break leaves. -/
def leaderLost (s : State) (b : Brim) : Bool :=
  match b.leader with
  | some l => !reaches (setBrim s b) l
  | none => true

/-- What a break makes of the ring but for its token and the messages that wait for it. -/
structure Broken (s t : State) (e w : List (BitVec 64)) : Prop where
  brim : ∃ token seq txq, t.brim = { shortened s.brim e w with
    fresh := s.brim.fresh && !leaderLost s (shortened s.brim e w), token := token, tokenSeq := seq, txq := txq }

theorem regenToken_brim (s : State) : ∃ token seq, (regenToken s).brim = { s.brim with token := token, tokenSeq := seq } := by
  unfold regenToken
  split
  · refine ⟨true, s.brim.tokenSeq + 1, ?_⟩
    unfold passToken emit
    dsimp only
    rw [raiseN_brim, bump_brim]
    rfl
  · exact ⟨s.brim.token, s.brim.tokenSeq, rfl⟩

/-- The paths that a break between two members leaves. -/
def eastCut (s : State) (a b : BitVec 64) : List (BitVec 64) :=
  cutPath (fun p x => decide (p = a ∧ x = b)) s.fuse.brimId s.brim.east

def westCut (s : State) (a b : BitVec 64) : List (BitVec 64) :=
  cutPath (fun p x => decide (x = a ∧ p = b)) s.fuse.brimId s.brim.west

theorem ringBreak_broken {a b : BitVec 64} (member : inRing s.brim = true)
    (cut : eastCut s a b ≠ s.brim.east ∨ westCut s a b ≠ s.brim.west) :
    Broken s (ringBreak s a b) (eastCut s a b) (westCut s a b) := by
  unfold ringBreak
  extract_lets old e w st s1 lost brim1 s2
  have open_ : ¬(inRing old = false ∨ e = old.east ∧ w = old.west) := by
    rintro (out | ⟨noEast, noWest⟩)
    · exact absurd member (by rw [show inRing s.brim = false from out]; exact Bool.false_ne_true)
    · exact cut.elim (· noEast) (· noWest)
  obtain ⟨token, seq, regen⟩ := regenToken_brim (raiseN s2 347 0 [])
  have brim : s2.brim = { shortened s.brim e w with
      fresh := s.brim.fresh && !leaderLost s (shortened s.brim e w) } := rfl
  have some_ (u : State) : ∃ txq, (settleTx u).brim = { u.brim with txq := txq } := ⟨_, settleTx_brim u⟩
  obtain ⟨txq, settled⟩ := some_ (sourceChanged s (regenToken (raiseN s2 347 0 [])))
  rw [if_neg open_]
  refine ⟨token, seq, txq, ?_⟩
  rw [settled, sourceChanged_brim, regen, raiseN_brim, brim]
  rfl

theorem shortened_leader_alone (b : Brim) : (shortened b [] []).leader = none := rfl

theorem Broken.st {e w : List (BitVec 64)} (h : Broken s t e w) : t.brim.st = if e = [] ∧ w = [] then .alone else .line := by
  obtain ⟨token, seq, txq, brim⟩ := h
  rw [brim]
  rfl

theorem Broken.paths {e w : List (BitVec 64)} (h : Broken s t e w) :
    t.brim.east = e ∧ t.brim.west = w ∧ t.brim.restoreDue = true := by
  obtain ⟨token, seq, txq, brim⟩ := h
  rw [brim]
  exact ⟨rfl, rfl, rfl⟩

theorem Broken.lanes {e w : List (BitVec 64)} (h : Broken s t e w) :
    t.brim.upE = s.brim.upE ∧ t.brim.hopE = s.brim.hopE ∧ t.brim.upW = s.brim.upW ∧ t.brim.hopW = s.brim.hopW := by
  obtain ⟨token, seq, txq, brim⟩ := h
  rw [brim]
  exact ⟨rfl, rfl, rfl, rfl⟩

/-- A device with no path left is alone and has no leader. -/
theorem Broken.alone (h : Broken s t [] []) : t.brim.st = .alone ∧ t.brim.leader = none := by
  obtain ⟨token, seq, txq, brim⟩ := h
  rw [brim]
  exact ⟨rfl, rfl⟩

/-- No path leads to a member that stands on neither. -/
theorem pathTo_eq_none {b : Brim} {id : BitVec 64} (east : id ∉ b.east) (west : id ∉ b.west) : pathTo b id = none := by
  have none_ (l : List (BitVec 64)) (h : id ∉ l) : l.findIdx? (fun m => decide (m = id)) = none := by
    rw [List.findIdx?_eq_none_iff]
    exact fun x mem => decide_eq_false fun same => h (same ▸ mem)
  rw [pathTo, none_ _ east, none_ _ west]

/-- A member that the leader no longer reaches holds. -/
theorem Broken.holds {e w : List (BitVec 64)} (h : Broken s t e w) {l : Nat} (leader : s.brim.leader = some l)
    (other : myNum s ≠ some l) (east : s.brim.members.getD l 0 ∉ e) (west : s.brim.members.getD l 0 ∉ w) :
    t.brim.fresh = false := by
  obtain ⟨token, seq, txq, brim⟩ := h
  have lost : leaderLost s (shortened s.brim e w) = true := by
    by_cases alone : e = [] ∧ w = []
    · rw [alone.1, alone.2, leaderLost, shortened_leader_alone]
    · have kept : (shortened s.brim e w).leader = some l := by
        unfold shortened
        dsimp only
        rw [if_neg (by rw [if_neg alone]; exact BrimState.noConfusion), leader]
      have unreached : reaches (setBrim s (shortened s.brim e w)) l = false := by
        have num : myNum (setBrim s (shortened s.brim e w)) = myNum s := rfl
        have path : pathTo (shortened s.brim e w) (s.brim.members.getD l 0) = none := pathTo_eq_none east west
        unfold reaches
        rw [num, decide_eq_false other]
        show (_ || _ && (pathTo (shortened s.brim e w) (s.brim.members.getD l 0)).isSome) = false
        rw [path]
        exact Bool.and_false _
      rw [leaderLost, kept]
      dsimp only
      rw [unreached]
      rfl
  rw [brim, lost]
  exact Bool.and_false _

/-! ## Lanes that go down -/

/-- A side of the ring without its lane. -/
def withoutEast (s : State) : State := setBrim s { s.brim with upE := false, hopE := 0 }
def withoutWest (s : State) : State := setBrim s { s.brim with upW := false, hopW := 0 }

/-- A lane that reached no member of a ring goes down alone. -/
theorem execBrimLaneDown_east_unjoined (h : s.brim.east.head? = none ∨ inRing s.brim = false) :
    execBrimLaneDown .east s = .next (withoutEast s) := by
  unfold execBrimLaneDown
  dsimp only
  split
  · next i head member => rcases h with h | h <;> simp_all
  · rfl

theorem execBrimLaneDown_west_unjoined (h : s.brim.west.head? = none ∨ inRing s.brim = false) :
    execBrimLaneDown .west s = .next (withoutWest s) := by
  unfold execBrimLaneDown
  dsimp only
  split
  · next i head member => rcases h with h | h <;> simp_all
  · rfl

theorem execBrimLaneDown_east_joined {i : BitVec 64} (head : s.brim.east.head? = some i) (member : inRing s.brim = true) :
    execBrimLaneDown .east s = .next (emit (ringBreak (withoutEast s) s.fuse.brimId i)
      (.brim 2 (leBytes 8 s.fuse.brimId.toNat ++ leBytes 8 i.toNat))) := by
  unfold execBrimLaneDown
  dsimp only
  rw [head, member]
  rfl

theorem execBrimLaneDown_west_joined {i : BitVec 64} (head : s.brim.west.head? = some i) (member : inRing s.brim = true) :
    execBrimLaneDown .west s = .next (emit (ringBreak (withoutWest s) i s.fuse.brimId)
      (.brim 2 (leBytes 8 i.toNat ++ leBytes 8 s.fuse.brimId.toNat))) := by
  unfold execBrimLaneDown
  dsimp only
  rw [head, member]
  rfl

/-- A break leaves the lanes as they are. -/
theorem ringBreak_lanes (s : State) (a b : BitVec 64) :
    (ringBreak s a b).brim.upE = s.brim.upE ∧ (ringBreak s a b).brim.hopE = s.brim.hopE ∧
      (ringBreak s a b).brim.upW = s.brim.upW ∧ (ringBreak s a b).brim.hopW = s.brim.hopW := by
  by_cases cut : inRing s.brim = true ∧ (eastCut s a b ≠ s.brim.east ∨ westCut s a b ≠ s.brim.west)
  · exact (ringBreak_broken cut.1 cut.2).lanes
  · have same : ringBreak s a b = s := by
      unfold ringBreak
      exact if_pos (by unfold eastCut westCut at cut; simp only [not_and_or, not_or, not_not, Bool.not_eq_true] at cut; exact cut)
    rw [same]
    exact ⟨rfl, rfl, rfl, rfl⟩

theorem brimLaneDown_drops (s : State) :
    (Gives (.brimLaneDown .east) s fun t => t.brim.upE = false ∧ t.brim.hopE = 0) ∧
    (Gives (.brimLaneDown .west) s fun t => t.brim.upW = false ∧ t.brim.hopW = 0) := by
  cases member : inRing s.brim with
  | false =>
    exact ⟨⟨_, execBrimLaneDown_east_unjoined (.inr member), rfl, rfl⟩,
      ⟨_, execBrimLaneDown_west_unjoined (.inr member), rfl, rfl⟩⟩
  | true =>
    constructor
    · cases head : s.brim.east.head? with
      | none => exact ⟨_, execBrimLaneDown_east_unjoined (.inl head), rfl, rfl⟩
      | some i =>
        obtain ⟨up, hop, -, -⟩ := ringBreak_lanes (withoutEast s) s.fuse.brimId i
        exact ⟨_, execBrimLaneDown_east_joined head member, up, hop⟩
    · cases head : s.brim.west.head? with
      | none => exact ⟨_, execBrimLaneDown_west_unjoined (.inl head), rfl, rfl⟩
      | some i =>
        obtain ⟨-, -, up, hop⟩ := ringBreak_lanes (withoutWest s) i s.fuse.brimId
        exact ⟨_, execBrimLaneDown_west_joined head member, up, hop⟩

theorem brimLaneDown_east_breaks {i : BitVec 64} {rest : List (BitVec 64)} (member : inRing s.brim = true)
    (east : s.brim.east = i :: rest) (other : i ≠ s.fuse.brimId) :
    Gives (.brimLaneDown .east) s fun t =>
      t.brim.east = [] ∧ t.brim.restoreDue = true ∧
      Out.brim 2 (leBytes 8 s.fuse.brimId.toNat ++ leBytes 8 i.toNat) ∈ t.out ∧
      (s.brim.west = [] → t.brim.st = .alone ∧ t.brim.leader = none) ∧
      (s.brim.west ≠ [] → t.brim.st = .line) ∧
      (∀ l, s.brim.leader = some l → myNum s ≠ some l → s.brim.members.getD l 0 ∉ s.brim.west → t.brim.fresh = false) := by
  have cutEast : eastCut (withoutEast s) s.fuse.brimId i = [] := by
    unfold eastCut
    rw [show (withoutEast s).brim.east = i :: rest from east, cutPath]
    exact if_pos (by simp [withoutEast, setBrim])
  have broken := ringBreak_broken (s := withoutEast s) (a := s.fuse.brimId) (b := i) member
    (.inl (by rw [cutEast, show (withoutEast s).brim.east = i :: rest from east]; exact List.cons_ne_nil _ _ |>.symm))
  rw [cutEast] at broken
  obtain ⟨noEast, -, due⟩ := broken.paths
  refine ⟨_, execBrimLaneDown_east_joined (by rw [east]; rfl) member, noEast, due, List.mem_cons_self, fun none_ => ?_,
    fun some_ => ?_, fun l leader apart gone => ?_⟩
  · have cutWest : westCut (withoutEast s) s.fuse.brimId i = [] := by
      unfold westCut
      rw [show (withoutEast s).brim.west = [] from none_, cutPath]
    rw [cutWest] at broken
    exact broken.alone
  · have cutWest : westCut (withoutEast s) s.fuse.brimId i ≠ [] :=
      cutPath_ne_nil some_ fun x => decide_eq_false fun h => other h.2.symm
    exact broken.st.trans (if_neg fun h => cutWest h.2)
  · exact broken.holds leader apart List.not_mem_nil fun mem => gone (mem_of_mem_cutPath mem)

theorem brimLaneDown_west_breaks {i : BitVec 64} {rest : List (BitVec 64)} (member : inRing s.brim = true)
    (west : s.brim.west = i :: rest) (other : i ≠ s.fuse.brimId) :
    Gives (.brimLaneDown .west) s fun t =>
      t.brim.west = [] ∧ t.brim.restoreDue = true ∧
      Out.brim 2 (leBytes 8 i.toNat ++ leBytes 8 s.fuse.brimId.toNat) ∈ t.out ∧
      (s.brim.east = [] → t.brim.st = .alone ∧ t.brim.leader = none) ∧
      (s.brim.east ≠ [] → t.brim.st = .line) ∧
      (∀ l, s.brim.leader = some l → myNum s ≠ some l → s.brim.members.getD l 0 ∉ s.brim.east → t.brim.fresh = false) := by
  have cutWest : westCut (withoutWest s) i s.fuse.brimId = [] := by
    unfold westCut
    rw [show (withoutWest s).brim.west = i :: rest from west, cutPath]
    exact if_pos (by simp [withoutWest, setBrim])
  have broken := ringBreak_broken (s := withoutWest s) (a := i) (b := s.fuse.brimId) member
    (.inr (by rw [cutWest, show (withoutWest s).brim.west = i :: rest from west]; exact List.cons_ne_nil _ _ |>.symm))
  rw [cutWest] at broken
  obtain ⟨-, noWest, due⟩ := broken.paths
  refine ⟨_, execBrimLaneDown_west_joined (by rw [west]; rfl) member, noWest, due, List.mem_cons_self, fun none_ => ?_,
    fun some_ => ?_, fun l leader apart gone => ?_⟩
  · have cutEast : eastCut (withoutWest s) i s.fuse.brimId = [] := by
      unfold eastCut
      rw [show (withoutWest s).brim.east = [] from none_, cutPath]
    rw [cutEast] at broken
    exact broken.alone
  · have cutEast : eastCut (withoutWest s) i s.fuse.brimId ≠ [] :=
      cutPath_ne_nil some_ fun x => decide_eq_false fun h => other h.1.symm
    exact broken.st.trans (if_neg fun h => cutEast h.1)
  · exact broken.holds leader apart (fun mem => gone (mem_of_mem_cutPath mem)) List.not_mem_nil

/-! ## Exchanges -/

theorem buildOut_brim {delta : Int} (fits : buildOut s delta = some t) : t.brim = s.brim := by
  unfold buildOut at fits
  split at fits
  · cases fits
    rfl
  · split at fits
    · cases fits
      rfl
    · split at fits
      · cases fits
        rfl
      · cases fits

/-- A ring offset is taken or refused; nothing else of the ring changes. -/
theorem ringOffset_brim (s : State) (o : Int) : ∃ offset fresh new,
    (ringOffset s o).brim = { s.brim with offset := offset, fresh := fresh, leadNew := new } := by
  unfold ringOffset
  extract_lets old s1
  split
  · split
    · next fits => exact ⟨o, true, false, (sourceChanged_brim ..).trans (buildOut_brim fits)⟩
    · exact ⟨s.brim.offset, false, true, (sourceChanged_brim ..).trans (raiseLim_brim ..)⟩
  · exact ⟨o, true, false, sourceChanged_brim ..⟩

theorem ringOffset_brim_settled (settled : s.brim.leadNew = false) (o : Int) :
    (ringOffset s o).brim = { s.brim with offset := o, fresh := true, leadNew := false } := by
  unfold ringOffset
  rw [settled]
  exact sourceChanged_brim ..

/-- The ring after an exchange by BRIM_E or by BRIM_W. -/
def exchangedEast (s : State) (e : Exchange) : State :=
  setBrim s { s.brim with delayE := exchangeDelay e, hopE := exchangeOffset e (rsf s 0x1200088 0 32) }

def exchangedWest (s : State) (e : Exchange) : State :=
  setBrim s { s.brim with delayW := exchangeDelay e, hopW := exchangeOffset e (rsf s 0x120008C 0 32) }

/-- The sum that an exchange completes reaches the servo of a member. -/
def sumTaken (s : State) (sum : Option Int) : State :=
  match sum with
  | some r => if brimMember s then ringOffset s r else s
  | none => s

theorem execBrimExchange_east (up : s.brim.upE = true) (e : Exchange) (o : Option Int) :
    execBrimExchange .east e o s = .next (sumTaken (exchangedEast s e) (ringSum (exchangedEast s e) false o)) := by
  unfold execBrimExchange
  dsimp -zeta only
  extract_lets d east
  have east_ : east = true := rfl
  rw [east_]
  simp only [if_true, up]
  rfl

theorem execBrimExchange_west (up : s.brim.upW = true) (e : Exchange) (o : Option Int) :
    execBrimExchange .west e o s = .next (sumTaken (exchangedWest s e) (ringSum (exchangedWest s e) true o)) := by
  unfold execBrimExchange
  dsimp -zeta only
  extract_lets d east
  have west_ : east = false := rfl
  rw [west_]
  simp only [Bool.false_eq_true, if_false, up, if_true]
  rfl

theorem sumTaken_brim (s : State) (sum : Option Int) : ∃ offset fresh new,
    (sumTaken s sum).brim = { s.brim with offset := offset, fresh := fresh, leadNew := new } := by
  unfold sumTaken
  split
  · split
    · exact ringOffset_brim ..
    · exact ⟨s.brim.offset, s.brim.fresh, s.brim.leadNew, rfl⟩
  · exact ⟨s.brim.offset, s.brim.fresh, s.brim.leadNew, rfl⟩

theorem sumTaken_brim_member (member : brimMember s = true) (settled : s.brim.leadNew = false) (r : Int) :
    (sumTaken s (some r)).brim = { s.brim with offset := r, fresh := true, leadNew := false } := by
  unfold sumTaken
  dsimp only
  rw [if_pos member, ringOffset_brim_settled settled]

theorem brimExchange_mit (up : s.mit.linkUp = true) (e : Exchange) (o : Option Int) :
    Gives (.brimExchange .mit e o) s fun t =>
      t.mit.delay = ((e.t2 - e.t1) + (e.t4 - e.t3)) / 2 ∧
      t.mit.offset = ((e.t2 - e.t1) - (e.t4 - e.t3)) / 2 - rsf s 0x1300020 0 32 := by
  refine ⟨_, rfl, ?_⟩
  dsimp only
  rw [if_pos up]
  split <;> exact ⟨rfl, rfl⟩

theorem brimExchange_east_measures (up : s.brim.upE = true) (e : Exchange) (o : Option Int) :
    Gives (.brimExchange .east e o) s fun t =>
      t.brim.delayE = ((e.t2 - e.t1) + (e.t4 - e.t3)) / 2 ∧
      t.brim.hopE = ((e.t2 - e.t1) - (e.t4 - e.t3)) / 2 - rsf s 0x1200088 0 32 := by
  refine ⟨_, execBrimExchange_east up e o, ?_⟩
  obtain ⟨offset, fresh, new, brim⟩ := sumTaken_brim (exchangedEast s e) (ringSum (exchangedEast s e) false o)
  rw [brim]
  exact ⟨rfl, rfl⟩

theorem brimExchange_west_measures (up : s.brim.upW = true) (e : Exchange) (o : Option Int) :
    Gives (.brimExchange .west e o) s fun t =>
      t.brim.delayW = ((e.t2 - e.t1) + (e.t4 - e.t3)) / 2 ∧
      t.brim.hopW = ((e.t2 - e.t1) - (e.t4 - e.t3)) / 2 - rsf s 0x120008C 0 32 := by
  refine ⟨_, execBrimExchange_west up e o, ?_⟩
  obtain ⟨offset, fresh, new, brim⟩ := sumTaken_brim (exchangedWest s e) (ringSum (exchangedWest s e) true o)
  rw [brim]
  exact ⟨rfl, rfl⟩

/-- By BRIM_E the sum of a member whose leader lies there is the hop, and what the neighbour adds beyond it. -/
theorem ringSum_east {l n : Nat} (e : Exchange) (o : Option Int) (leader : s.brim.leader = some l)
    (path : pathTo s.brim (s.brim.members.getD l 0) = some (n, false)) :
    ringSum (exchangedEast s e) false o =
      if n = 1 then some (-(exchangedEast s e).brim.hopE) else o.map fun r => r - (exchangedEast s e).brim.hopE := by
  have path' : pathTo (exchangedEast s e).brim ((exchangedEast s e).brim.members.getD l 0) = some (n, false) := path
  unfold ringSum
  rw [show (exchangedEast s e).brim.leader = some l from leader]
  dsimp only
  rw [path']
  rfl

theorem brimExchange_east_follows {l n : Nat} (e : Exchange) (o : Option Int) (up : s.brim.upE = true)
    (member : brimMember s = true) (leader : s.brim.leader = some l) (settled : s.brim.leadNew = false)
    (path : pathTo s.brim (s.brim.members.getD l 0) = some (n, false)) :
    let hop := ((e.t2 - e.t1) - (e.t4 - e.t3)) / 2 - rsf s 0x1200088 0 32
    Gives (.brimExchange .east e o) s fun t =>
      (n = 1 → t.brim.offset = -hop ∧ t.brim.fresh = true) ∧
      (n ≠ 1 → ∀ r, o = some r → t.brim.offset = r - hop ∧ t.brim.fresh = true) := by
  intro hop
  have taken (r : Int) := sumTaken_brim_member (s := exchangedEast s e) member settled r
  refine ⟨_, execBrimExchange_east up e o, fun near => ?_, fun far r beyond => ?_⟩
  · rw [ringSum_east e o leader path, if_pos near, taken]
    exact ⟨rfl, rfl⟩
  · rw [ringSum_east e o leader path, if_neg far, beyond, Option.map_some, taken]
    exact ⟨rfl, rfl⟩

/-- Settles O41: lanes come up and go down, and each exchange gives a delay and an offset. -/
theorem brimLanesExchange : Obligations.BrimLanesExchange := by
  refine ⟨fun s on => brimLaneUp_raises on, brimLaneDown_drops,
    fun s i rest member east other => brimLaneDown_east_breaks member east other,
    fun s i rest member west other => brimLaneDown_west_breaks member west other,
    fun s e o up => brimExchange_mit up e o, fun s e o up => brimExchange_east_measures up e o,
    fun s e o up => brimExchange_west_measures up e o,
    fun s e o l n up member leader settled path => brimExchange_east_follows e o up member leader settled path,
    fun s member => ⟨_, rfl, ?_⟩⟩
  rw [if_pos member]
  exact (sourceChanged_brim ..).trans (raiseN_brim ..)

end Sys2Proof.Machine
end

section
/-! SUPPORT. O42: the leader of the Brim ring, its token and control messages (R412 to R416). -/

namespace Sys2Proof.Machine

variable {s t u : State}

/-! ## Completions on any ring -/

/-- A completion on a running ring takes the descriptor that it answers off those fetched, event ring or not. -/
theorem complete_takes {r : Nat} (running : (ringOf s r).st = .running) (idx status : Nat) (body : Bytes) :
    Completed s (complete s r idx status body) r idx := by
  unfold Completed complete
  dsimp only
  rw [if_pos (.inl running), ring_fetched_of_hostView (hostView_flushCompl ..), ringOf_setRing]

theorem Completed.of_hostView {r idx : Nat} (same : hostView u = hostView s) (h : Completed u t r idx) :
    Completed s t r idx := by
  unfold Completed at *
  rw [h, ring_fetched_of_hostView same]

/-! ## Election -/

@[simp] theorem takeLeader_leader (s : State) (l : Option Nat) : (takeLeader s l).brim.leader = l := by
  unfold takeLeader
  split
  · assumption
  · rw [sourceChanged_brim, raiseN_brim]
    rfl

@[simp] theorem takeLeader_eqls (s : State) (l : Option Nat) : (takeLeader s l).brim.eqls = s.brim.eqls := by
  unfold takeLeader
  split
  · rfl
  · rw [sourceChanged_brim, raiseN_brim]
    rfl

@[simp] theorem elect_leader (s : State) (w : Option Nat) : (elect s w).brim.leader = w := by
  unfold elect
  split
  · assumption
  · exact takeLeader_leader ..

@[simp] theorem elect_eqls (s : State) (w : Option Nat) : (elect s w).brim.eqls = s.brim.eqls := by
  unfold elect
  split
  · rfl
  · exact takeLeader_eqls ..

theorem elect_reports {w : Nat} (new : s.brim.leader ≠ some w) : Out.brim 1 (leBytes 1 w) ∈ (elect s (some w)).out := by
  unfold elect
  rw [if_neg new]
  exact List.mem_cons_self

/-- The state whose ring has taken the reported qualities. -/
def reported (s : State) (q : List (Fin 16)) : State :=
  sourceChanged s (setBrim s { s.brim with eqls := electionQls s q })

theorem reported_brim (s : State) (q : List (Fin 16)) :
    (reported s q).brim = { s.brim with eqls := electionQls s q } := sourceChanged_brim ..

/-- What an election makes of a state that has taken the reported qualities (R412). -/
def elected (s s1 : State) (w : Option Nat) : State :=
  if leaderGone s then elect s1 w
  else if w = s.brim.leader ∨ w = none then setBrim s1 { s1.brim with winner := none, streak := 0 }
  else
    let n := if s.brim.winner = w then s.brim.streak + 1 else 1
    if 3 ≤ n then elect s1 w else setBrim s1 { s1.brim with winner := w, streak := n }

theorem execBrimElection_member (member : inRing s.brim = true) (q : List (Fin 16)) (el : List Bool) :
    execBrimElection q el s = .next (elected s (reported s q) (bestMember s (electionQls s q) el)) := by
  unfold execBrimElection
  rw [if_pos member]
  rfl

theorem elected_eqls (s s1 : State) (w : Option Nat) : (elected s s1 w).brim.eqls = s1.brim.eqls := by
  unfold elected
  extract_lets n
  split
  · exact elect_eqls ..
  · split
    · rfl
    · split
      · exact elect_eqls ..
      · rfl

theorem elected_gone {s1 : State} (gone : leaderGone s = true) (w : Option Nat) :
    (elected s s1 w).brim.leader = w := by
  unfold elected
  rw [if_pos gone]
  exact elect_leader ..

/-- A winner beside the leader that is here is counted. -/
theorem elected_counts {s1 : State} {w : Nat} (here : leaderGone s = false) (new : s.brim.leader ≠ some w) :
    elected s s1 (some w) =
      if 3 ≤ (if s.brim.winner = some w then s.brim.streak + 1 else 1) then elect s1 (some w)
      else setBrim s1 { s1.brim with winner := some w,
                                     streak := if s.brim.winner = some w then s.brim.streak + 1 else 1 } := by
  have other : ¬(some w = s.brim.leader ∨ some w = none) := by
    rintro (same | none_)
    · exact new same.symm
    · exact Option.some_ne_none w none_
  unfold elected
  dsimp only
  rw [if_neg (by simp [here]), if_neg other]

theorem brimElection_counts {q : List (Fin 16)} {el : List Bool} {w : Nat} (member : inRing s.brim = true)
    (here : leaderGone s = false) (best : bestMember s (electionQls s q) el = some w) (new : s.brim.leader ≠ some w) :
    (s.brim.winner = some w → 2 ≤ s.brim.streak →
      Gives (.brimElection q el) s fun t => t.brim.leader = some w ∧ Out.brim 1 (leBytes 1 w) ∈ t.out) ∧
    (s.brim.winner = some w → s.brim.streak < 2 →
      Gives (.brimElection q el) s fun t => t.brim.leader = s.brim.leader ∧ t.brim.streak = s.brim.streak + 1) ∧
    (s.brim.winner ≠ some w →
      Gives (.brimElection q el) s fun t =>
        t.brim.leader = s.brim.leader ∧ t.brim.winner = some w ∧ t.brim.streak = 1) := by
  have run := execBrimElection_member member q el
  rw [best, elected_counts here new] at run
  have brim := reported_brim s q
  refine ⟨fun again enough => ⟨_, run, ?_⟩, fun again few => ⟨_, run, ?_⟩, fun first => ⟨_, run, ?_⟩⟩
  · rw [if_pos again, if_pos (by omega)]
    exact ⟨elect_leader .., elect_reports (by rw [brim]; exact new)⟩
  · rw [if_pos again, if_neg (by omega)]
    exact ⟨(congrArg Brim.leader brim :), rfl⟩
  · rw [if_neg first, if_neg (by omega)]
    exact ⟨(congrArg Brim.leader brim :), rfl, rfl⟩

/-! ## The token -/

/-- The state that holds the token which has arrived. -/
def holding (s : State) (next : BitVec 16) (ns : Nat) : State :=
  setBrim s { s.brim with tokenSeq := next, token := true, rotNs := ns }

theorem execBrimTokenArrive_takes {seq : BitVec 16} (member : inRing s.brim = true)
    (fresh : ¬(leads s = true ∧ 0 < (s.brim.tokenSeq - seq).toNat ∧ (s.brim.tokenSeq - seq).toNat < 0x8000))
    (side : BrimSide) (ns : Nat) :
    execBrimTokenArrive side seq ns s = .next (passToken
      (sendWaiting (holding s (if leads s then seq + 1 else seq) ns)) side (if leads s then seq + 1 else seq)) := by
  unfold execBrimTokenArrive
  rw [if_pos member]
  dsimp only
  rw [if_neg (by simpa using fresh)]
  rfl

/-- A message that is sent, or none, leaves the ring but for the queue as it is. -/
theorem sendWaiting_brim (s : State) : ∃ txq, (sendWaiting s).brim = { s.brim with txq := txq } := by
  unfold sendWaiting
  dsimp only
  split
  · exact ⟨[], rfl⟩
  · next m ms _ => exact ⟨ms, complete_brim ..⟩

theorem brimTokenArrive_passes {side : BrimSide} {seq : BitVec 16} {ns : Nat} (member : inRing s.brim = true)
    (fresh : ¬(leads s = true ∧ 0 < (s.brim.tokenSeq - seq).toNat ∧ (s.brim.tokenSeq - seq).toNat < 0x8000)) :
    let next := if leads s then seq + 1 else seq
    Gives (.brimTokenArrive side seq ns) s fun t =>
      t.brim.tokenSeq = next ∧ t.brim.token = true ∧ t.brim.rotNs = ns ∧
      t.out.head? = some (.brimToken
        (if side = .west then decide (s.brim.east ≠ []) else decide (s.brim.west = [])) next) := by
  intro next
  obtain ⟨txq, brim⟩ := sendWaiting_brim (holding s next ns)
  refine ⟨_, execBrimTokenArrive_takes member fresh side ns, ?_⟩
  have paths : (sendWaiting (holding s next ns)).brim.east = s.brim.east ∧
      (sendWaiting (holding s next ns)).brim.west = s.brim.west := by
    rw [brim]
    exact ⟨rfl, rfl⟩
  refine ⟨congrArg Brim.tokenSeq brim, congrArg Brim.token brim, congrArg Brim.rotNs brim, ?_⟩
  unfold passToken emit
  dsimp only
  rw [paths.1, paths.2]
  cases side with
  | east => rfl
  | west => rfl

theorem brimTokenArrive_sends {side : BrimSide} {seq : BitVec 16} {ns : Nat} {m : BrimTx} {ms : List BrimTx}
    (member : inRing s.brim = true) (follows_ : leads s = false) (waiting : s.brim.txq = m :: ms)
    (live : ∀ n ∈ s.brim.txq, ∃ x ∈ (ringOf s n.ring).fetched, x.idx = n.idx) :
    Gives (.brimTokenArrive side seq ns) s fun t =>
      Out.brimMsg m.dest m.data ∈ t.out ∧ t.brim.txq = ms ∧
      ((ringOf s m.ring).st = .running → Completed s t m.ring m.idx) := by
  have stand_ : ∀ n ∈ s.brim.txq, ((ringOf s n.ring).fetched.any fun x => decide (x.idx = n.idx)) = true := fun n mem => by
    obtain ⟨x, here, same⟩ := live n mem
    exact List.any_eq_true.mpr ⟨x, here, decide_eq_true same⟩
  have all_ : (s.brim.txq.filter fun n => (ringOf s n.ring).fetched.any fun x => decide (x.idx = n.idx)) = m :: ms :=
    (List.filter_eq_self.mpr stand_).trans waiting
  have sent (next : BitVec 16) : sendWaiting (holding s next ns) =
      complete (emit (setBrim (holding s next ns) { (holding s next ns).brim with txq := ms }) (.brimMsg m.dest m.data))
        m.ring m.idx stOk m.body := by
    unfold sendWaiting
    rw [show ((holding s next ns).brim.txq.filter fun n =>
      (ringOf (holding s next ns) n.ring).fetched.any fun x => decide (x.idx = n.idx)) = m :: ms from all_]
  have done (u : State) (same : u.hif = s.hif) (running : (ringOf s m.ring).st = .running) :
      Completed s (complete u m.ring m.idx stOk m.body) m.ring m.idx :=
    .of_hostView (hostView_of_hif same)
      (complete_takes ((ring_st_of_hostView (hostView_of_hif same) _).trans running) ..)
  refine ⟨_, execBrimTokenArrive_takes member (fun h => by simp [follows_] at h) side ns, ?_⟩
  rw [sent]
  refine ⟨List.mem_cons_of_mem _ (mem_out_of_told ?_), congrArg Brim.txq (complete_brim ..),
    done _ rfl⟩
  rw [told_complete, told_emit _ rfl]
  exact List.mem_cons_self

theorem exec_brimTokenArrive_stale {side : BrimSide} {seq : BitVec 16} {ns : Nat} (leader : leads s = true)
    (older : 0 < (s.brim.tokenSeq - seq).toNat) (near : (s.brim.tokenSeq - seq).toNat < 0x8000) :
    exec (.brimTokenArrive side seq ns) s = .next s := by
  show execBrimTokenArrive side seq ns s = _
  unfold execBrimTokenArrive
  split
  · dsimp only
    rw [if_pos (by simp only [leader, Bool.true_and]; exact decide_eq_true ⟨older, near⟩)]
  · rfl

theorem brimTokenRegen_renews (leader : leads s = true) :
    Gives .brimTokenRegen s fun t =>
      t.brim.tokenSeq = s.brim.tokenSeq + 1 ∧ t.brim.token = true ∧ Counted s t 0x12000A0 1 ∧
      t.out.head? = some (.brimToken (decide (s.brim.east ≠ [])) (s.brim.tokenSeq + 1)) := by
  refine ⟨_, rfl, ?_⟩
  unfold regenToken
  rw [if_pos leader]
  extract_lets brim0 s1
  have brim : s1.brim = { s.brim with token := true, tokenSeq := s.brim.tokenSeq + 1 } :=
    (raiseN_brim ..).trans (bump_brim ..)
  have counted : Counted s s1 0x12000A0 1 := .raiseN (.of_rd (u := setBrim s _) rfl (bump_counted _ 1 (by decide))) 349 0 [] rfl
  refine ⟨congrArg Brim.tokenSeq brim, congrArg Brim.token brim, counted, ?_⟩
  unfold passToken emit
  dsimp only
  rw [brim]
  rfl

/-! ## Control messages -/

theorem brimControlMessage_ringBreak {a b : BitVec 64} (member : inRing s.brim = true) :
    (eastCut s a b ≠ s.brim.east ∨ westCut s a b ≠ s.brim.west →
      Gives (.brimControlMessage (.ringBreak a b)) s fun t =>
        t.brim.east = eastCut s a b ∧ t.brim.west = westCut s a b ∧ t.brim.restoreDue = true ∧
        t.brim.st = if eastCut s a b = [] ∧ westCut s a b = [] then .alone else .line) ∧
    (eastCut s a b = s.brim.east → westCut s a b = s.brim.west →
      exec (.brimControlMessage (.ringBreak a b)) s = .next s) := by
  have run : exec (.brimControlMessage (.ringBreak a b)) s = .next (ringBreak s a b) := by
    show execBrimControlMessage (.ringBreak a b) s = _
    unfold execBrimControlMessage
    rw [if_pos member]
  constructor
  · intro cut
    have broken := ringBreak_broken member cut
    obtain ⟨east, west, due⟩ := broken.paths
    exact ⟨_, run, east, west, due, broken.st⟩
  · intro east west
    rw [run]
    unfold ringBreak
    exact congrArg Host.Outcome.next (if_pos (.inr ⟨east, west⟩))

/-- Settles O42: election, token and control messages. -/
theorem brimLeaderAndToken : Obligations.BrimLeaderAndToken := by
  refine ⟨fun s q el member gone => ⟨_, execBrimElection_member member q el, elected_gone gone _⟩,
    fun s q el w member here best new => brimElection_counts member here best new,
    fun s q el member => ⟨_, execBrimElection_member member q el, ?_⟩,
    fun s side seq ns member fresh => brimTokenArrive_passes member fresh,
    fun s side seq ns m ms member follows_ waiting live => brimTokenArrive_sends member follows_ waiting live,
    fun s side seq ns leader older near => exec_brimTokenArrive_stale leader older near,
    fun s leader => brimTokenRegen_renews leader, fun s l member => ⟨_, rfl, ?_⟩,
    fun s a b member => brimControlMessage_ringBreak member, fun s => ?_⟩
  · exact (elected_eqls ..).trans (congrArg Brim.eqls (reported_brim s q))
  · rw [if_pos member]
    exact takeLeader_leader ..
  · show execBrimControlMessage .takeover s = _
    unfold execBrimControlMessage
    split
    · rfl
    · rfl

end Sys2Proof.Machine
end

section
/-! SUPPORT. O43: host messages over the ring and the Mitten lane (R413, R417). -/

namespace Sys2Proof.Machine

variable {s t u : State}

/-! ## A completion after accesses to host memory -/

/-- What keeps the host's view of the rings leaves the descriptor to its completion. -/
theorem complete_takes_after {r : Nat} (same : hostView u = hostView s) (running : (ringOf s r).st = .running)
    (idx status : Nat) (body : Bytes) : Completed s (complete u r idx status body) r idx :=
  .of_hostView same (complete_takes ((ring_st_of_hostView same r).trans running) ..)

/-- A completion leaves what a write to host memory has put out. -/
theorem hostWrite_mem_complete (s : State) (r idx addr i status : Nat) (b body : Bytes) :
    ∃ tl, Out.hostWrite r idx tl b ∈ (complete (hostWrite s r idx addr b) r i status body).out := by
  obtain ⟨tlps, told⟩ := told_hostWrite s r idx addr b
  exact ⟨tlps, mem_out_of_told (by rw [told_complete, told]; exact List.mem_cons_self)⟩

/-! ## Send descriptors -/

/-- The length of the message that a send descriptor names, and its destination. -/
def sendLen (x : Fetched) : Nat := fld (descWord x.desc 2) 0 16
def sendDest (x : Fetched) : Nat := fld (descWord x.desc 2) 16 4

section
variable {r : Nat} {x : Fetched} {b : Bytes} {ok : Nat → Bool} {f : Nat → Bytes → Bytes → State → State}

theorem sendMsg_sends (least : 1 ≤ sendLen x) (most : sendLen x ≤ 240) (reached : ok (sendDest x) = true) :
    sendMsg s r x (some b) ok f = f (sendDest x) (msgBody 0x61 0 (sendLen x) (descWord x.desc 5)) (subPad b 0 (sendLen x))
      (hostRead s r x.idx (descAddr x.desc 0) (sendLen x)) := by
  unfold sendMsg
  refine (if_neg (c := sendLen x = 0 ∨ 240 < sendLen x) (by omega)).trans ?_
  exact if_neg (c := ok (sendDest x) = false) (by simp [reached])

theorem sendMsg_unreached (least : 1 ≤ sendLen x) (most : sendLen x ≤ 240) (lost : ok (sendDest x) = false) :
    sendMsg s r x (some b) ok f =
      complete s r x.idx stNotReady (msgBody 0x61 0 (sendLen x) (descWord x.desc 5)) := by
  unfold sendMsg
  refine (if_neg (c := sendLen x = 0 ∨ 240 < sendLen x) (by omega)).trans ?_
  exact if_pos (c := ok (sendDest x) = false) lost

theorem sendMsg_malformed (len : sendLen x = 0 ∨ 240 < sendLen x) :
    sendMsg s r x (some b) ok f =
      complete s r x.idx stDescErr (msgBody 0x61 0 (sendLen x) (descWord x.desc 5)) := by
  unfold sendMsg
  exact if_pos len

end

theorem hostRead_brim (s : State) (r idx addr n : Nat) : (hostRead s r idx addr n).brim = s.brim := pmcSignal_brim ..

/-! ## Over the ring -/

/-- The message that waits for the token after its descriptor is taken. -/
def ringMessage (r : Nat) (x : Fetched) (b : Bytes) : BrimTx :=
  { ring := r, idx := x.idx, dest := sendDest x, body := msgBody 0x61 0 (sendLen x) (descWord x.desc 5),
    data := subPad b 0 (sendLen x) }

section
variable {r : Fin 256} {x : Fetched}

theorem execBrimMsgSend_front (low : 176 ≤ r.val) (high : r.val ≤ 183) (even : r.val % 2 = 0)
    (next : nextSend s r = some x) (data : Option Bytes) :
    execBrimMsgSend r data s = .next (sendMsg s r x data (destOk s.brim) fun dest body b t =>
      setBrim t { t.brim with txq := t.brim.txq ++ [{ ring := r, idx := x.idx, dest := dest, body := body, data := b }] }) := by
  unfold execBrimMsgSend
  rw [if_pos ⟨low, high, even⟩, next]

theorem brimMsgSend_runs (b : Bytes) (low : 176 ≤ r.val) (high : r.val ≤ 183) (even : r.val % 2 = 0)
    (next : nextSend s r = some x) :
    (1 ≤ sendLen x → sendLen x ≤ 240 → destOk s.brim (sendDest x) = true →
      Gives (.brimMsgSend r (some b)) s fun t =>
        t.brim = { s.brim with txq := s.brim.txq ++ [ringMessage r x b] } ∧
          (ringOf t r).fetched = (ringOf s r).fetched) ∧
    (1 ≤ sendLen x → sendLen x ≤ 240 → destOk s.brim (sendDest x) = false → (ringOf s r).st = .running →
      Gives (.brimMsgSend r (some b)) s fun t => Completed s t r x.idx ∧ t.brim = s.brim) ∧
    (sendLen x = 0 ∨ 240 < sendLen x → (ringOf s r).st = .running →
      Gives (.brimMsgSend r (some b)) s fun t => Completed s t r x.idx ∧ t.brim = s.brim) := by
  have run := execBrimMsgSend_front low high even next (some b)
  refine ⟨fun least most reached => ⟨_, run, ?_⟩, fun least most lost running => ⟨_, run, ?_⟩,
    fun len running => ⟨_, run, ?_⟩⟩
  · rw [sendMsg_sends least most reached]
    have brim : (hostRead s r x.idx (descAddr x.desc 0) (sendLen x)).brim = s.brim := hostRead_brim ..
    refine ⟨?_, ring_fetched_of_hostView (hostView_hostRead s r x.idx (descAddr x.desc 0) (sendLen x)) r⟩
    rw [brim]
    rfl
  · rw [sendMsg_unreached least most lost]
    exact ⟨complete_takes running .., complete_brim ..⟩
  · rw [sendMsg_malformed len]
    exact ⟨complete_takes running .., complete_brim ..⟩

end

/-! ## Over the lane -/

theorem mitMsgSend_runs {r : Fin 256} {x : Fetched} {rest : List Fetched} (b : Bytes) (low : 184 ≤ r.val)
    (high : r.val ≤ 191) (even : r.val % 2 = 0) (running : (ringOf s r).st = .running)
    (fetched : (ringOf s r).fetched = x :: rest) (least : 1 ≤ sendLen x) (most : sendLen x ≤ 240)
    (en : s.mit.en = true) (up : s.mit.linkUp = true) :
    Gives (.mitMsgSend r (some b)) s fun t =>
      Out.brim 4 (subPad b 0 (sendLen x)) ∈ t.out ∧ Completed s t r x.idx := by
  refine ⟨_, rfl, ?_⟩
  rw [if_pos ⟨low, high, even⟩, fetched]
  dsimp only
  rw [sendMsg_sends least most (by rw [en, up]; rfl)]
  have same (o : Out) : hostView (emit (hostRead s r x.idx (descAddr x.desc 0) (sendLen x)) o) = hostView s :=
    (hostView_of_hif rfl).trans (hostView_hostRead ..)
  refine ⟨mem_out_of_told ?_, complete_takes_after (same _) running ..⟩
  rw [told_complete, told_emit _ rfl]
  exact List.mem_cons_self

/-! ## Messages that arrive -/

section
variable {r : Nat} {x : Fetched} {rest : List Fetched}

theorem recvMsg_taken (running : (ringOf s r).st = .running) (fetched : (ringOf s r).fetched = x :: rest) (src : Nat)
    (b : Bytes) :
    (∃ tl, Out.hostWrite r x.idx tl (b.take 256) ∈ (recvMsg s r src b true).out) ∧
      Completed s (recvMsg s r src b true) r x.idx := by
  have taken : recvMsg s r src b true = complete (hostWrite s r x.idx (descAddr x.desc 0) (b.take 256)) r x.idx stOk
      (msgBody 0x62 src (b.take 256).length 0) := by
    unfold recvMsg
    dsimp only
    rw [running, fetched]
    rfl
  rw [taken]
  exact ⟨hostWrite_mem_complete .., complete_takes_after (hostView_hostWrite ..) running ..⟩

theorem recvMsg_failed (running : (ringOf s r).st = .running) (fetched : (ringOf s r).fetched = x :: rest) (src : Nat)
    (b : Bytes) : Completed s (recvMsg s r src b false) r x.idx := by
  unfold recvMsg
  dsimp only
  rw [running, fetched]
  dsimp only
  rw [if_neg Bool.false_ne_true]
  exact complete_takes_after ((hostView_dmaError ..).trans (hostView_hostWrite ..)) running ..

theorem recvMsg_dropped (empty : (ringOf s r).fetched = []) (src : Nat) (b : Bytes) (ok : Bool) :
    recvMsg s r src b ok = bump s 0x12000AC 1 := by
  unfold recvMsg
  dsimp only
  rw [empty]
  cases (ringOf s r).st <;> rfl

end

/-- Settles O43: messages wait for the token or go out, and one that arrives fills the next buffer of its ring. -/
theorem messagesAreSentAndTaken : Obligations.MessagesAreSentAndTaken := by
  refine ⟨fun s r x b low high even next => brimMsgSend_runs b low high even next,
    fun s r x rest b low high even running fetched least most en up =>
      mitMsgSend_runs b low high even running fetched least most en up,
    fun s r x rest src b low high odd running fetched => ⟨⟨_, rfl, ?_⟩, ⟨_, rfl, ?_⟩⟩,
    fun s r x rest b low high odd running fetched => ⟨⟨_, rfl, ?_⟩, ⟨_, rfl, ?_⟩⟩,
    fun s r b ok low high odd empty => ⟨_, rfl, ?_⟩⟩
  · rw [if_pos ⟨low, high, odd⟩]
    exact recvMsg_taken running fetched src b
  · rw [if_pos ⟨low, high, odd⟩]
    exact recvMsg_failed running fetched src b
  · rw [if_pos ⟨low, high, odd⟩]
    exact recvMsg_taken running fetched 0 b
  · rw [if_pos ⟨low, high, odd⟩]
    exact recvMsg_failed running fetched 0 b
  · rw [if_pos ⟨low, high, odd⟩, recvMsg_dropped empty]
    exact ⟨bump_counted _ 1 (by decide), by rw [bump_regs]⟩

end Sys2Proof.Machine
end

section
/-! SUPPORT. The Mitten unit's state: who changes it, and what a change of it puts out, counts and moves (R418, R424). -/

namespace Sys2Proof.Machine

variable {s t u : State}

/-! ## What a change of the servo's source puts out -/

@[simp] theorem told_userTouch (s : State) : told (userTouch s) = told s := rfl

@[simp] theorem told_noteStep (s : State) (n : Nat) : told (noteStep s n) = told s := by
  unfold noteStep
  split
  · rfl
  · rfl

@[simp] theorem told_refreshServing (s : State) : told (refreshServing s) = told s := by
  unfold refreshServing
  extract_lets a rsp s1 b nts
  have first : told s1 = told s := by
    unfold s1
    split
    · rfl
    · exact told_raiseN ..
  rw [told_ite, first, told_raiseN]
  exact (if_congr Iff.rfl rfl first).trans (ite_self _)

@[simp] theorem told_mitReadyCheck (s : State) : told (mitReadyCheck s) = told s := by
  unfold mitReadyCheck
  dsimp only
  split
  · rw [told_alarmClear, told_raiseN]
    rfl
  · split
    · exact told_raiseN ..
    · rfl

@[simp] theorem told_beginRotation (s : State) (cmd : Option KeyCmd) (first : Bool) :
    told (beginRotation s cmd first) = told s := by
  unfold beginRotation
  split
  · rfl
  · rfl

@[simp] theorem told_setValid (s : State) (v : Bool) : told (setValid s v) = told s := by
  unfold setValid
  extract_lets tb s1 ref s2 s3 s4 nts
  have third : told s3 = told s := by
    have second : told s2 = told s := by
      unfold s2
      split
      · rfl
      · rfl
    unfold s3
    split
    · rw [told_alarmClear, told_raiseSev, second]
    · rw [told_raiseN, second]
  have fourth : told s4 = told s := by
    unfold s4
    rw [told_mitReadyCheck, told_refreshServing, told_userTouch]
    split
    · rw [told_noteStep, third]
    · exact third
  split
  · rfl
  · split
    · exact (told_beginRotation ..).trans fourth
    · exact fourth

@[simp] theorem told_tryRise (s : State) : told (tryRise s) = told s := by
  unfold tryRise
  rw [told_ite, told_setValid, ite_self]

@[simp] theorem told_endHold (s : State) : told (endHold s) = told s := by
  unfold endHold
  split
  · rfl
  · rfl

@[simp] theorem told_servoHold (s : State) : told (servoHold s) = told s := by
  have entered : told (enterHold s) = told s := by
    unfold enterHold
    split
    · rfl
    · rfl
  unfold servoHold
  dsimp only
  split
  · exact entered
  · exact entered

@[simp] theorem told_setRole (s : State) (i role good : Nat) (st : RoleState) : told (setRole s i role good st) = told s := by
  unfold setRole
  dsimp only
  split
  · rfl
  · exact told_raiseN ..

@[simp] theorem told_takeSelection (s : State) (want : Nat) : told (takeSelection s want) = told s := by
  unfold takeSelection
  dsimp only
  rw [told_raiseN]
  split
  · exact told_servoHold ..
  · exact told_endHold ..

/-- A build-out that fits moves the reference and nothing else. -/
theorem buildOut_ref {delta : Int} (fits : buildOut s delta = some t) : t = { s with ref := t.ref } := by
  unfold buildOut at fits
  split at fits
  · cases fits
    rfl
  · split at fits
    · cases fits
      rfl
    · split at fits
      · cases fits
        rfl
      · cases fits

@[simp] theorem told_timeSwitch (s : State) (want : Nat) : told (timeSwitch s want) = told s := by
  unfold timeSwitch
  dsimp only
  split
  · exact told_takeSelection ..
  · split
    · next fits =>
      rw [told_tryRise, told_takeSelection, buildOut_ref fits]
      rfl
    · rw [told_ite, told_takeSelection, ite_self, told_raiseN, told_setRole]

@[simp] theorem told_resumeTime (s : State) : told (resumeTime s) = told s := by
  unfold resumeTime
  dsimp only
  rw [told_ite, told_ite, told_ite, told_takeSelection, told_takeSelection, told_timeSwitch]
  simp only [ite_self]
  exact ite_self _

@[simp] theorem told_sourceChanged (before s : State) : told (sourceChanged before s) = told s := by
  unfold sourceChanged
  extract_lets s1
  have resumed : told s1 = told s := by
    unfold s1
    rw [told_ite, told_resumeTime, ite_self]
  split
  · exact resumed
  · split
    · exact (told_servoHold _).trans resumed
    · exact (told_endHold _).trans resumed

/-! ## The unit's own state -/

/-- Only a standby becomes ready or ceases to be. -/
theorem mitReadyCheck_mit (other : mitStandby s = false) : (mitReadyCheck s).mit = s.mit := by
  simp only [mitStandby, decide_eq_false_iff_not, not_or] at other
  obtain ⟨noStandby, noReady, noIsolated⟩ := other
  unfold mitReadyCheck
  dsimp only
  rw [if_neg (by simp [noStandby, noIsolated]), if_neg (by simp [noReady])]

theorem setValid_mit (other : mitStandby s = false) (v : Bool) : (setValid s v).mit = s.mit := by
  unfold setValid
  extract_lets tb s1 ref s2 s3 s4 nts
  have third : s3.mit = s.mit := by
    have second : s2.mit = s.mit := by
      unfold s2
      split
      · rfl
      · rfl
    unfold s3
    split
    · rw [alarmClear_mit, raiseSev_mit, second]
    · rw [raiseN_mit, second]
  have served : (refreshServing (userTouch (if v && s.ent.ready then noteStep s3 8 else s3))).mit = s.mit := by
    rw [show (refreshServing (userTouch _)).mit = _ from refreshServing_within _ .mit (by decide)]
    show (if v && s.ent.ready then noteStep s3 8 else s3).mit = s.mit
    split
    · unfold noteStep
      split
      · exact third
      · exact third
    · exact third
  have fourth : s4.mit = s.mit := (mitReadyCheck_mit (by rw [mitStandby, served]; exact other)).trans served
  split
  · rfl
  · split
    · unfold beginRotation
      split
      · exact fourth
      · exact fourth
    · exact fourth

theorem tryRise_mit (other : mitStandby s = false) : (tryRise s).mit = s.mit := by
  unfold tryRise
  split
  · exact setValid_mit other true
  · rfl

theorem takeSelection_mit (s : State) (want : Nat) : (takeSelection s want).mit = s.mit :=
  ((within_takeSelection (ps := [.tb, .ref, .dpl]) (by decide) want).2 .refl) .mit (by decide)

theorem timeSwitch_mit (other : mitStandby s = false) (want : Nat) : (timeSwitch s want).mit = s.mit := by
  unfold timeSwitch
  dsimp only
  split
  · exact takeSelection_mit ..
  · split
    · next s1 fits =>
      have same : s1.mit = s.mit := by rw [buildOut_ref fits]
      have taken : (takeSelection s1 want).mit = s.mit := (takeSelection_mit ..).trans same
      exact (tryRise_mit (by rw [mitStandby, taken]; exact other)).trans taken
    · have refused : (raiseN (setRole s want 0 0 .qualifying) 83 want [want]).mit = s.mit :=
        (raiseN_mit ..).trans (((within_setRole (ps := [.ref]) (by decide) ..).2 .refl) .mit (by decide))
      split
      · exact (takeSelection_mit ..).trans refused
      · exact refused

theorem resumeTime_mit (other : mitStandby s = false) : (resumeTime s).mit = s.mit := by
  unfold resumeTime
  dsimp only
  have switched (want : Nat) := timeSwitch_mit (s := { s with ref := { s.ref with tsel := 7 } }) other want
  split
  · split
    · rfl
    · exact takeSelection_mit ..
  · split
    · exact (takeSelection_mit ..).trans (switched _)
    · exact switched _

theorem servoHold_mit (s : State) : (servoHold s).mit = s.mit :=
  ((within_servoHold (ps := [.tb, .dpl]) (by decide)).2 .refl) .mit (by decide)

theorem endHold_mit (s : State) : (endHold s).mit = s.mit :=
  ((within_endHold (ps := [.tb, .dpl]) (by decide)).2 .refl) .mit (by decide)

/-- Time selection resumes only in a unit that is no standby, so that no change of source makes one ready. -/
@[simp] theorem sourceChanged_mit (before s : State) : (sourceChanged before s).mit = s.mit := by
  unfold sourceChanged
  extract_lets s1
  have resumed : s1.mit = s.mit := by
    unfold s1
    split
    · next h => exact resumeTime_mit (Bool.or_eq_false_iff.mp h.2).1
    · rfl
  split
  · exact resumed
  · split
    · exact (servoHold_mit _).trans resumed
    · exact (endHold_mit _).trans resumed

/-- A device that follows keeps the counter when its source changes. -/
theorem sourceChanged_counter (follows_ : follows s = true) (before : State) :
    (sourceChanged before s).tb.counter = s.tb.counter := by
  unfold sourceChanged
  extract_lets s1
  have same : s1 = s := if_neg (by simp [follows_])
  rw [same]
  split
  · rfl
  · split
    · exact (servoHold_holds s).2.1
    · unfold endHold
      split
      · rfl
      · rfl

/-! ## Holds -/

theorem holdsChange_within (s : State) : Within [.lp, .rsp, .nts] s (holdsChange s) :=
  (within_holdsChange (by decide)).2 .refl

theorem releaseReq_regs (s : State) (r : Req) : (releaseReq s r).regs = s.regs ∧ (releaseReq s r).out = s.out := by
  unfold releaseReq occSub
  dsimp only
  split
  · split
    · exact ⟨rfl, rfl⟩
    · exact ⟨rfl, rfl⟩
  · exact ⟨rfl, rfl⟩

theorem released_regs (l : List Req) (s : State) : (l.foldl releaseReq s).regs = s.regs ∧ (l.foldl releaseReq s).out = s.out := by
  induction l generalizing s with
  | nil => exact ⟨rfl, rfl⟩
  | cons r l ih =>
    obtain ⟨regs, out⟩ := ih (releaseReq s r)
    obtain ⟨regs1, out1⟩ := releaseReq_regs s r
    exact ⟨regs.trans regs1, out.trans out1⟩

@[simp] theorem told_loseWaiting (s : State) : told (loseWaiting s) = told s := by
  unfold loseWaiting
  extract_lets n rsp s1
  have released : told s1 = told s := told_of_out (released_regs _ _).2
  split
  · rfl
  · split
    · exact released
    · rw [told_bump, released]

@[simp] theorem told_holdsChange (s : State) : told (holdsChange s) = told s := by
  rw [holdsChange, told_refreshServing, told_loseWaiting]

/-- The end of serving counts the requests that are lost, in one register. -/
theorem rd_holdsChange {a : Nat} (plain : eventReg a = false) (other : a ≠ rspCtr 8) (s : State) :
    rd (holdsChange s) a = rd s a := by
  have lost : rd (loseWaiting s) a = rd s a := by
    unfold loseWaiting
    extract_lets n rsp s1
    have released : rd s1 a = rd s a := congrArg (tget coldWord · a) (released_regs _ _).1
    have noSat : a ≠ 0x1500040 := fun sat => by rw [sat] at plain; exact absurd plain (by decide)
    split
    · rfl
    · split
      · exact released
      · rw [rd_bump_ne _ _ other noSat, released]
  rw [holdsChange, rd_of_plainRegs (plainRegs_refreshServing _) plain, lost]

/-! ## A change of state -/

/-- What a change of state leaves of the unit. -/
structure MitMoved (m n : Mit) (st : MitState) : Prop where
  moved : ∃ got serving lock relinquish since, n = { m with
    st := st, gotMirror := got, serving := serving, lock := lock, relinquish := relinquish, since := since }

theorem mitTo_moved (s : State) (st : MitState) : MitMoved s.mit (mitTo s st).mit st := by
  unfold mitTo
  split
  · next same => exact ⟨_, _, _, _, _, by rw [← same]⟩
  · extract_lets was fresh nts0 mit0 s0 mit1 s1 mit2 s2 s3 s4
    have kept : ∃ got, s0.mit = { s.mit with gotMirror := got } := by
      unfold s0
      split
      · exact ⟨[], rfl⟩
      · exact ⟨s.mit.gotMirror, rfl⟩
    have dated : ∃ since, s2.mit = { s1.mit with since := since } := by
      unfold s2
      split
      · exact ⟨_, rfl⟩
      · exact ⟨s1.mit.since, rfl⟩
    have raised : s4.mit = s2.mit := by
      unfold s4
      split
      · rw [raiseN_mit, raiseN_mit]
      · rw [raiseN_mit]
    obtain ⟨got, kept⟩ := kept
    obtain ⟨since, dated⟩ := dated
    have entered := congrArg (fun m : Mit => { m with
      st := st, serving := decide (st = MitState.pairing) && was, lock := 0, relinquish := false, since := since }) kept
    exact ⟨got, decide (st = MitState.pairing) && was, 0, false, since, Eq.trans (holdsChange_within _ .mit (by decide))
      ((sourceChanged_mit ..).trans (raised.trans (dated.trans entered)))⟩

theorem mitTo_st (s : State) (st : MitState) : (mitTo s st).mit.st = st := by
  obtain ⟨_, _, _, _, _, mit⟩ := (mitTo_moved s st).moved
  rw [mit]

@[simp] theorem told_mitTo (s : State) (st : MitState) : told (mitTo s st) = told s := by
  unfold mitTo
  split
  · rfl
  · extract_lets was fresh nts0 mit0 s0 mit1 s1 mit2 s2 s3 s4
    have kept : told s0 = told s := by
      unfold s0
      split
      · rfl
      · rfl
    have dated : told s2 = told s := by
      unfold s2
      split
      · exact kept
      · exact kept
    have raised : told s4 = told s := by
      unfold s4
      split
      · rw [told_raiseN, told_raiseN, dated]
      · rw [told_raiseN, dated]
    rw [told_holdsChange, told_sourceChanged, raised]

theorem rd_mitTo {a : Nat} (plain : eventReg a = false) (other : a ≠ rspCtr 8) (s : State) (st : MitState) :
    rd (mitTo s st) a = rd s a := by
  unfold mitTo
  split
  · rfl
  · extract_lets was fresh nts0 mit0 s0 mit1 s1 mit2 s2 s3 s4
    have kept : s0.regs = s.regs := by
      unfold s0
      split
      · rfl
      · rfl
    have dated : s2.regs = s.regs := by
      unfold s2
      split
      · exact kept
      · exact kept
    have raised : rd s4 a = rd s a := by
      unfold s4
      split
      · rw [rd_raiseN _ _ _ _ plain, rd_raiseN _ _ _ _ plain, rd, dated, ← rd]
      · rw [rd_raiseN _ _ _ _ plain, rd, dated, ← rd]
    rw [rd_holdsChange plain other, rd_of_plainRegs (plainRegs_sourceChanged ..) plain, raised]

/-! ## Takeover -/

theorem enqueue_reply_kept (s : State) (j : Nat) {i : TxItem} {k : RepKind} (reply : i.src = .reply k) {a : Nat}
    (other : a ≠ lpCnt j + 0x34) (noSat : a ≠ 0x1500040) :
    rd (enqueue s j i) a = rd s a ∧ told (enqueue s j i) = told s := by
  unfold enqueue
  dsimp only
  split
  · exact ⟨rfl, rfl⟩
  · rw [reply]
    exact ⟨rd_bump_ne s 1 other noSat, told_bump ..⟩

theorem announcePort_kept (s : State) (j : Nat) {a : Nat} (other : a ≠ lpCnt j + 0x34) (noSat : a ≠ 0x1500040) :
    rd (announcePort s j) a = rd s a ∧ told (announcePort s j) = told s := by
  have each (l : List Bytes) (u : State) (stamp : Nat) :
      rd (l.foldl (fun t f => enqueue t j (txItem 3 f (.reply .addr) .none stamp)) u) a = rd u a ∧
      told (l.foldl (fun t f => enqueue t j (txItem 3 f (.reply .addr) .none stamp)) u) = told u := by
    induction l generalizing u with
    | nil => exact ⟨rfl, rfl⟩
    | cons f l ih =>
      obtain ⟨regs, out⟩ := ih (enqueue u j (txItem 3 f (.reply .addr) .none stamp))
      obtain ⟨regs1, out1⟩ := enqueue_reply_kept u j (i := txItem 3 f (.reply .addr) .none stamp) rfl other noSat
      exact ⟨regs.trans regs1, out.trans out1⟩
  unfold announcePort
  split
  · exact each ..
  · exact ⟨rfl, rfl⟩

/-- The ports' counters lie below the management port's registers. -/
theorem announced_kept {a : Nat} (above : 0x900000 ≤ a) (noSat : a ≠ 0x1500040) (n : Nat) (few : n ≤ 16) (s : State) :
    rd ((List.range n).foldl announcePort s) a = rd s a ∧ told ((List.range n).foldl announcePort s) = told s := by
  induction n with
  | zero => exact ⟨rfl, rfl⟩
  | succ n ih =>
    obtain ⟨regs, out⟩ := ih (by omega)
    rw [List.range_succ, List.foldl_append, List.foldl_cons, List.foldl_nil]
    have other : a ≠ lpCnt n + 0x34 := by
      unfold lpCnt lpBase
      omega
    obtain ⟨regs1, out1⟩ := announcePort_kept ((List.range n).foldl announcePort s) n other noSat
    exact ⟨regs1.trans regs, out1.trans out⟩

/-- The unit that is to take over: what it knew of its partner's mirror is settled. -/
def takingOver (s : State) : State :=
  setMit { s with nts := { s.nts with staleDown := s.nts.stale } } { s.mit with lastTakeover := nowSec s, toMirror := [] }

theorem takeover_mit (s : State) (alone : Bool) :
    (takeover s alone).mit = (mitTo (takingOver s) (if alone then .activeAlone else .active)).mit := by
  unfold takeover
  extract_lets nts mit s1 s2 s3 s4
  have announced : s3.mit = s2.mit :=
    (within_foldl (ps := [.lp]) (f := announcePort) (fun _ _ => within_announcePort (by decide) _) _).2 .refl .mit (by decide)
  have emitted : s4.mit = s3.mit := by
    unfold s4
    split
    · rfl
    · rfl
  rw [raiseN_mit]
  have last : (if inRing s4.brim then emit s4 (.brim 5 []) else s4).mit = s4.mit := by
    split
    · rfl
    · rfl
  rw [last, emitted, announced]
  exact bump_mit ..

theorem takeover_moved (s : State) (alone : Bool) :
    MitMoved { s.mit with lastTakeover := nowSec s, toMirror := [] } (takeover s alone).mit
      (if alone then .activeAlone else .active) := by
  rw [takeover_mit]
  exact mitTo_moved (takingOver s) _

theorem rd_takeover {a : Nat} (plain : eventReg a = false) (above : 0x900000 ≤ a) (noLost : a ≠ rspCtr 8)
    (noCount : a ≠ 0x1300048) (s : State) (alone : Bool) : rd (takeover s alone) a = rd s a := by
  have noSat : a ≠ 0x1500040 := fun sat => by rw [sat] at plain; exact absurd plain (by decide)
  unfold takeover
  extract_lets nts mit s1 s2 s3 s4
  have announced : rd s3 a = rd s2 a := (announced_kept above noSat 16 (Nat.le_refl _) s2).1
  have emitted : rd s4 a = rd s3 a := by
    unfold s4
    split
    · rfl
    · rfl
  have last : rd (if inRing s4.brim then emit s4 (.brim 5 []) else s4) a = rd s4 a := by
    split
    · rfl
    · rfl
  rw [rd_raiseN _ _ _ _ plain, last, emitted, announced, rd_bump_ne _ _ noCount noSat, rd_mitTo plain noLost]
  rfl

end Sys2Proof.Machine
end

section
/-! SUPPORT. O44: enabling, lanes and pairing of the Mitten pair (R418 to R420). -/

namespace Sys2Proof.Machine

variable {s t u : State}

/-! ## Enable and disable -/

theorem mitEnable_enables (off : s.mit.en = false) :
    Gives .mitEnable s fun t => t.mit = { s.mit with en := true } ∧ rb t 0x1300000 0 = true ∧ unitState t 63 = 0 := by
  refine ⟨_, rfl, ?_⟩
  dsimp only
  rw [if_neg (by simp [off])]
  refine ⟨rfl, ?_, ?_⟩
  · exact (congrArg (flag · 0) (rd_wrf_same s 0x1300000 0 1 1)).trans (flag_putFld_of_mem _ 1 (by omega) (by omega))
  · exact (unitState_setUnit (wrf s 0x1300000 0 1 1) 63 0).trans (if_neg (by simp))

theorem mitDisable_leaves (s : State) : Gives .mitDisable s fun t =>
    t.mit.st = .solo ∧ t.mit.en = false ∧ t.mit.linkUp = false ∧ t.mit.pairKey = none := by
  refine ⟨_, rfl, ?_⟩
  dsimp only
  obtain ⟨got, serving, lock, relinquish, since, mit⟩ := (mitTo_moved (setMit (wrf s 0x1300000 0 1 0)
    { s.mit with en := false, linkUp := false, inbandUp := false, toMirror := [], relinquish := false, paired := false,
                 pairKey := none }) .solo).moved
  rw [mit]
  exact ⟨rfl, rfl, rfl, rfl⟩

/-! ## The lane -/

/-- The unit whose lane is up again; where it had been down before, that is reported. -/
def laneUp (s : State) : State :=
  let s1 := setMit s { s.mit with linkUp := true, wasDown := false }
  if s.mit.wasDown then alarmClear (raiseN s1 359 0 []) 353 else s1

theorem execMitLaneUp_down (on : s.mit.en = true) (down : s.mit.linkUp = false) :
    execMitLaneUp s = .next (mitReadyCheck (sourceChanged s
      (if mitWanted (laneUp s) then sendPairing (laneUp s) else laneUp s))) := by
  unfold execMitLaneUp
  rw [if_neg (by simp [on, down])]
  rfl

theorem laneUp_mit (s : State) : (laneUp s).mit = { s.mit with linkUp := true, wasDown := false } := by
  unfold laneUp
  dsimp only
  split
  · rw [alarmClear_mit, raiseN_mit]
    rfl
  · rfl

theorem laneUp_ent (s : State) : (laneUp s).ent = s.ent ∧ (laneUp s).fuse = s.fuse := by
  unfold laneUp
  dsimp only
  split
  · rw [alarmClear_ent, raiseN_ent, alarmClear_fuse, raiseN_fuse]
    exact ⟨rfl, rfl⟩
  · exact ⟨rfl, rfl⟩

theorem rd_laneUp (s : State) {a : Nat} (plain : eventReg a = false) : rd (laneUp s) a = rd s a := by
  unfold laneUp
  dsimp only
  split
  · exact (congrArg (tget coldWord · a) (alarmClear_regs _ 353)).trans (rd_raiseN _ _ _ _ plain)
  · rfl

theorem mitReadyCheck_keeps (s : State) : ∃ st, (mitReadyCheck s).mit = { s.mit with st := st } := by
  unfold mitReadyCheck
  dsimp only
  split
  · exact ⟨.ready, (alarmClear_mit ..).trans (raiseN_mit ..)⟩
  · split
    · exact ⟨.standby, raiseN_mit ..⟩
    · exact ⟨s.mit.st, rfl⟩

theorem mitReadyCheck_ent (s : State) : (mitReadyCheck s).ent = s.ent :=
  ((within_mitReadyCheck (ps := [.mit]) (by decide)).2 .refl) .ent (by decide)

/-- What a lane that comes up leaves, after the check for readiness. -/
theorem laneUp_settles (u : State) : ∃ st, (mitReadyCheck (sourceChanged s u)).mit = { u.mit with st := st } := by
  obtain ⟨st, mit⟩ := mitReadyCheck_keeps (sourceChanged s u)
  exact ⟨st, by rw [mit, sourceChanged_mit]⟩

theorem mitLaneUp_up (on : s.mit.en = true) (down : s.mit.linkUp = false) :
    Gives .mitLaneUp s fun t => t.mit.linkUp = true := by
  refine ⟨_, execMitLaneUp_down on down, ?_⟩
  obtain ⟨st, mit⟩ := laneUp_settles (s := s) (if mitWanted (laneUp s) then sendPairing (laneUp s) else laneUp s)
  have up : (if mitWanted (laneUp s) then sendPairing (laneUp s) else laneUp s).mit.linkUp = true := by
    have link := congrArg Mit.linkUp (laneUp_mit s)
    split
    · exact link
    · exact link
  rw [mit]
  exact up

/-- The secret key that pairing draws, and what is sent of it. -/
def pairingKey (s : State) : Bytes := (List.range 32).map fun i => Config.drbgByte (s.ent.drawn + i)

theorem sendPairing_puts (s : State) : (sendPairing s).mit.eph = pairingKey s ∧
    (sendPairing s).ent.drawn = s.ent.drawn + 32 ∧
    .pairing (rd s 0x1300008) (decide (s.mit.st = .active ∨ s.mit.st = .activeAlone)) (mitServes s) s.mit.since
      (rb s 0x1300000 1) s.fuse.brimId (x25519Fn 1 (pairingKey s) (leBytes 32 9))
      (edSign 1 (beBytes 32 s.fuse.identityKey.toNat) (x25519Fn 1 (pairingKey s) (leBytes 32 9))) ∈
        told (sendPairing s) :=
  ⟨rfl, rfl, List.mem_cons_self⟩

theorem mitLaneUp_pairs (wanted : mitWanted s = true) (down : s.mit.linkUp = false) :
    let pub := x25519Fn 1 (pairingKey s) (leBytes 32 9)
    Gives .mitLaneUp s fun t =>
      t.mit.eph = pairingKey s ∧ t.ent.drawn = s.ent.drawn + 32 ∧
      Out.pairing (rd s 0x1300008) (decide (s.mit.st = .active ∨ s.mit.st = .activeAlone)) (mitServes s) s.mit.since
        (rb s 0x1300000 1) s.fuse.brimId pub (edSign 1 (beBytes 32 s.fuse.identityKey.toNat) pub) ∈ t.out := by
  intro pub
  have on : s.mit.en = true := (Bool.and_eq_true_iff.mp wanted).1
  obtain ⟨ent, fuse⟩ := laneUp_ent s
  have mit := laneUp_mit s
  have id_ : rd (laneUp s) 0x1300008 = rd s 0x1300008 := rd_laneUp s rfl
  have ctl : rb (laneUp s) 0x1300000 1 = rb s 0x1300000 1 := congrArg (flag · 1) (rd_laneUp s rfl)
  have wanted' : mitWanted (laneUp s) = true := by
    rw [mitWanted, mit, id_]
    exact wanted
  have serves : mitServes (laneUp s) = mitServes s := by
    rw [mitServes, mit]
    rfl
  have key : pairingKey (laneUp s) = pairingKey s := by rw [pairingKey, ent, ← pairingKey]
  obtain ⟨eph, drawn, sent⟩ := sendPairing_puts (laneUp s)
  rw [id_, ctl, serves, mit, fuse, key] at sent
  obtain ⟨st, mit'⟩ := laneUp_settles (s := s) (sendPairing (laneUp s))
  refine ⟨_, execMitLaneUp_down on down, ?_⟩
  rw [if_pos wanted']
  refine ⟨?_, ?_, mem_out_of_told ?_⟩
  · rw [mit']
    exact eph.trans key
  · rw [mitReadyCheck_ent, show (sourceChanged s _).ent = _ from sourceChanged_within s _ .ent (by decide), drawn, ent]
  · rw [told_mitReadyCheck, told_sourceChanged]
    exact sent

/-! ## The lane goes down -/

/-- The unit whose lane has gone down. -/
def laneDown (s : State) : State :=
  sourceChanged s (setMit s { s.mit with linkUp := false, wasDown := s.mit.wasDown || s.mit.linkUp })

theorem laneDown_mit (s : State) :
    (laneDown s).mit = { s.mit with linkUp := false, wasDown := s.mit.wasDown || s.mit.linkUp } := sourceChanged_mit ..

theorem witnessed_congr (mit : t.mit.witness = s.mit.witness) (ctl : rd t 0x1300000 = rd s 0x1300000) :
    witnessed t = witnessed s := by
  rw [witnessed, witnessed, mit, rb, ctl, ← rb]

theorem witnessed_laneDown (s : State) : witnessed (laneDown s) = witnessed s :=
  witnessed_congr (congrArg Mit.witness (laneDown_mit s) :) (rd_of_plainRegs (plainRegs_sourceChanged ..) rfl)

/-- A unit in silence changes its state and nothing of its paths. -/
theorem decideSilent_paths (s : State) : (decideSilent s).mit.linkUp = s.mit.linkUp ∧
    (decideSilent s).mit.inbandUp = s.mit.inbandUp ∧ (decideSilent s).mit.witness = s.mit.witness := by
  have moved {m n : Mit} {st : MitState} (h : MitMoved m n st) :
      n.linkUp = m.linkUp ∧ n.inbandUp = m.inbandUp ∧ n.witness = m.witness := by
    obtain ⟨_, _, _, _, _, mit⟩ := h.moved
    rw [mit]
    exact ⟨rfl, rfl, rfl⟩
  unfold decideSilent
  split
  · split
    · exact moved (mitTo_moved ..)
    · exact (moved (takeover_moved s true) :)
  · split
    · exact moved (mitTo_moved ..)
    · exact (moved (takeover_moved s true) :)
  · split
    · exact moved (mitTo_moved ..)
    · exact ⟨rfl, rfl, rfl⟩
  · exact moved (mitTo_moved ..)
  · exact ⟨rfl, rfl, rfl⟩

theorem mitLaneDown_down (s : State) : Gives .mitLaneDown s fun t => t.mit.linkUp = false := by
  have link : (laneDown s).mit.linkUp = false := congrArg Mit.linkUp (laneDown_mit s)
  refine ⟨_, rfl, ?_⟩
  dsimp only
  split
  · exact link
  · exact (decideSilent_paths (laneDown s)).1.trans link

theorem decideSilent_active (st : s.mit.st = .active) : decideSilent s = mitTo s .activeAlone := by
  unfold decideSilent
  rw [st]

theorem decideSilent_standby (st : s.mit.st = .standby) :
    decideSilent s = if witnessed s then mitTo s .isolated else s := by
  unfold decideSilent
  rw [st]

theorem decideSilent_ready (st : s.mit.st = .ready) :
    decideSilent s = if witnessed s then mitTo s .isolated else takeover s true := by
  unfold decideSilent
  rw [st]

theorem takeover_st (s : State) (alone : Bool) :
    (takeover s alone).mit.st = (if alone then .activeAlone else .active) ∧
      (takeover s alone).mit.lastTakeover = nowSec s := by
  obtain ⟨_, _, _, _, _, mit⟩ := (takeover_moved s alone).moved
  rw [mit]
  exact ⟨rfl, rfl⟩

theorem mitLaneDown_decides (up : s.mit.linkUp = true) (silent : s.mit.inbandUp = false) :
    (s.mit.st = .active → Gives .mitLaneDown s fun t => t.mit.st = .activeAlone) ∧
    (s.mit.st = .ready ∨ s.mit.st = .standby → witnessed s = true →
      Gives .mitLaneDown s fun t => t.mit.st = .isolated) ∧
    (s.mit.st = .standby → witnessed s = false → Gives .mitLaneDown s fun t => t.mit.st = .standby) ∧
    (s.mit.st = .ready → witnessed s = false →
      Gives .mitLaneDown s fun t => t.mit.st = .activeAlone ∧ t.mit.lastTakeover = nowSec s) := by
  have run : exec .mitLaneDown s = .next (decideSilent (laneDown s)) := by
    show execMitLaneDown s = _
    unfold execMitLaneDown
    dsimp only
    rw [if_neg (by simp [up, silent])]
    rfl
  have state {st : MitState} (h : s.mit.st = st) : (laneDown s).mit.st = st := (congrArg Mit.st (laneDown_mit s)).trans h
  refine ⟨fun active => ⟨_, run, ?_⟩, fun follower seen => ⟨_, run, ?_⟩, fun standby unseen => ⟨_, run, ?_⟩,
    fun ready unseen => ⟨_, run, ?_⟩⟩
  · rw [decideSilent_active (state active)]
    exact mitTo_st ..
  · rcases follower with ready | standby
    · rw [decideSilent_ready (state ready), witnessed_laneDown, if_pos seen]
      exact mitTo_st ..
    · rw [decideSilent_standby (state standby), witnessed_laneDown, if_pos seen]
      exact mitTo_st ..
  · rw [decideSilent_standby (state standby), witnessed_laneDown, if_neg (by simp [unseen])]
    exact state standby
  · rw [decideSilent_ready (state ready), witnessed_laneDown, if_neg (by simp [unseen])]
    obtain ⟨st, taken⟩ := takeover_st (laneDown s) true
    have follows_ : follows (setMit s { s.mit with linkUp := false, wasDown := s.mit.wasDown || s.mit.linkUp }) = true := by
      simp [follows, mitStandby, setMit, ready]
    exact ⟨st, taken.trans (congrArg secOf (sourceChanged_counter follows_ s))⟩

/-! ## Pairing -/

/-- What an accepted pairing message makes of the unit: its partner and the key are known. -/
def partnered (s : State) (m : PairMsg) : State :=
  setMit s { s.mit with peerId := m.brimId, paired := true,
                        pairKey := some (x25519Fn 1 s.mit.eph (subPad m.pub 0 32)) }

/-- A partnered unit that is no standby pairs. -/
def pairing (s : State) (m : PairMsg) : State :=
  if mitStandby s then partnered s m else mitTo (partnered s m) .pairing

/-- A message of the own pair whose signature holds. -/
structure Genuine (s : State) (m : PairMsg) : Prop where
  wanted : mitWanted s = true
  up : s.mit.linkUp = true
  ours : m.pairId = rd s 0x1300008
  signed : m.signed = true

theorem execMitPairingMessage_genuine {m : PairMsg} (h : Genuine s m) :
    execMitPairingMessage m s = .next (if winsRole s m then mirrorAll (mitTo (pairing s m) .active)
      else if mitStandby s then pairing s m else mitTo (pairing s m) .standby) := by
  obtain ⟨wanted, up, ours, signed⟩ := h
  unfold execMitPairingMessage
  rw [if_neg (by simp [wanted, up]), if_neg (by simp [ours, signed])]
  rfl

/-- What pairing settles of the unit, whatever role it takes. -/
structure Settled (m : PairMsg) (eph : Bytes) (n : Mit) : Prop where
  peerId : n.peerId = m.brimId
  paired : n.paired = true
  pairKey : n.pairKey = some (x25519Fn 1 eph (subPad m.pub 0 32))

theorem Settled.moved {m : PairMsg} {eph : Bytes} {a b : Mit} {st : MitState} (h : Settled m eph a)
    (moved : MitMoved a b st) : Settled m eph b := by
  obtain ⟨_, _, _, _, _, mit⟩ := moved.moved
  obtain ⟨peerId, paired, pairKey⟩ := h
  constructor <;> rw [mit]
  all_goals assumption

theorem pairing_settled (s : State) (m : PairMsg) : Settled m s.mit.eph (pairing s m).mit := by
  have known : Settled m s.mit.eph (partnered s m).mit := ⟨rfl, rfl, rfl⟩
  unfold pairing
  split
  · exact known
  · exact known.moved (mitTo_moved ..)

/-- The records that an active unit mirrors; nothing else of the unit changes. -/
theorem mirrorAll_mit (s : State) : ∃ list serial keys,
    (mirrorAll s).mit = { s.mit with toMirror := list, serial := serial, keysSerial := keys } := by
  have one (u : State) (cls seg : Nat) (p : Payload) : ∃ list serial keys,
      (sendMirror u cls seg p).mit = { u.mit with toMirror := list, serial := serial, keysSerial := keys } := by
    unfold sendMirror
    dsimp only
    split
    · exact ⟨_, _, _, rfl⟩
    · exact ⟨_, _, _, rfl⟩
  have all (l : List Nat) (p : State → Nat → Payload) (u : State) : ∃ list serial keys,
      (l.foldl (fun t k => sendMirror t clsCfg k (p t k)) u).mit
        = { u.mit with toMirror := list, serial := serial, keysSerial := keys } := by
    induction l generalizing u with
    | nil => exact ⟨_, _, _, rfl⟩
    | cons k l ih =>
      obtain ⟨_, _, _, first⟩ := one u clsCfg k (p u k)
      obtain ⟨_, _, _, rest⟩ := ih (sendMirror u clsCfg k (p u k))
      exact ⟨_, _, _, rest.trans (by rw [first])⟩
  unfold mirrorAll
  extract_lets keys mit
  obtain ⟨_, _, _, first⟩ := one (setMit s { s.mit with toMirror := [] }) clsKeys 0 keys
  obtain ⟨_, _, _, rest⟩ := all (List.range (segCount clsCfg)) (fun t k => (recOf t clsCfg k).getD (.words []))
    (sendMirror (setMit s { s.mit with toMirror := [] }) clsKeys 0 keys)
  exact ⟨_, _, _, rest.trans (by rw [first]; rfl)⟩

theorem mirrorAll_keeps (s : State) {m : PairMsg} {eph : Bytes} (h : Settled m eph s.mit) :
    Settled m eph (mirrorAll s).mit ∧ (mirrorAll s).mit.st = s.mit.st := by
  obtain ⟨_, _, _, mit⟩ := mirrorAll_mit s
  obtain ⟨peerId, paired, pairKey⟩ := h
  rw [mit]
  exact ⟨⟨peerId, paired, pairKey⟩, rfl⟩

theorem mitPairingMessage_settles {m : PairMsg} (h : Genuine s m) : Gives (.mitPairingMessage m) s fun t =>
    t.mit.peerId = m.brimId ∧ t.mit.paired = true ∧
    t.mit.pairKey = some (x25519Fn 1 s.mit.eph (subPad m.pub 0 32)) := by
  have known := pairing_settled s m
  refine ⟨_, execMitPairingMessage_genuine h, ?_⟩
  split
  · obtain ⟨⟨peerId, paired, pairKey⟩, -⟩ := mirrorAll_keeps _ (known.moved (mitTo_moved _ .active))
    exact ⟨peerId, paired, pairKey⟩
  · split
    · obtain ⟨peerId, paired, pairKey⟩ := known
      exact ⟨peerId, paired, pairKey⟩
    · obtain ⟨peerId, paired, pairKey⟩ := known.moved (mitTo_moved _ .standby)
      exact ⟨peerId, paired, pairKey⟩

/-- The unit that wins the role is active. -/
theorem mitPairingMessage_wins {m : PairMsg} (h : Genuine s m) (wins : winsRole s m = true) :
    Gives (.mitPairingMessage m) s fun t => t.mit.st = .active := by
  refine ⟨_, execMitPairingMessage_genuine h, ?_⟩
  rw [if_pos wins]
  obtain ⟨-, st⟩ := mirrorAll_keeps _ ((pairing_settled s m).moved (mitTo_moved (pairing s m) .active))
  exact st.trans (mitTo_st ..)

/-- The unit that loses the role and is no standby yet becomes one. -/
theorem mitPairingMessage_loses {m : PairMsg} (h : Genuine s m) (loses : winsRole s m = false)
    (other : mitStandby s = false) : Gives (.mitPairingMessage m) s fun t => t.mit.st = .standby := by
  refine ⟨_, execMitPairingMessage_genuine h, ?_⟩
  rw [if_neg (by simp [loses]), if_neg (by simp [other])]
  exact mitTo_st ..

theorem mitPairingMessage_refused {m : PairMsg} (wanted : mitWanted s = true) (up : s.mit.linkUp = true)
    (foreign : m.pairId ≠ rd s 0x1300008 ∨ m.signed = false) :
    Gives (.mitPairingMessage m) s fun t => t.mit = s.mit := by
  refine ⟨_, rfl, ?_⟩
  dsimp only
  rw [if_neg (by simp [wanted, up]), if_pos foreign]
  exact raiseN_mit ..

/-- An active unit is no standby. -/
theorem mitStandby_of_active (h : mitActive s = true) : mitStandby s = false := by
  obtain ⟨-, active⟩ := Bool.and_eq_true_iff.mp h
  rcases of_decide_eq_true active with st | st <;> simp [mitStandby, st]

theorem mitActive_of_pairing (st : s.mit.st = .pairing) : mitActive s = false ∧ mitStandby s = false := by
  simp [mitActive, mitStandby, st]

theorem winsRole_of_serving {m : PairMsg} (idle : mitActive s = false) (other : m.active = false)
    (serves : mitServes s ≠ m.serving) : winsRole s m = mitServes s := by
  simp [winsRole, idle, other, serves]

theorem winsRole_of_one {m : PairMsg} (one : mitActive s ≠ m.active) : winsRole s m = mitActive s := by
  unfold winsRole
  cases h : mitActive s <;> cases k : m.active <;> simp_all

theorem winsRole_of_both {m : PairMsg} (active : mitActive s = true) (other : m.active = true)
    (apart : s.mit.since ≠ m.since) : winsRole s m = decide (s.mit.since < m.since) := by
  simp [winsRole, active, other, apart]

theorem winsRole_of_preference {m : PairMsg} (idle : mitActive s = false) (other : m.active = false)
    (serves : mitServes s = m.serving) (pref : rb s 0x1300000 1 ≠ m.preferActive) :
    winsRole s m = rb s 0x1300000 1 := by
  simp [winsRole, idle, other, serves, pref]

theorem mitPairingMessage_assigns {m : PairMsg} (h : Genuine s m) :
    (mitActive s = false → mitServes s = true → m.active = false → m.serving = false →
      Gives (.mitPairingMessage m) s fun t => t.mit.st = .active) ∧
    (s.mit.st = .pairing → mitServes s = false → m.serving = true →
      Gives (.mitPairingMessage m) s fun t => t.mit.st = .standby) ∧
    (mitActive s = true → m.active = false → Gives (.mitPairingMessage m) s fun t => t.mit.st = .active) ∧
    (mitActive s = false → mitStandby s = false → m.active = true →
      Gives (.mitPairingMessage m) s fun t => t.mit.st = .standby) ∧
    (mitActive s = true → m.active = true → s.mit.since < m.since →
      Gives (.mitPairingMessage m) s fun t => t.mit.st = .active) ∧
    (mitActive s = true → m.active = true → m.since < s.mit.since →
      Gives (.mitPairingMessage m) s fun t => t.mit.st = .standby) ∧
    (s.mit.st = .pairing → mitServes s = m.serving → m.active = false → rb s 0x1300000 1 ≠ m.preferActive →
      Gives (.mitPairingMessage m) s fun t => t.mit.st = if rb s 0x1300000 1 then .active else .standby) := by
  refine ⟨fun idle serves other quiet => ?_, fun st quiet serves => ?_, fun active other => ?_,
    fun idle free other => ?_, fun active other earlier => ?_, fun active other later => ?_,
    fun st same other pref => ?_⟩
  · exact mitPairingMessage_wins h ((winsRole_of_serving idle other (by simp [serves, quiet])).trans serves)
  · obtain ⟨idle, free⟩ := mitActive_of_pairing st
    refine mitPairingMessage_loses h ?_ free
    cases other : m.active with
    | false => exact (winsRole_of_serving idle other (by simp [serves, quiet])).trans quiet
    | true => exact (winsRole_of_one (by simp [idle, other])).trans idle
  · exact mitPairingMessage_wins h ((winsRole_of_one (by simp [active, other])).trans active)
  · exact mitPairingMessage_loses h ((winsRole_of_one (by simp [idle, other])).trans idle) free
  · exact mitPairingMessage_wins h ((winsRole_of_both active other (by omega)).trans (decide_eq_true earlier))
  · exact mitPairingMessage_loses h ((winsRole_of_both active other (by omega)).trans (decide_eq_false (by omega)))
      (mitStandby_of_active active)
  · obtain ⟨idle, free⟩ := mitActive_of_pairing st
    have wins := winsRole_of_preference idle other same pref
    split
    · next preferred => exact mitPairingMessage_wins h (wins.trans preferred)
    · next unpreferred => exact mitPairingMessage_loses h (wins.trans (Bool.eq_false_of_not_eq_true unpreferred)) free

/-- Settles O44: a unit is enabled, its lane comes and goes, and a pair agrees on its roles. -/
theorem mittenPairs : Obligations.MittenPairs := by
  refine ⟨fun s off => mitEnable_enables off, mitDisable_leaves, fun s on down => mitLaneUp_up on down,
    fun s wanted down => mitLaneUp_pairs wanted down, mitLaneDown_down,
    fun s up silent => mitLaneDown_decides up silent,
    fun s m wanted up foreign => mitPairingMessage_refused wanted up foreign,
    fun s m wanted up ours signed => ⟨mitPairingMessage_settles ⟨wanted, up, ours, signed⟩,
      mitPairingMessage_assigns ⟨wanted, up, ours, signed⟩⟩,
    fun s alone => ⟨_, rfl, ?_⟩⟩
  rw [if_pos alone]
  exact mitTo_st ..

end Sys2Proof.Machine
end

section
/-! SUPPORT. O45: the Mitten unit watches its partner (R422 to R425). -/

namespace Sys2Proof.Machine

variable {s t u : State}

/-! ## Sent -/

theorem exec_mitHeartbeatSend (on : s.mit.en = true) (up : s.mit.linkUp = true) :
    exec .mitHeartbeatSend s = .next { s with out := .mitten 1 :: s.out } := by
  show execMitHeartbeatSend s = _
  unfold execMitHeartbeatSend
  rw [on, up]
  rfl

theorem mitInbandSend_queues (on : s.mit.en = true) (inband : rb s 0x1300014 0 = true)
    (enabled : portEnabled s (rf s 0x1300014 1 4) = true) (up : (portOf s (rf s 0x1300014 1 4)).up = true) :
    Gives .mitInbandSend s fun t =>
      ((portOf t (rf s 0x1300014 1 4)).queue.map fun i => (i.cls, i.frame)) =
        ((portOf s (rf s 0x1300014 1 4)).queue.map fun i => (i.cls, i.frame)) ++ [(0, inbandFrame s 1)] := by
  refine ⟨_, rfl, ?_⟩
  rw [if_pos on, sendInband, if_pos inband, enqueue_open enabled up]
  beta_reduce
  rw [queued_queue, List.map_append]
  rfl

/-- A frame of the device itself that is queued, or not, tells nobody. -/
theorem told_sendInband (s : State) (kind : Nat) : told (sendInband s kind) = told s := by
  unfold sendInband enqueue
  dsimp only
  split
  · split
    · rfl
    · rfl
  · rfl

/-! ## Received -/

/-- The unit that has seen a heartbeat, in-band or on the lane. -/
def beaten (s : State) (inband : Bool) : State :=
  if inband then setMit s { s.mit with inbandUp := true } else s

theorem beaten_mit (s : State) (inband : Bool) : (beaten s inband).mit =
    { s.mit with inbandUp := s.mit.inbandUp || inband } := by
  unfold beaten
  cases inband with
  | false => simp
  | true => simp [setMit]

/-- The later of two units that serve. -/
def servesLater (s : State) (since : Nat) : Bool :=
  if s.mit.since = since then decide (s.mit.peerId.toNat < s.fuse.brimId.toNat) else decide (since < s.mit.since)

theorem execMitHeartbeatRx_split (wanted : mitWanted s = true) (serves : mitServes s = true) (inband : Bool) (since : Nat) :
    execMitHeartbeatRx inband true since s = .next (
      if servesLater (raiseN (beaten s inband) 357 0 []) since then mitTo (raiseN (beaten s inband) 357 0 []) .standby
      else raiseN (beaten s inband) 357 0 []) := by
  have on : s.mit.en = true := (Bool.and_eq_true_iff.mp wanted).1
  have regs : (beaten s inband).regs = s.regs := by
    unfold beaten
    split
    · rfl
    · rfl
  have wanted' : mitWanted (beaten s inband) = true := by
    rw [mitWanted, beaten_mit, rd, regs, ← rd]
    exact wanted
  have serves' : mitServes (beaten s inband) = true := by
    rw [mitServes, beaten_mit]
    exact serves
  unfold execMitHeartbeatRx
  rw [if_neg (by simp [on])]
  exact congrArg Host.Outcome.next (if_pos ⟨wanted', serves', rfl⟩)

theorem split_mit (s : State) (inband : Bool) :
    (raiseN (beaten s inband) 357 0 []).mit = { s.mit with inbandUp := s.mit.inbandUp || inband } :=
  (raiseN_mit ..).trans (beaten_mit s inband)

theorem servesLater_split (s : State) (inband : Bool) {since : Nat} (apart : s.mit.since ≠ since) :
    servesLater (raiseN (beaten s inband) 357 0 []) since = decide (since < s.mit.since) := by
  unfold servesLater
  rw [split_mit]
  exact if_neg apart

theorem mitHeartbeatRx_inband (on : s.mit.en = true) (sv : Bool) (n : Nat) :
    Gives (.mitHeartbeatRx true sv n) s fun t => t.mit.inbandUp = true := by
  have seen : (beaten s true).mit.inbandUp = true := rfl
  have kept {v : State} {st : MitState} (h : v.mit.inbandUp = true) : (mitTo v st).mit.inbandUp = true := by
    obtain ⟨_, _, _, _, _, mit⟩ := (mitTo_moved v st).moved
    rw [mit]
    exact h
  refine ⟨_, rfl, ?_⟩
  beta_reduce
  rw [if_neg (by simp [on])]
  extract_lets mit1 s1 s2 later
  split
  · have raised : s2.mit.inbandUp = true := congrArg Mit.inbandUp (raiseN_mit ..)
    split
    · exact kept raised
    · exact raised
  · split
    · exact kept seen
    · exact seen

theorem mitHeartbeatRx_isolates (on : s.mit.en = true) (follower : s.mit.st = .ready ∨ s.mit.st = .standby)
    (down : s.mit.linkUp = false) (sv : Bool) (n : Nat) :
    Gives (.mitHeartbeatRx true sv n) s fun t => t.mit.st = .isolated := by
  have quiet : mitServes (setMit s { s.mit with inbandUp := true }) = false := by
    rcases follower with st | st <;> simp [mitServes, setMit, st]
  refine ⟨_, rfl, ?_⟩
  dsimp only
  rw [if_neg (by simp [on]), if_pos rfl, if_neg (by simp [quiet]), if_pos ⟨rfl, follower, down⟩]
  exact mitTo_st ..

/-! ## Missed -/

theorem mitHeartbeatMissed_counts (on : s.mit.en = true) (up : s.mit.linkUp = true) :
    Gives .mitHeartbeatMissed s fun t =>
      Counted s t 0x1300040 3 ∧ (s.mit.st = .active ∨ s.mit.st = .ready → t.mit.st = .activeAlone) := by
  have counted : Counted s (bump s 0x1300040 3) 0x1300040 3 := bump_counted _ 3 (by decide)
  have mit : (bump s 0x1300040 3).mit = s.mit := bump_mit ..
  refine ⟨_, rfl, ?_⟩
  dsimp only
  rw [if_neg (by simp [on, up])]
  split
  · next st =>
    refine ⟨?_, fun _ => (takeover_st _ true).1⟩
    rw [Counted, rd_takeover rfl (by decide) (by decide) (by decide)]
    exact counted
  · next st =>
    refine ⟨?_, fun _ => mitTo_st ..⟩
    rw [Counted, rd_mitTo rfl (by decide)]
    exact counted
  · next noReady noActive =>
    refine ⟨counted, fun st => ?_⟩
    rw [mit] at noReady noActive
    rcases st with st | st
    · exact absurd st noActive
    · exact absurd st noReady

/-- What a unit in silence decides counts nothing that the silence itself counts. -/
theorem rd_decideSilent {a : Nat} (plain : eventReg a = false) (above : 0x900000 ≤ a) (noLost : a ≠ rspCtr 8)
    (noCount : a ≠ 0x1300048) (s : State) : rd (decideSilent s) a = rd s a := by
  unfold decideSilent
  split
  · split
    · exact rd_mitTo plain noLost ..
    · exact rd_takeover plain above noLost noCount ..
  · split
    · exact rd_mitTo plain noLost ..
    · exact rd_takeover plain above noLost noCount ..
  · split
    · exact rd_mitTo plain noLost ..
    · rfl
  · exact rd_mitTo plain noLost ..
  · rfl

theorem mitInbandSilent_counts (on : s.mit.en = true) : Gives .mitInbandSilent s fun t =>
    Counted s t 0x1300044 4 ∧ t.mit.inbandUp = false := by
  have counted : Counted s (bump (setMit s { s.mit with inbandUp := false }) 0x1300044 4) 0x1300044 4 :=
    .of_rd (u := setMit s _) rfl (bump_counted _ 4 (by decide))
  have silent : (bump (setMit s { s.mit with inbandUp := false }) 0x1300044 4).mit.inbandUp = false :=
    congrArg Mit.inbandUp (bump_mit ..)
  refine ⟨_, rfl, ?_⟩
  dsimp only
  rw [if_neg (by simp [on])]
  split
  · exact ⟨counted, silent⟩
  · refine ⟨?_, (decideSilent_paths _).2.1.trans silent⟩
    rw [Counted, rd_decideSilent rfl (by decide) (by decide) (by decide)]
    exact counted

/-! ## The last gasp -/

theorem mitLastGaspRx_takes (on : s.mit.en = true) (ready : s.mit.st = .ready) : Gives .mitLastGaspRx s fun t =>
    t.mit.st = (if s.mit.linkUp then .active else .activeAlone) ∧ t.mit.lastTakeover = nowSec s := by
  have mit : (raiseN s 355 0 []).mit = s.mit := raiseN_mit ..
  have now : nowSec (raiseN s 355 0 []) = nowSec s := congrArg (fun b : Tb => secOf b.counter) (raiseN_tb ..)
  refine ⟨_, rfl, ?_⟩
  dsimp only
  rw [if_neg (by simp [on]), if_pos (by rw [mit, ready]), mit]
  obtain ⟨st, taken⟩ := takeover_st (raiseN s 355 0 []) (!s.mit.linkUp)
  refine ⟨st.trans ?_, taken.trans now⟩
  cases s.mit.linkUp <;> rfl

/-- The last gasp of an active unit goes out on a lane that is up. -/
theorem lastGasp_tells (active : mitActive s = true) (up : s.mit.linkUp = true) : Out.mitten 2 ∈ (lastGasp s).out := by
  unfold lastGasp
  rw [if_pos active, if_pos up]
  refine mem_out_of_told ?_
  rw [told_sendInband, told_emit _ rfl]
  exact List.mem_cons_self

theorem lastGasp_mit (s : State) : (lastGasp s).mit = s.mit :=
  ((within_lastGasp (ps := [.lp]) (by decide)).2 .refl) .mit (by decide)

theorem relinquish_gasps (active : s.mit.st = .active) : Gives .relinquish s fun t =>
    t.mit.relinquish = true ∧ t.mit.st = .active ∧ (s.mit.en = true → s.mit.linkUp = true → Out.mitten 2 ∈ t.out) := by
  refine ⟨_, rfl, ?_⟩
  dsimp only
  rw [if_pos active]
  refine ⟨rfl, (congrArg Mit.st (lastGasp_mit s)).trans active, fun on up => lastGasp_tells ?_ up⟩
  simp [mitActive, on, active]

/-! ## The witness -/

theorem mitWitnessExpired_ends (alive : s.mit.witness = true) : Gives .mitWitnessExpired s fun t =>
    t.mit.witness = false ∧
    (s.mit.st = .isolated → s.mit.linkUp = false → s.mit.inbandUp = false → t.mit.st = .activeAlone) := by
  refine ⟨_, rfl, ?_⟩
  beta_reduce
  rw [if_pos alive]
  extract_lets mit1 s1 s2
  have mit : s2.mit = { s.mit with witness := false } := by
    unfold s2
    split
    · exact raiseN_mit ..
    · rfl
  split
  · obtain ⟨got, serving, lock, relinquish, since, moved⟩ := (takeover_moved s2 true).moved
    refine ⟨?_, fun _ _ _ => (takeover_st s2 true).1⟩
    rw [moved]
    exact congrArg Mit.witness mit
  · next blocked =>
    refine ⟨congrArg Mit.witness mit, fun isolated down silent => absurd ?_ blocked⟩
    rw [mit]
    exact ⟨isolated, down, silent⟩

/-- Settles O45: heartbeats, the last gasp, the takeover and the witness. -/
theorem mittenWatchesItsPeer : Obligations.MittenWatchesItsPeer := by
  refine ⟨fun s on up => exec_mitHeartbeatSend on up, fun s on inband enabled up => mitInbandSend_queues on inband enabled up,
    fun s sv n on => mitHeartbeatRx_inband on sv n,
    fun s ib n wanted serves earlier => ⟨_, execMitHeartbeatRx_split wanted serves ib n, ?_⟩,
    fun s ib n wanted serves later => ⟨_, execMitHeartbeatRx_split wanted serves ib n, ?_⟩,
    fun s sv n on follower down => mitHeartbeatRx_isolates on follower down sv n,
    fun s on up => mitHeartbeatMissed_counts on up, fun s on => mitInbandSilent_counts on,
    fun s on ready => mitLastGaspRx_takes on ready, fun s => rfl, fun s alive => mitWitnessExpired_ends alive,
    fun s active => relinquish_gasps active, fun s relinquishing => ⟨_, rfl, ?_⟩⟩
  · rw [if_pos ((servesLater_split s ib (by omega)).trans (decide_eq_true earlier))]
    exact mitTo_st ..
  · rw [if_neg (by rw [servesLater_split s ib (by omega)]; simp; omega)]
    exact (congrArg Mit.st (split_mit s ib) :)
  · rw [if_pos relinquishing]
    exact mitTo_st ..

end Sys2Proof.Machine
end

section
/-! SUPPORT. O60: the vote of a segment's copies (R367 to R370). -/

namespace Sys2Proof.Machine

variable {s t u : State}

/-! ## Generations, newest first -/

theorem mem_insertDesc {g h : Nat} {l : List Nat} : h ∈ insertDesc g l ↔ h = g ∨ h ∈ l := by
  induction l with
  | nil => simp [insertDesc]
  | cons x xs ih =>
    unfold insertDesc
    split
    · next same => simp [same]
    · split
      · simp
      · simp only [List.mem_cons, ih]
        tauto

theorem insertDesc_descends {g : Nat} {l : List Nat} (h : l.Pairwise (· > ·)) : (insertDesc g l).Pairwise (· > ·) := by
  induction l with
  | nil => simp [insertDesc]
  | cons x xs ih =>
    obtain ⟨above, rest⟩ := List.pairwise_cons.mp h
    unfold insertDesc
    split
    · exact h
    · next other =>
      split
      · next less =>
        refine List.pairwise_cons.mpr ⟨fun y mem => ?_, h⟩
        rcases List.mem_cons.mp mem with rfl | mem
        · exact less
        · exact Nat.lt_trans (above y mem) less
      · next notLess =>
        refine List.pairwise_cons.mpr ⟨fun y mem => ?_, ih rest⟩
        rcases mem_insertDesc.mp mem with rfl | mem
        · omega
        · exact above y mem

/-- The generations of a list of copies: each once, newest first. -/
theorem gensOf_spec (cs : List Copy) : (gensOf cs).Pairwise (· > ·) ∧ ∀ g, g ∈ gensOf cs ↔ ∃ c ∈ cs, c.gen = g := by
  have all (l : List Nat) (h : l.Pairwise (· > ·)) :
      (cs.foldl (fun l c => insertDesc c.gen l) l).Pairwise (· > ·) ∧
        ∀ g, g ∈ cs.foldl (fun l c => insertDesc c.gen l) l ↔ g ∈ l ∨ ∃ c ∈ cs, c.gen = g := by
    induction cs generalizing l with
    | nil => exact ⟨h, fun g => by simp⟩
    | cons c cs ih =>
      obtain ⟨descends, mem⟩ := ih (insertDesc c.gen l) (insertDesc_descends h)
      refine ⟨descends, fun g => (mem g).trans ?_⟩
      rw [mem_insertDesc, List.exists_mem_cons_iff, @eq_comm _ g]
      tauto
  obtain ⟨descends, mem⟩ := all [] List.Pairwise.nil
  exact ⟨descends, fun g => (mem g).trans (by simp)⟩

/-- The newest generation stands in front. -/
theorem gensOf_eq_cons {cs : List Copy} {a : Copy} (mem : a ∈ cs) (newest : ∀ d ∈ cs, d.gen ≤ a.gen) :
    ∃ older, gensOf cs = a.gen :: older := by
  obtain ⟨descends, gens⟩ := gensOf_spec cs
  have here : a.gen ∈ gensOf cs := (gens _).mpr ⟨a, mem, rfl⟩
  cases eq : gensOf cs with
  | nil =>
    rw [eq] at here
    exact absurd here List.not_mem_nil
  | cons g older =>
    rw [eq] at here descends
    obtain ⟨d, dmem, dgen⟩ := (gens g).mp (by rw [eq]; exact List.mem_cons_self)
    have bound := newest d dmem
    rcases List.mem_cons.mp here with same | behind
    · exact ⟨older, by rw [same]⟩
    · have above := (List.pairwise_cons.mp descends).1 _ behind
      omega

/-- Behind one newer copy the newest of the others stands second. -/
theorem gensOf_eq_cons_cons {cs : List Copy} {n a : Copy} (mem : a ∈ cs) (newest : ∀ d ∈ cs, d.gen ≤ a.gen)
    (newer : a.gen < n.gen) : ∃ rest, gensOf (n :: cs) = n.gen :: a.gen :: rest := by
  obtain ⟨older, eq⟩ := gensOf_eq_cons (cs := n :: cs) (a := n) List.mem_cons_self (fun d dmem => by
    rcases List.mem_cons.mp dmem with rfl | dmem
    · exact Nat.le_refl _
    · exact Nat.le_trans (newest d dmem) (Nat.le_of_lt newer))
  obtain ⟨descends, gens⟩ := gensOf_spec (n :: cs)
  rw [eq] at descends gens
  obtain ⟨below, descends⟩ := List.pairwise_cons.mp descends
  have here : a.gen ∈ older := by
    rcases List.mem_cons.mp ((gens a.gen).mpr ⟨a, List.mem_cons_of_mem _ mem, rfl⟩) with same | behind
    · omega
    · exact behind
  cases older with
  | nil => exact absurd here List.not_mem_nil
  | cons h rest =>
    obtain ⟨d, dmem, dgen⟩ := (gens h).mp (List.mem_cons_of_mem _ List.mem_cons_self)
    have less := below h List.mem_cons_self
    have bound : d.gen ≤ a.gen := by
      rcases List.mem_cons.mp dmem with rfl | dmem
      · omega
      · exact newest d dmem
    rcases List.mem_cons.mp here with same | behind
    · exact ⟨rest, by rw [eq, same]⟩
    · have above := (List.pairwise_cons.mp descends).1 _ behind
      omega

/-! ## Agreement -/

theorem sameRecord_refl (a : Copy) : sameRecord a a = true := decide_eq_true rfl

/-- Two agreeing copies make an agreement of two. -/
theorem two_le_agreeing {cs : List Copy} {a b : Copy} (amem : a ∈ cs) (bmem : b ∈ cs) (apart : a ≠ b)
    (same : sameRecord a b = true) : 2 ≤ agreeing cs a := by
  have afilter : a ∈ cs.filter (sameRecord a) := List.mem_filter.mpr ⟨amem, sameRecord_refl a⟩
  have bfilter : b ∈ cs.filter (sameRecord a) := List.mem_filter.mpr ⟨bmem, same⟩
  unfold agreeing
  match eq : cs.filter (sameRecord a), afilter, bfilter with
  | [x], afilter, bfilter =>
    exact absurd ((List.mem_singleton.mp afilter).trans (List.mem_singleton.mp bfilter).symm) apart
  | x :: y :: rest, _, _ => simp

/-- The copy that most agree with is one of the list, and no copy of it has more that agree. -/
theorem mostAgreed_spec (all : List Copy) {cs : List Copy} {a : Copy} (mem : a ∈ cs) :
    ∃ c n, mostAgreed all cs = some (c, n) ∧ c ∈ cs ∧ agreeing all a ≤ n := by
  induction cs generalizing a with
  | nil => exact absurd mem List.not_mem_nil
  | cons x xs ih =>
    unfold mostAgreed
    cases xs with
    | nil =>
      rw [List.mem_singleton.mp mem]
      exact ⟨x, _, rfl, List.mem_cons_self, Nat.le_refl _⟩
    | cons y ys =>
      obtain ⟨d, n, most, dmem, -⟩ := ih (a := y) List.mem_cons_self
      have others (k : Copy) (kmem : k ∈ y :: ys) : agreeing all k ≤ n := by
        obtain ⟨d', n', most', -, bound⟩ := ih kmem
        rw [most] at most'
        obtain ⟨-, rfl⟩ := Prod.mk.inj (Option.some.inj most')
        exact bound
      rw [most]
      dsimp only
      split
      · next more =>
        refine ⟨x, _, rfl, List.mem_cons_self, ?_⟩
        rcases List.mem_cons.mp mem with rfl | mem
        · exact Nat.le_refl _
        · exact Nat.le_trans (others a mem) more
      · next fewer =>
        refine ⟨d, n, rfl, List.mem_cons_of_mem _ dmem, ?_⟩
        rcases List.mem_cons.mp mem with rfl | mem
        · omega
        · exact others a mem

/-- A generation with two agreeing copies. -/
structure Agreed (cs : List Copy) : Prop where
  pair : ∃ a ∈ cs, ∃ b ∈ cs, a ≠ b ∧ sameRecord a b = true

theorem Agreed.several {cs : List Copy} (h : Agreed cs) : ∀ c, cs ≠ [c] := by
  obtain ⟨a, amem, b, bmem, apart, -⟩ := h.pair
  rintro c rfl
  exact apart ((List.mem_singleton.mp amem).trans (List.mem_singleton.mp bmem).symm)

theorem Agreed.genState {cs : List Copy} (h : Agreed cs) : genState cs = .agreed := by
  obtain ⟨a, amem, b, bmem, apart, same⟩ := h.pair
  obtain ⟨c, n, most, -, bound⟩ := mostAgreed_spec cs amem
  have two := two_le_agreeing amem bmem apart same
  unfold Machine.genState
  rw [if_neg fun one => by obtain ⟨x, rfl⟩ := List.length_eq_one_iff.mp one; exact h.several x rfl, most]
  exact if_pos (by omega)

/-- The vote of an agreed generation uses one of its copies. -/
theorem Agreed.vote {cs : List Copy} (h : Agreed cs) (v : Verdict) :
    ∃ c ∈ cs, ∃ k, agreedVote v cs = { verdict := v, used := some c, copies := k } := by
  obtain ⟨a, amem, -⟩ := h.pair
  obtain ⟨c, n, most, cmem, -⟩ := mostAgreed_spec cs amem
  exact ⟨c, cmem, min 3 n, by rw [agreedVote, most]⟩

/-! ## Votes -/

/-- A vote that uses a copy of the newest agreed generation. -/
def UsesAgreed (v : Vote) (cs : List Copy) (g : Nat) : Prop :=
  ∃ c, v.used = some c ∧ c ∈ cs ∧ c.gen = g ∧ (v.verdict = .intact ∨ v.verdict = .repaired)

theorem mem_ofGen {cs : List Copy} {g : Nat} {c : Copy} : c ∈ ofGen cs g ↔ c ∈ cs ∧ c.gen = g := by
  simp [ofGen]

theorem agreed_ofGen {cs : List Copy} {a b : Copy} (amem : a ∈ cs) (bmem : b ∈ cs) (apart : a ≠ b)
    (gen : a.gen = b.gen) (same : sameRecord a b = true) : Agreed (ofGen cs a.gen) :=
  ⟨a, mem_ofGen.mpr ⟨amem, rfl⟩, b, mem_ofGen.mpr ⟨bmem, gen.symm⟩, apart, same⟩

theorem voteGens_agreed {cs : List Copy} {g : Nat} (h : Agreed (ofGen cs g)) (older : List Nat) :
    UsesAgreed (voteGens cs g older) cs g := by
  obtain ⟨c, cmem, k, voted⟩ := h.vote .intact
  obtain ⟨here, gen⟩ := mem_ofGen.mp cmem
  unfold voteGens
  dsimp only
  rw [h.genState, voted]
  refine ⟨c, rfl, here, gen, ?_⟩
  dsimp only
  split
  · exact .inl rfl
  · exact .inr rfl

theorem vote_agreed {cs : List Copy} {a b : Copy} (l : Bool) (amem : a ∈ cs) (bmem : b ∈ cs) (apart : a ≠ b)
    (gen : a.gen = b.gen) (same : sameRecord a b = true) (newest : ∀ d ∈ cs, d.gen ≤ a.gen) :
    UsesAgreed (vote cs l) cs a.gen := by
  have agreed := agreed_ofGen amem bmem apart gen same
  obtain ⟨older, gens⟩ := gensOf_eq_cons amem newest
  unfold vote
  rw [gens]
  dsimp only
  split
  · next c alone => exact absurd alone (agreed.several c)
  · next c h rest alone => exact absurd alone (agreed.several c)
  · exact voteGens_agreed agreed _

/-- A newer copy is the only one of its generation. -/
theorem ofGen_newer {cs : List Copy} {n a : Copy} (newest : ∀ d ∈ cs, d.gen ≤ a.gen) (newer : a.gen < n.gen) :
    ofGen (n :: cs) n.gen = [n] ∧ ofGen (n :: cs) a.gen = ofGen cs a.gen := by
  have none_ : cs.filter (fun c => decide (c.gen = n.gen)) = [] :=
    List.filter_eq_nil_iff.mpr fun d mem same => by
      have bound := newest d mem
      have equal := of_decide_eq_true same
      omega
  constructor
  · rw [ofGen, List.filter_cons_of_pos (by simp), none_]
  · rw [ofGen, List.filter_cons_of_neg (by simpa using Nat.ne_of_gt newer), ofGen]

theorem vote_newer {cs : List Copy} {n a b : Copy} (l : Bool) (amem : a ∈ cs) (bmem : b ∈ cs) (apart : a ≠ b)
    (gen : a.gen = b.gen) (same : sameRecord a b = true) (newest : ∀ d ∈ cs, d.gen ≤ a.gen) (newer : a.gen < n.gen) :
    (n.copy = 1 → UsesAgreed (vote (n :: cs) l) cs a.gen) ∧
    (n.copy ≠ 1 → ∃ c, (vote (n :: cs) l).used = some c ∧ c ∈ cs ∧ c.gen = a.gen ∧
      (vote (n :: cs) l).verdict = .rolledBack) := by
  have agreed := agreed_ofGen amem bmem apart gen same
  obtain ⟨rest, gens⟩ := gensOf_eq_cons_cons amem newest newer
  obtain ⟨alone, others⟩ := ofGen_newer newest newer
  have agreed' : Agreed (ofGen (n :: cs) a.gen) := by
    rw [others]
    exact agreed
  have voted : vote (n :: cs) l =
      if n.copy = 1 then voteGens (n :: cs) a.gen rest else voteGens (n :: cs) n.gen (a.gen :: rest) := by
    unfold vote
    rw [gens]
    dsimp only
    rw [alone]
  constructor
  · intro first
    obtain ⟨c, used, mem, cgen, verdict⟩ := voteGens_agreed agreed' rest
    rw [voted, if_pos first]
    refine ⟨c, used, ?_, cgen, verdict⟩
    rcases List.mem_cons.mp mem with rfl | mem
    · omega
    · exact mem
  · intro other
    obtain ⟨c, cmem, k, rolled⟩ := agreed.vote .rolledBack
    obtain ⟨here, cgen⟩ := mem_ofGen.mp cmem
    have lone : genState [n] = .single := rfl
    have back : voteGens (n :: cs) n.gen (a.gen :: rest) = { verdict := .rolledBack, used := some c, copies := k } := by
      unfold voteGens
      dsimp only
      rw [alone, lone, if_pos agreed'.genState, others]
      exact rolled
    rw [voted, if_neg other, back]
    exact ⟨c, rfl, here, cgen, rfl⟩

/-- Settles O60: agreed generations are used, a lone newer copy is set aside or rolled back. -/
theorem votesFollowTheGenerations : Obligations.VotesFollowTheGenerations := by
  refine ⟨fun l => rfl, fun c l => ?_, fun cs a b l amem bmem apart gen same newest =>
      vote_agreed l amem bmem apart gen same newest,
    fun cs n a b l amem bmem apart gen same newest newer => vote_newer l amem bmem apart gen same newest newer⟩
  have alone : ofGen [c] c.gen = [c] := by simp [ofGen]
  have lone : genState [c] = .single := rfl
  unfold vote
  rw [show gensOf [c] = [c.gen] from rfl]
  dsimp only
  rw [alone]
  dsimp only
  split
  · rfl
  · unfold voteGens
    dsimp only
    rw [alone, lone]
    rfl

end Sys2Proof.Machine
end

section
/-! SUPPORT. O49: the two I2C controllers (R442 to R444, R447, R448). -/

namespace Sys2Proof.Machine

variable {s t u : State}

/-! ## The transfers of firmware that waited -/

/-- On a controller that is free, a transfer of firmware goes out and leaves the controllers and the registers alone. -/
theorem fwTransfer_free {c : Nat} (free : (i2cOf s c).busy = false) (addr : Nat) (tx : Bytes) (rlen : Nat) :
    (fwTransfer s c addr tx rlen).bcp = s.bcp ∧ (fwTransfer s c addr tx rlen).regs = s.regs := by
  unfold fwTransfer
  dsimp only
  rw [free]
  exact ⟨rfl, rfl⟩

theorem i2cOf_of_bcp (same : t.bcp = s.bcp) (c : Nat) : i2cOf t c = i2cOf s c := by
  unfold i2cOf
  rw [same]

theorem fwTransfers_free (c : Nat) (l : List (Nat × Bytes × Nat)) : ∀ {s : State}, (i2cOf s c).busy = false →
    (l.foldl (fun t e => fwTransfer t c e.1 e.2.1 e.2.2) s).bcp = s.bcp ∧
      (l.foldl (fun t e => fwTransfer t c e.1 e.2.1 e.2.2) s).regs = s.regs := by
  induction l with
  | nil => exact fun _ => ⟨rfl, rfl⟩
  | cons e l ih =>
    intro s free
    obtain ⟨bcp, regs⟩ := fwTransfer_free free e.1 e.2.1 e.2.2
    have rest := ih (s := fwTransfer s c e.1 e.2.1 e.2.2) ((congrArg I2c.busy (i2cOf_of_bcp bcp c)).trans free)
    exact ⟨rest.1.trans bcp, rest.2.trans regs⟩

/-! ## The end of a transfer -/

/-- The controller after the end of the host's transfer. -/
def i2cEnded (x : I2c) (status : Nat) : I2c := { x with busy := false, waiting := false, status := status, fw := [] }

theorem i2cEnd_keeps (s : State) (c status : Nat) :
    i2cOf (i2cEnd s c status) c = i2cEnded (i2cOf s c) status ∧ (i2cEnd s c status).regs = s.regs := by
  have free : (i2cOf (setI2c s c (i2cEnded (i2cOf s c) status)) c).busy = false := by
    rw [i2cOf_setI2c]
    rfl
  obtain ⟨bcp, regs⟩ := fwTransfers_free c (i2cOf s c).fw free
  exact ⟨(i2cOf_of_bcp bcp c).trans (i2cOf_setI2c ..), regs⟩

theorem i2cOf_i2cFail (s : State) (c : Nat) : i2cOf (i2cFail s c) c = i2cOf s c :=
  i2cOf_of_bcp ((raiseN_bcp ..).trans (bump_bcp ..)) c

theorem i2cFail_counted (s : State) (c : Nat) : Counted s (i2cFail s c) 0x140022C 1 :=
  (bump_counted s 1 (by decide)).raiseN _ _ _ (by decide)

theorem rd_i2cFail (s : State) (c : Nat) {a : Nat} (plain : eventReg a = false) (ne : a ≠ 0x140022C) :
    rd (i2cFail s c) a = rd s a :=
  (rd_raiseN _ _ _ _ plain).trans (rd_bump_ne s 1 ne (by rintro rfl; exact absurd plain (by decide)))

/-! ## Lost arbitration -/

/-- Lost arbitration is counted and reported before anything else happens. -/
def arbCounted (s : State) (c : Nat) : State := raiseN (bump s (0x1400224 + 4 * c) 1) 363 c [c]

theorem i2cOf_arbCounted (s : State) (c : Nat) : i2cOf (arbCounted s c) c = i2cOf s c :=
  i2cOf_of_bcp ((raiseN_bcp ..).trans (bump_bcp ..)) c

theorem arbCounter_plain (c : Fin 2) : eventReg (0x1400224 + 4 * c.val) = false ∧ 0x1400224 + 4 * c.val ≠ 0x140022C ∧
    0x1400224 + 4 * c.val ≠ 0x1500040 := by
  revert c
  decide

theorem arbCounted_counted (s : State) (c : Fin 2) : Counted s (arbCounted s c) (0x1400224 + 4 * c.val) 1 := by
  obtain ⟨plain, _, summary⟩ := arbCounter_plain c
  exact (bump_counted s 1 summary).raiseN _ _ _ plain

theorem rd_arbCounted (s : State) (c : Fin 2) : rd (arbCounted s c) 0x140022C = rd s 0x140022C :=
  (rd_raiseN _ _ _ _ (by decide)).trans (rd_bump_ne s 1 (arbCounter_plain c).2.1.symm (by decide))

theorem exec_bcpI2cDone_arbLost {c : Fin 2} (busy : (i2cOf s c).busy = true) :
    exec (.bcpI2cDone c .arbLost) s = .next (
      if (i2cOf s c).tries < rf s (i2cA c) 2 4 then
        setI2c (arbCounted s c) c { i2cOf s c with tries := (i2cOf s c).tries + 1, waiting := true }
      else i2cFail (i2cEnd (arbCounted s c) c 3) c) := by
  show execBcpI2cDone c .arbLost s = _
  unfold execBcpI2cDone
  dsimp only
  rw [busy]
  rfl

theorem arbLost_retries {c : Fin 2} (busy : (i2cOf s c).busy = true) (left : (i2cOf s c).tries < rf s (i2cA c) 2 4) :
    Gives (.bcpI2cDone c .arbLost) s fun t =>
      i2cOf t c = { i2cOf s c with tries := (i2cOf s c).tries + 1, waiting := true } ∧
      Counted s t (0x1400224 + 4 * c.val) 1 :=
  ⟨_, (exec_bcpI2cDone_arbLost busy).trans (congrArg _ (if_pos left)), i2cOf_setI2c .., arbCounted_counted s c⟩

theorem arbLost_fails {c : Fin 2} (busy : (i2cOf s c).busy = true) (spent : rf s (i2cA c) 2 4 ≤ (i2cOf s c).tries) :
    Gives (.bcpI2cDone c .arbLost) s fun t =>
      (i2cOf t c).busy = false ∧ (i2cOf t c).status = 3 ∧ Counted s t (0x1400224 + 4 * c.val) 1 ∧
      Counted s t 0x140022C 1 := by
  refine ⟨_, (exec_bcpI2cDone_arbLost busy).trans (congrArg _ (if_neg (by omega))), ?_⟩
  obtain ⟨ended, regs⟩ := i2cEnd_keeps (arbCounted s c) c 3
  have last := (i2cOf_i2cFail (i2cEnd (arbCounted s c) c 3) c).trans ended
  have same (a : Nat) : rd (i2cEnd (arbCounted s c) c 3) a = rd (arbCounted s c) a := congrArg (tget coldWord · a) regs
  obtain ⟨plain, other, _⟩ := arbCounter_plain c
  exact ⟨congrArg I2c.busy last, congrArg I2c.status last,
    ((rd_i2cFail _ _ plain other).trans (same _)).trans (arbCounted_counted s c),
    (i2cFail_counted _ _).of_rd ((same _).trans (rd_arbCounted s c))⟩

/-! ## The other ends -/

theorem exec_bcpI2cDone_ok {c : Fin 2} (busy : (i2cOf s c).busy = true) (rx : Bytes) :
    exec (.bcpI2cDone c (.ok rx)) s = .next (i2cEnd
      (setI2c s c { i2cOf s c with rx := subPad (rx.take (rf s (i2cA c + 4) 12 4)) 0 8 }) c 0) := by
  show execBcpI2cDone c (.ok rx) s = _
  unfold execBcpI2cDone
  dsimp only
  rw [busy]

theorem exec_bcpI2cDone_nack {c : Fin 2} (busy : (i2cOf s c).busy = true) :
    exec (.bcpI2cDone c .nackAddr) s = .next (i2cEnd s c 1) ∧
      exec (.bcpI2cDone c .nackData) s = .next (i2cEnd s c 2) := by
  refine ⟨?_, ?_⟩
  · show execBcpI2cDone c .nackAddr s = _
    unfold execBcpI2cDone
    dsimp only
    rw [busy]
  · show execBcpI2cDone c .nackData s = _
    unfold execBcpI2cDone
    dsimp only
    rw [busy]

theorem i2cEnd_ends (s : State) (c status : Nat) :
    (i2cOf (i2cEnd s c status) c).busy = false ∧ (i2cOf (i2cEnd s c status) c).status = status := by
  obtain ⟨ended, _⟩ := i2cEnd_keeps s c status
  exact ⟨congrArg I2c.busy ended, congrArg I2c.status ended⟩

theorem i2cTimeout_ends {c : Fin 2} (busy : (i2cOf s c).busy = true) :
    Gives (.bcpI2cTimeout c) s fun t =>
      (i2cOf t c).busy = false ∧ (i2cOf t c).status = 4 ∧ Counted s t 0x140022C 1 := by
  refine ⟨_, rfl, ?_⟩
  beta_reduce
  rw [if_pos busy, i2cOf_i2cFail]
  obtain ⟨ended, regs⟩ := i2cEnd_keeps s c 4
  exact ⟨congrArg I2c.busy ended, congrArg I2c.status ended, (i2cFail_counted _ _).of_rd (congrArg (tget coldWord · _) regs)⟩

theorem i2cDone_clears (s : State) (c : Fin 2) (n : Fin 10) :
    Gives (.bcpI2cDone c (.sdaStuck n)) s fun t => i2cOf t c = i2cOf s c ∧ Out.i2cClear c n ∈ t.out := by
  have stuck : exec (.bcpI2cDone c (.sdaStuck n)) s = .next (raiseN (emit s (.i2cClear c n.val)) 365 0 []) := by
    show execBcpI2cDone c (.sdaStuck n) s = _
    unfold execBcpI2cDone
    dsimp only
  refine ⟨_, stuck, i2cOf_of_bcp ((raiseN_bcp ..).trans rfl) c, mem_out_of_told ?_⟩
  rw [told_raiseN, told_emit s rfl]
  exact List.mem_cons_self

/-- Settles O49. A transfer ends through one place, which frees the controller before the waiting transfers of firmware go
out, and so none of them takes it again; lost arbitration is counted first and then retried or given up. -/
theorem boardTransfersRun : Obligations.BoardTransfersRun := by
  unfold Obligations.BoardTransfersRun
  refine ⟨?goBusy, ?go, ?stuck, ?done, ?retry⟩
  case goBusy =>
    intro s c busy
    show execBcpI2cGo c s = _
    unfold execBcpI2cGo
    rw [if_pos busy]
  case go =>
    intro s c free
    refine ⟨_, rfl, ?_⟩
    rw [free]
    exact ⟨i2cOf_setI2c .., rfl⟩
  case stuck => exact i2cDone_clears
  case done =>
    intro s c busy
    refine ⟨fun rx => ⟨_, exec_bcpI2cDone_ok busy rx, ?_⟩, ⟨_, (exec_bcpI2cDone_nack busy).1, i2cEnd_ends s c 1⟩,
      ⟨_, (exec_bcpI2cDone_nack busy).2, i2cEnd_ends s c 2⟩, arbLost_retries busy, arbLost_fails busy,
      i2cTimeout_ends busy⟩
    obtain ⟨ended, _⟩ := i2cEnd_keeps
      (setI2c s c { i2cOf s c with rx := subPad (rx.take (rf s (i2cA c + 4) 12 4)) 0 8 }) c 0
    rw [i2cOf_setI2c] at ended
    exact ⟨congrArg I2c.busy ended, congrArg I2c.status ended, congrArg I2c.rx ended⟩
  case retry =>
    intro s c busy waits
    refine ⟨_, rfl, ?_⟩
    dsimp only
    rw [if_pos (by rw [busy, waits]; rfl)]
    exact ⟨i2cOf_setI2c .., rfl⟩

end Sys2Proof.Machine
end

section
/-! SUPPORT. O48: the board controller's transactions over SPI and I2C, the mailboxes and DISC (R432 to R438, R446). -/

namespace Sys2Proof.Machine

variable {s t u : State}

/-! ## Instructions (R435) -/

theorem spiTransaction_write {i : Byte} (write : i.toNat / 16 = 2) (f : SpiOp → Nat → State) :
    spiTransaction i s f = f .write (i.toNat % 16 + 1) := by
  unfold spiTransaction spiInstr
  dsimp only
  rw [if_pos write]

theorem spiTransaction_read {i : Byte} (read : i.toNat / 16 = 3) (f : SpiOp → Nat → State) :
    spiTransaction i s f = f .read (i.toNat % 16 + 1) := by
  unfold spiTransaction spiInstr
  dsimp only
  rw [if_neg (by omega), if_pos read]

theorem spiTransaction_unknown {i : Byte} (noWrite : i.toNat / 16 ≠ 2) (noRead : i.toNat / 16 ≠ 3)
    (f : SpiOp → Nat → State) : spiTransaction i s f = bump s 0x1400210 1 := by
  unfold spiTransaction spiInstr
  dsimp only
  rw [if_neg noWrite, if_neg noRead]

/-! ## Irregular transactions -/

theorem bump_out (s : State) (a n : Nat) : (bump s a n).out = s.out := by
  unfold bump
  dsimp only
  split
  · split
    · rfl
    · rfl
  · rfl

theorem Counted.raiseLim {a n : Nat} (h : Counted s t a n) (id inst lim : Nat) (ns : List Nat) (plain : eventReg a = false) :
    Counted s (raiseLim t id inst lim ns) a n :=
  (rd_raiseLim _ _ _ _ _ plain).trans h

theorem spiErr_counted (s : State) {ctr : Nat} (plain : eventReg ctr = false) : Counted s (spiErr s ctr) ctr 1 :=
  (bump_counted s 1 (by rintro rfl; exact absurd plain (by decide))).raiseLim _ _ _ _ plain

theorem spiErr_bcp (s : State) (ctr : Nat) : (spiErr s ctr).bcp = s.bcp := (raiseLim_bcp ..).trans (bump_bcp ..)

theorem told_spiErr (s : State) (ctr : Nat) : told (spiErr s ctr) = told s := (told_raiseLim ..).trans (told_bump ..)

theorem i2ctErr_counted (s : State) : Counted s (i2ctErr s) 0x1400230 1 :=
  (bump_counted s 1 (by decide)).raiseLim _ _ _ _ (by decide)

theorem i2ctErr_bcp (s : State) : (i2ctErr s).bcp = s.bcp := (raiseLim_bcp ..).trans (bump_bcp ..)

/-! ## Words of the exchange RAM -/

theorem undefRead_xram (s : State) (x : XAcc) : (undefRead s x).bcp.xram = s.bcp.xram := by
  rw [(undefRead_quiet s x).bcp]

theorem xwarn_board_xram (s : State) : (xwarn s false).bcp.xram = s.bcp.xram := by
  unfold xwarn
  rw [raiseLim_bcp]
  exact (congrArg Bcp.xram (bump_bcp s 0x140021C 1) :)

theorem undefReads_xram (l : List XAcc) (s : State) : (l.foldl undefRead s).bcp.xram = s.bcp.xram :=
  List.foldlRecOn (motive := fun t => t.bcp.xram = s.bcp.xram) l _ rfl fun t h x _ => (undefRead_xram t x).trans h

/-- A collision that the board controller's access meets leaves the bytes of the RAM alone. -/
theorem xaccess_board_xram (s : State) (w : Nat) : (xaccess s false w true).1.bcp.xram = s.bcp.xram := by
  have hits := undefReads_xram (xhits s false w true) s
  cases none_ : (xhits s false w true).isEmpty with
  | true => simpa [xaccess, none_] using hits
  | false => simpa [xaccess, none_] using (xwarn_board_xram _).trans hits

/-- A word that the board controller writes into the RAM. -/
theorem xbyte_bcWrite {a : Nat} (inRam : a < 65536) (bad : Nat) (v : Word) (c : Nat) :
    xbyte (bcWrite s bad a v) c = xbyte (xwrite (xaccess s false (a / 4) true).1 a (leBytes 4 v.toNat)) c := by
  unfold bcWrite
  rw [if_pos inRam]
  exact xbyte_congr (xnote_xram ..) c

theorem exec_spiWrite_word {i : Byte} {a : BitVec 24} (v : Word) (write : i.toNat / 16 = 2) (aligned : a.toNat % 4 = 0) :
    exec (.spiWrite i a [v] .whole) s = .next (bcWrite s 0x1400214 a.toNat v) := by
  show execSpiWrite i a [v] .whole s = _
  unfold execSpiWrite
  rw [spiTransaction_write write]
  dsimp only
  rw [if_neg nofun, if_neg (by omega), List.take_of_length_le (Nat.le_add_left 1 _)]
  rfl

theorem spiWrite_stores {i : Byte} {a : BitVec 24} {v : Word} (write : i.toNat / 16 = 2) (aligned : a.toNat % 4 = 0)
    (inRam : a.toNat < 65536) :
    Gives (.spiWrite i a [v] .whole) s fun t =>
      (∀ k, k < 4 → xbyte t (a.toNat + k) = BitVec.ofNat 8 (v.toNat / 256 ^ k)) ∧
      (∀ b, b < 65536 → b < a.toNat ∨ a.toNat + 4 ≤ b → xbyte t b = xbyte s b) := by
  refine ⟨_, exec_spiWrite_word v write aligned, fun k small => ?_, fun b inside apart => ?_⟩
  · have here : k < (leBytes 4 v.toNat).length := by rwa [length_leBytes]
    rw [xbyte_bcWrite inRam, xbyte_xwrite_getElem here (by rw [length_leBytes]; omega), getElem_leBytes]
  · rw [xbyte_bcWrite inRam, xbyte_xwrite_ne, xbyte_congr (xaccess_board_xram ..)]
    intro k small
    rw [length_leBytes] at small
    omega

/-! ## Transactions that are refused -/

theorem spiMisaligned_counted {i : Byte} {a : BitVec 24} (misaligned : a.toNat % 4 ≠ 0) (k : Nat) (vs : List Word)
    (fin : BusEnd) :
    (i.toNat / 16 = 2 → Gives (.spiWrite i a vs fin) s fun t => Counted s t 0x1400214 1 ∧ t.bcp = s.bcp) ∧
    (i.toNat / 16 = 3 →
      Gives (.spiRead i a k fin) s fun t => Counted s t 0x1400214 1 ∧ t.bcp = s.bcp ∧ t.out = s.out) := by
  refine ⟨fun write => ⟨bump s 0x1400214 1, congrArg Host.Outcome.next ?_, bump_counted s 1 (by decide), bump_bcp ..⟩,
    fun read => ⟨bump s 0x1400214 1, congrArg Host.Outcome.next ?_, bump_counted s 1 (by decide), bump_bcp .., bump_out ..⟩⟩
  · rw [spiTransaction_write write]
    dsimp only
    rw [if_neg nofun, if_pos misaligned]
  · rw [spiTransaction_read read]
    dsimp only
    rw [if_neg nofun, if_pos misaligned]

theorem spiUnknown_counted {i : Byte} (noWrite : i.toNat / 16 ≠ 2) (noRead : i.toNat / 16 ≠ 3) (a : BitVec 24) (k : Nat)
    (vs : List Word) (fin : BusEnd) :
    (Gives (.spiBadInstr i) s fun t => Counted s t 0x1400210 1 ∧ t.bcp = s.bcp) ∧
    (Gives (.spiWrite i a vs fin) s fun t => Counted s t 0x1400210 1 ∧ t.bcp = s.bcp) ∧
    (Gives (.spiRead i a k fin) s fun t => Counted s t 0x1400210 1 ∧ t.bcp = s.bcp) := by
  have bad (f : SpiOp → Nat → State) := spiTransaction_unknown (s := s) noWrite noRead f
  have count : Counted s (bump s 0x1400210 1) 0x1400210 1 ∧ (bump s 0x1400210 1).bcp = s.bcp :=
    ⟨bump_counted s 1 (by decide), bump_bcp ..⟩
  exact ⟨⟨_, congrArg Host.Outcome.next (bad _), count⟩, ⟨_, congrArg Host.Outcome.next (bad _), count⟩, ⟨_, congrArg Host.Outcome.next (bad _), count⟩⟩

theorem spiWaitClocks_counted {i : Byte} {a : BitVec 24} (read : i.toNat / 16 = 3) (aligned : a.toNat % 4 = 0) (k : Nat) :
    Gives (.spiRead i a k .waitClocks) s fun t => Counted s t 0x1400208 1 ∧ t.bcp = s.bcp := by
  refine ⟨spiErr s 0x1400208, congrArg Host.Outcome.next ?_, spiErr_counted s (by decide), spiErr_bcp ..⟩
  rw [spiTransaction_read read]
  dsimp only
  rw [if_neg nofun, if_neg (by omega), if_pos rfl]

/-! ## Words of the controller's own registers -/

/-- The read of the ID word: the first byte of the wait clocks, then the word. -/
def idRead (s : State) : State := emit (emit s (.miso [0xFF])) (.readData 5 0x4D5A4880)

theorem spiRead_extra (s : State) (k : Nat) : Gives (.spiRead 0x30 0x10000 1 (.extraClocks k)) s fun t =>
    Counted s t 0x140020C 1 ∧ Out.miso (List.replicate (ceilDiv k 8) 0xFF) ∈ t.out := by
  refine ⟨spiErr (emit (idRead s) (.miso (List.replicate (ceilDiv k 8) 0xFF))) 0x140020C, rfl,
    (spiErr_counted _ (by decide)).of_rd rfl, mem_out_of_told ?_⟩
  rw [told_spiErr, told_emit _ rfl]
  exact List.mem_cons_self

theorem bcWrite_mailbox (s : State) (bad : Nat) (v : Word) : bcWrite s bad 0x1000C v =
    if s.bcp.outFull then bump s 0x1400218 1
    else raiseN (setBcp s { s.bcp with mboxOut := v, outFull := true }) 362 0 [] := by
  unfold bcWrite
  rw [if_neg (by decide), if_pos rfl]

theorem exec_i2ctWrite_mailbox {g : BitVec 7} (answers : i2ctAnswers s g = true) (v : Word) :
    exec (.i2ctWrite g [0x01, 0x00, 0x0C] [v] .whole) s = .next (
      if s.bcp.outFull then bump s 0x1400218 1
      else raiseN (setBcp s { s.bcp with mboxOut := v, outFull := true }) 362 0 []) := by
  rw [← bcWrite_mailbox s 0x1400230 v]
  refine congrArg Host.Outcome.next ?_
  extract_lets a
  rw [if_neg (by rw [answers]; decide), if_neg (by decide)]
  rfl

theorem i2ctWrite_short {g : BitVec 7} {addr : Bytes} (answers : i2ctAnswers s g = true) (short : addr.length < 3)
    (vs : List Word) (fin : BusEnd) :
    Gives (.i2ctWrite g addr vs fin) s fun t => Counted s t 0x1400230 1 ∧ t.bcp = s.bcp := by
  refine ⟨i2ctErr s, congrArg Host.Outcome.next ?_, i2ctErr_counted s, i2ctErr_bcp s⟩
  extract_lets a
  rw [if_neg (by rw [answers]; decide), if_pos (.inl short)]

theorem exec_i2ctRead_mailbox {g : BitVec 7} (answers : i2ctAnswers s g = true) :
    exec (.i2ctRead g 0x10008 1 .whole) s = .next { s with
      bcp := { s.bcp with inFull := false }, out := .readData 6 s.bcp.mboxIn :: s.out } := by
  show execI2ctRead g 0x10008 1 .whole s = _
  unfold execI2ctRead
  rw [if_neg (by rw [answers]; decide)]
  rfl

theorem exec_i2ct_silent {g : BitVec 7} (other : rf s 0x1400010 0 7 ≠ g.toNat) (addr : Bytes) (a : BitVec 24)
    (vs : List Word) (k : Nat) (fin : BusEnd) :
    exec (.i2ctWrite g addr vs fin) s = .next s ∧ exec (.i2ctRead g a k fin) s = .next s := by
  have silent : i2ctAnswers s g = false := decide_eq_false other
  refine ⟨?_, ?_⟩
  · show execI2ctWrite g addr vs fin s = _
    unfold execI2ctWrite
    extract_lets
    rw [if_pos silent]
  · show execI2ctRead g a k fin s = _
    unfold execI2ctRead
    rw [if_pos silent]

theorem discStuck_suspends (s : State) : Gives .bcpDiscStuck s fun t =>
    t.brim = { s.brim with discStuck := true, searching := false, found := [] } :=
  ⟨_, rfl, raiseN_brim ..⟩

/-- Settles O48. A transaction's instruction decides what runs; a word of the RAM goes through `xwrite`, whose bytes no
collision touches, and the controller's own words are read and written in place. -/
theorem boardControllerReachesItsSpace : Obligations.BoardControllerReachesItsSpace := by
  unfold Obligations.BoardControllerReachesItsSpace
  refine ⟨fun s i a v write aligned inRam => spiWrite_stores write aligned inRam,
    fun s i a k vs fin misaligned => spiMisaligned_counted misaligned k vs fin, fun s => rfl, fun s => ⟨_, rfl, rfl, rfl⟩,
    spiRead_extra, fun s i a k read aligned => spiWaitClocks_counted read aligned k,
    fun s i a k vs fin noWrite noRead => spiUnknown_counted noWrite noRead a k vs fin,
    fun s => ⟨_, rfl, spiErr_counted s (by decide), spiErr_bcp ..⟩, fun s g v answers empty => ?mailbox,
    fun s g v answers full => ?mailboxFull, fun s g addr vs fin answers short => i2ctWrite_short answers short vs fin,
    fun s g answers => exec_i2ctRead_mailbox answers,
    fun s g addr a vs k fin other => exec_i2ct_silent other addr a vs k fin, fun s v => rfl, fun s => rfl,
    discStuck_suspends⟩
  case mailbox =>
    refine ⟨_, exec_i2ctWrite_mailbox answers v, ?_⟩
    rw [empty]
    exact raiseN_bcp ..
  case mailboxFull =>
    refine ⟨_, exec_i2ctWrite_mailbox answers v, ?_⟩
    rw [full]
    exact ⟨bump_counted s 1 (by decide), bump_bcp ..⟩

end Sys2Proof.Machine
end

section
/-! SUPPORT. O50: clock inputs, unified clocking, the return from it, and mux rescues (R451 to R459). -/

namespace Sys2Proof.Machine

variable {s t u : State}

theorem rb_of_rd {a : Nat} (same : rd t a = rd s a) (i : Nat) : rb t a i = rb s a i := congrArg (flag · i) same

/-! ## Domains -/

theorem domainSrc_setDomain (c : Clk) (x : ClkSrc) (d e : Domain) :
    domainSrc (setDomain c x d) e = if e = d then x else domainSrc c e := by
  cases d <;> cases e <;> rfl

/-- A step of the clock selections: the presence of the inputs, the mode and the registers stay. -/
structure Reclocked (s t : State) : Prop where
  xtal : t.clk.xtal = s.clk.xtal
  loin : t.clk.loin = s.clk.loin
  unified : t.clk.unified = s.clk.unified
  reg : ∀ a, eventReg a = false → rd t a = rd s a

theorem Reclocked.refl (s : State) : Reclocked s s := ⟨rfl, rfl, rfl, fun _ _ => rfl⟩

theorem Reclocked.trans (h : Reclocked s t) (k : Reclocked t u) : Reclocked s u :=
  ⟨k.xtal.trans h.xtal, k.loin.trans h.loin, k.unified.trans h.unified, fun a plain => (k.reg a plain).trans (h.reg a plain)⟩

theorem Reclocked.foldl {f : State → Domain → State} (each : ∀ t d, Reclocked t (f t d)) (l : List Domain) (s : State) :
    Reclocked s (l.foldl f s) :=
  List.foldlRecOn l f (Reclocked.refl s) fun t h d _ => h.trans (each t d)

theorem reclocked_setDomain (s : State) (x : ClkSrc) (d : Domain) : Reclocked s (setClk s (setDomain s.clk x d)) := by
  cases d <;> exact ⟨rfl, rfl, rfl, fun _ _ => rfl⟩

theorem reclocked_raiseN (s : State) (id inst : Nat) (ns : List Nat) : Reclocked s (raiseN s id inst ns) := by
  have clk := raiseN_clk s id inst ns
  exact ⟨congrArg Clk.xtal clk, congrArg Clk.loin clk, congrArg Clk.unified clk, fun _ plain => rd_raiseN _ _ _ _ plain⟩

/-! ## Switches (R457, R458) -/

/-- Where a switch to a selection leaves a domain, with or without the mux watchdog. -/
def switched (watched : Bool) (x old : ClkSrc) : ClkSrc :=
  if clkRuns old then x else if old = .stuck then .stuck else if watched then hungOn x else .stuck

theorem switchTo_clk {x : ClkSrc} {d : Domain} (present : clockPresent s.clk d x = true) :
    (switchTo s x d).clk = setDomain s.clk (switched (rb s 0x100000 4) x (domainSrc s.clk d)) d := by
  unfold switchTo
  rw [if_neg (by rw [present]; decide)]
  rfl

theorem switchTo_absent {x : ClkSrc} {d : Domain} (absent : clockPresent s.clk d x = false) :
    (switchTo s x d).clk = s.clk := by
  unfold switchTo
  rw [if_pos absent]
  exact raiseN_clk ..

theorem switchTo_reclocked (s : State) (x : ClkSrc) (d : Domain) : Reclocked s (switchTo s x d) := by
  unfold switchTo
  extract_lets old y
  split
  · exact reclocked_raiseN ..
  · exact reclocked_setDomain ..

theorem clockPresent_congr (h : Reclocked s t) (d : Domain) (x : ClkSrc) :
    clockPresent t.clk d x = clockPresent s.clk d x := by
  cases x <;> cases d <;> simp [clockPresent, h.loin, h.xtal]

/-- A switch of one domain: where it has the new clock it is left as R457 and R458 say, and every other domain stays. -/
theorem domainSrc_switchTo (s : State) (x : ClkSrc) (d e : Domain) :
    domainSrc (switchTo s x d).clk e =
      if e = d ∧ clockPresent s.clk d x = true then switched (rb s 0x100000 4) x (domainSrc s.clk d)
      else domainSrc s.clk e := by
  cases present : clockPresent s.clk d x with
  | true => simp [switchTo_clk present, domainSrc_setDomain]
  | false => simp [switchTo_absent present]

/-- Distinct domains are switched independently of each other. -/
theorem domainSrc_switches (x : ClkSrc) {l : List Domain} (distinct : l.Nodup) : ∀ (s : State) (e : Domain),
    domainSrc (l.foldl (fun t d => switchTo t x d) s).clk e =
      if e ∈ l ∧ clockPresent s.clk e x = true then switched (rb s 0x100000 4) x (domainSrc s.clk e)
      else domainSrc s.clk e := by
  induction l with
  | nil => simp
  | cons d l ih =>
    intro s e
    obtain ⟨notLater, rest⟩ := List.nodup_cons.mp distinct
    have step := switchTo_reclocked s x d
    rw [List.foldl_cons, ih rest, clockPresent_congr step, rb_of_rd (step.reg 0x100000 (by decide)), domainSrc_switchTo]
    by_cases here : e = d
    · subst here
      simp [notLater]
    · simp [here]

/-! ## The mode (R453, R454) -/

/-- The selection of every domain in a mode. -/
def modeSrc (uni : Bool) : ClkSrc := if uni then .root else .main

/-- The phase of a switch of TBCLK moves the timescale only. -/
theorem phased_clk (t : State) (p : Prop) [Decidable p] :
    (if p then foldPhase t else t).clk = t.clk ∧ (if p then foldPhase t else t).regs = t.regs := by
  split
  · exact ⟨rfl, rfl⟩
  · exact ⟨rfl, rfl⟩

theorem changeMode_split (s : State) (uni : Bool) :
    (changeMode s uni).clk = ([Domain.core, .pke, .ctrl, .tbclk].foldl (fun t d => switchTo t (modeSrc uni) d)
      (setClk s { s.clk with unified := uni })).clk ∧
    ∀ a, eventReg a = false → rd (changeMode s uni) a =
      rd ([Domain.core, .pke, .ctrl, .tbclk].foldl (fun t d => switchTo t (modeSrc uni) d)
        (setClk s { s.clk with unified := uni })) a := by
  unfold changeMode modeSrc
  extract_lets x
  exact ⟨(raiseN_clk ..).trans (phased_clk ..).1, fun a plain =>
    (rd_raiseN _ _ _ _ plain).trans (congrArg (tget coldWord · a) (phased_clk ..).2)⟩

/-- The device after a change of the mode. -/
structure ModeChanged (uni : Bool) (s t : State) : Prop where
  xtal : t.clk.xtal = s.clk.xtal
  loin : t.clk.loin = s.clk.loin
  unified : t.clk.unified = uni
  reg : ∀ a, eventReg a = false → rd t a = rd s a
  src : ∀ d, domainSrc t.clk d =
    if clockPresent s.clk d (modeSrc uni) = true then switched (rb s 0x100000 4) (modeSrc uni) (domainSrc s.clk d)
    else domainSrc s.clk d

theorem changeMode_changed (s : State) (uni : Bool) : ModeChanged uni s (changeMode s uni) := by
  obtain ⟨clk, reg⟩ := changeMode_split s uni
  have step := Reclocked.foldl (fun t d => switchTo_reclocked t (modeSrc uni) d) [Domain.core, .pke, .ctrl, .tbclk]
    (setClk s { s.clk with unified := uni })
  refine ⟨(congrArg Clk.xtal clk).trans step.xtal, (congrArg Clk.loin clk).trans step.loin,
    (congrArg Clk.unified clk).trans step.unified, fun a plain => (reg a plain).trans (step.reg a plain), fun d => ?_⟩
  rw [clk, domainSrc_switches (modeSrc uni) (by decide)]
  have mem : d ∈ [Domain.core, .pke, .ctrl, .tbclk] := by cases d <;> decide
  have present : clockPresent { s.clk with unified := uni } d (modeSrc uni) = clockPresent s.clk d (modeSrc uni) := by
    cases uni <;> cases d <;> rfl
  have src : domainSrc { s.clk with unified := uni } d = domainSrc s.clk d := by cases d <;> rfl
  simp only [setClk, mem, true_and, present, src]
  rfl

theorem holdsChange_clk (s : State) : (holdsChange s).clk = s.clk := holdsChange_within s .clk (by decide)

/-! ## Clocks that stop (R456) -/

theorem stopClock_reclocked (s : State) (d : Domain) : Reclocked s (stopClock s d) := by
  unfold stopClock
  split
  · exact .refl s
  · exact reclocked_setDomain ..

theorem domainSrc_stopClock (s : State) (d e : Domain) : domainSrc (stopClock s d).clk e =
    if e = d ∧ domainSrc s.clk d ≠ .stuck then .stopped else domainSrc s.clk e := by
  unfold stopClock
  by_cases stuck : domainSrc s.clk d = .stuck
  · simp [stuck]
  · simp [stuck, setClk, domainSrc_setDomain]

theorem ctrlToOsc_reclocked (s : State) : Reclocked s (ctrlToOsc s) := by
  unfold ctrlToOsc
  split
  · exact .refl s
  · exact (stopClock_reclocked ..).trans (switchTo_reclocked ..)

theorem ctrlToOsc_tbclk (s : State) : (ctrlToOsc s).clk.tbclk = s.clk.tbclk := by
  unfold ctrlToOsc
  split
  · rfl
  · have switch := domainSrc_switchTo (stopClock s .ctrl) .osc .ctrl .tbclk
    rw [if_neg (by simp)] at switch
    have stop := domainSrc_stopClock s .ctrl .tbclk
    rw [if_neg (by simp)] at stop
    exact switch.trans stop

theorem allStop_reclocked (s : State) : Reclocked s (allStop s) :=
  (Reclocked.foldl stopClock_reclocked _ s).trans (ctrlToOsc_reclocked _)

/-- A clock that may stop stops, and one that hung for good stays so. -/
def stopped (old : ClkSrc) : ClkSrc := if old = .stuck then .stuck else .stopped

theorem stopClock_tbclk (s : State) : (stopClock s .tbclk).clk.tbclk = stopped s.clk.tbclk := by
  have stop := domainSrc_stopClock s .tbclk .tbclk
  have old : domainSrc s.clk .tbclk = s.clk.tbclk := rfl
  unfold stopped
  by_cases stuck : s.clk.tbclk = .stuck
  · rw [if_neg (by simp [old, stuck])] at stop
    rw [if_pos stuck]
    exact stop.trans stuck
  · rw [if_pos ⟨rfl, stuck⟩] at stop
    rw [if_neg stuck]
    exact stop

theorem allStop_tbclk (s : State) : (allStop s).clk.tbclk = stopped s.clk.tbclk := by
  have core := domainSrc_stopClock s .core .tbclk
  have pke := domainSrc_stopClock (stopClock s .core) .pke .tbclk
  rw [if_neg (by simp)] at core pke
  have before : (stopClock (stopClock s .core) .pke).clk.tbclk = s.clk.tbclk := pke.trans core
  refine (ctrlToOsc_tbclk _).trans ?_
  show (stopClock (stopClock (stopClock s .core) .pke) .tbclk).clk.tbclk = _
  rw [stopClock_tbclk, before]

/-! ## FAILED (R456, R505) -/

theorem enterFailed_clk (s : State) (cause : Nat) : (enterFailed s cause).clk = s.clk :=
  (within_enterFailed (ps := [.glb, .lp, .rsp, .nts]) (by decide) cause).2 .refl .clk (by decide)

theorem enterFailed_tb (s : State) (cause : Nat) : (enterFailed s cause).tb = s.tb :=
  (within_enterFailed (ps := [.glb, .lp, .rsp, .nts]) (by decide) cause).2 .refl .tb (by decide)

theorem enterFailed_glb (s : State) (cause : Nat) : (enterFailed s cause).glb =
    if s.glb.recovery = 2 then s.glb else { s.glb with recovery := 2, failCause := cause, failN := true } := by
  unfold enterFailed
  extract_lets s1
  have gasp : s1.glb = s.glb := (within_lastGasp (ps := [.lp]) (by decide)).2 .refl .glb (by decide)
  split
  · rfl
  · refine Eq.trans (holdsChange_within _ .glb (by decide)) ?_
    exact (raiseN_glb ..).trans (congrArg (fun g : Glb => { g with recovery := 2, failCause := cause, failN := true }) gasp)

theorem enterFailed_recovery (s : State) (cause : Nat) : (enterFailed s cause).glb.recovery = 2 := by
  rw [enterFailed_glb]
  split
  · assumption
  · rfl

theorem clkForceInvalid_clk (s : State) : (clkForceInvalid s).clk = s.clk :=
  (within_clkForceInvalid (ps := validParts) (by decide)).2 .refl .clk (by decide)

/-- CLK sets FORCE_INVALID, and TIME_VALID falls. -/
theorem clkForceInvalid_tb (s : State) : (clkForceInvalid s).tb = { s.tb with forceInvalid := true, timeValid := false } :=
  setValid_false_tb _

/-! ## A lost CORE_XTAL -/

/-- CORE_XTAL counted and reported as lost. -/
def xtalGone (s : State) : State :=
  raiseN (bump (setClk s { s.clk with xtal := false, xtalTick := s.tb.ticks }) 0x100104 1) 16 0 []

theorem xtalGone_clk (s : State) : (xtalGone s).clk = { s.clk with xtal := false, xtalTick := s.tb.ticks } :=
  (raiseN_clk ..).trans (bump_clk ..)

theorem xtalGone_glb (s : State) : (xtalGone s).glb = s.glb := (raiseN_glb ..).trans (bump_glb ..)

theorem xtalGone_counted (s : State) : Counted s (xtalGone s) 0x100104 1 :=
  Counted.raiseN (t := bump (setClk s { s.clk with xtal := false, xtalTick := s.tb.ticks }) 0x100104 1)
    (bump_counted _ 1 (by decide)) 16 0 [] (by decide)

theorem rd_xtalGone (s : State) : rd (xtalGone s) 0x100000 = rd s 0x100000 :=
  (rd_raiseN _ _ _ _ (by decide)).trans (rd_bump_ne _ 1 (by decide) (by decide))

/-- CORE and PKE stop, which run from CORE_XTAL. -/
def xtalStopped (s : State) : State := stopClock (stopClock (xtalGone s) .core) .pke

/-- CTRL stops as well, unless it runs on the internal oscillator. -/
def ctrlStopped (s : State) : State := if s.clk.ctrl = .osc then s else stopClock s .ctrl

theorem execClkXtalLost_present (here : s.clk.xtal = true) : execClkXtalLost s = .next (
    if (xtalGone s).clk.unified then xtalGone s
    else if (xtalGone s).clk.loin = false then enterFailed (clkForceInvalid (allStop (xtalGone s))) 1
    else if rb (xtalGone s) 0x100000 3 then holdsChange (changeMode (ctrlStopped (xtalStopped s)) true)
    else enterFailed (ctrlToOsc (xtalStopped s)) 1) := by
  unfold execClkXtalLost
  rw [if_neg (by rw [here]; decide)]
  rfl

theorem xtalStopped_reclocked (s : State) : Reclocked (xtalGone s) (xtalStopped s) :=
  (stopClock_reclocked ..).trans (stopClock_reclocked ..)

theorem ctrlStopped_reclocked (s : State) : Reclocked s (ctrlStopped s) := by
  unfold ctrlStopped
  split
  · exact .refl s
  · exact stopClock_reclocked ..

/-- However a lost CORE_XTAL is met, it stays lost. -/
theorem execClkXtalLost_xtal {t : State} (goes : execClkXtalLost s = .next t) : t.clk.xtal = false := by
  cases here : s.clk.xtal with
  | false =>
    unfold execClkXtalLost at goes
    rw [if_pos here] at goes
    cases goes
    exact here
  | true =>
    have gone : (xtalGone s).clk.xtal = false := congrArg Clk.xtal (xtalGone_clk s)
    rw [execClkXtalLost_present here] at goes
    cases goes
    split
    · exact gone
    · split
      · rw [enterFailed_clk, clkForceInvalid_clk, (allStop_reclocked _).xtal, gone]
      · split
        · rw [holdsChange_clk, (changeMode_changed ..).xtal, (ctrlStopped_reclocked _).xtal,
            (xtalStopped_reclocked s).xtal, gone]
        · rw [enterFailed_clk, (ctrlToOsc_reclocked _).xtal, (xtalStopped_reclocked s).xtal, gone]

theorem domainSrc_ctrlStopped (s : State) {d : Domain} (other : d ≠ .ctrl) :
    domainSrc (ctrlStopped s).clk d = domainSrc s.clk d := by
  unfold ctrlStopped
  split
  · rfl
  · rw [domainSrc_stopClock, if_neg (by simp [other])]

theorem xtalStopped_tbclk (s : State) : domainSrc (xtalStopped s).clk .tbclk = s.clk.tbclk := by
  unfold xtalStopped
  rw [domainSrc_stopClock, if_neg (by simp), domainSrc_stopClock, if_neg (by simp), xtalGone_clk]
  rfl

theorem xtalStopped_core {s : State} (free : s.clk.core ≠ .stuck) : domainSrc (xtalStopped s).clk .core = .stopped := by
  unfold xtalStopped
  have core : domainSrc (xtalGone s).clk .core = s.clk.core := by
    rw [xtalGone_clk]
    rfl
  rw [domainSrc_stopClock, if_neg (by simp), domainSrc_stopClock, if_pos ⟨rfl, by rwa [core]⟩]

theorem xtalLost_unifies (here : s.clk.xtal = true) (single : s.clk.unified = false) (loin : s.clk.loin = true)
    (auto : rb s 0x100000 3 = true) :
    Gives .clkXtalLost s fun t =>
      t.clk.xtal = false ∧ t.clk.unified = true ∧ Counted s t 0x100104 1 ∧
      (clkRuns s.clk.tbclk = true → t.clk.tbclk = .root) ∧
      (s.clk.core ≠ .stuck → t.clk.core = if rb s 0x100000 4 then .hungRoot else .stuck) := by
  have goes : execClkXtalLost s = .next (holdsChange (changeMode (ctrlStopped (xtalStopped s)) true)) := by
    rw [execClkXtalLost_present here, xtalGone_clk, if_neg (by simp [single]), if_neg (by simp [loin]),
      if_pos ((rb_of_rd (rd_xtalGone s) 3).trans auto)]
  have mode := changeMode_changed (ctrlStopped (xtalStopped s)) true
  have before := (xtalStopped_reclocked s).trans (ctrlStopped_reclocked (xtalStopped s))
  have root (d : Domain) : clockPresent (ctrlStopped (xtalStopped s)).clk d (modeSrc true) = true := by
    show (ctrlStopped (xtalStopped s)).clk.loin = true
    rw [before.loin, xtalGone_clk]
    exact loin
  have watch : rb (ctrlStopped (xtalStopped s)) 0x100000 4 = rb s 0x100000 4 :=
    rb_of_rd ((before.reg _ (by decide)).trans (rd_xtalGone s)) 4
  have src (d : Domain) (other : d ≠ .ctrl) : domainSrc (changeMode (ctrlStopped (xtalStopped s)) true).clk d =
      switched (rb s 0x100000 4) .root (domainSrc (xtalStopped s).clk d) := by
    rw [mode.src, if_pos (root d), watch, domainSrc_ctrlStopped _ other]
    rfl
  refine ⟨_, goes, execClkXtalLost_xtal goes, ?_, ?_, fun runs => ?_, fun free => ?_⟩
  · rw [holdsChange_clk, mode.unified]
  · exact ((rd_holdsChange (by decide) (by decide) _).trans ((mode.reg _ (by decide)).trans
      (before.reg _ (by decide)))).trans (xtalGone_counted s)
  · rw [holdsChange_clk]
    refine (src .tbclk (by decide)).trans ?_
    rw [xtalStopped_tbclk, switched, if_pos runs]
  · rw [holdsChange_clk]
    refine (src .core (by decide)).trans ?_
    rw [xtalStopped_core free]
    rfl

theorem xtalLost_fails (here : s.clk.xtal = true) (single : s.clk.unified = false) (loin : s.clk.loin = true)
    (alone : rb s 0x100000 3 = false) (works : s.glb.recovery ≠ 2) :
    Gives .clkXtalLost s fun t => t.glb.recovery = 2 ∧ t.glb.failCause = 1 ∧ t.glb.failN = true := by
  have goes : execClkXtalLost s = .next (enterFailed (ctrlToOsc (xtalStopped s)) 1) := by
    rw [execClkXtalLost_present here, xtalGone_clk, if_neg (by simp [single]), if_neg (by simp [loin]),
      if_neg (by rw [rb_of_rd (rd_xtalGone s) 3, alone]; decide)]
  have glb : (ctrlToOsc (xtalStopped s)).glb = s.glb := by
    have steps : Within [.clk] (xtalGone s) (ctrlToOsc (xtalStopped s)) := by simp [xtalStopped]
    exact Eq.trans (steps .glb (by decide)) (xtalGone_glb s)
  refine ⟨_, goes, ?_⟩
  beta_reduce
  rw [enterFailed_glb, if_neg (by rwa [glb])]
  exact ⟨rfl, rfl, rfl⟩

/-! ## A lost LO_IN -/

/-- LO_IN reported as lost. -/
def loinGone (s : State) : State :=
  raiseN (setClk s { s.clk with loin := false, loinTick := s.tb.ticks }) 17 0 []

theorem loinGone_clk (s : State) : (loinGone s).clk = { s.clk with loin := false, loinTick := s.tb.ticks } :=
  raiseN_clk ..

/-- What LO_IN drives stops: every domain in unified clocking or without CORE_XTAL, else TBCLK. -/
def loinStopped (s : State) : State :=
  if (loinGone s).clk.unified = true ∨ (loinGone s).clk.xtal = false then allStop (loinGone s)
  else stopClock (loinGone s) .tbclk

theorem execClkLoinLost_present (here : s.clk.loin = true) :
    execClkLoinLost s = .next (enterFailed (clkForceInvalid (loinStopped s)) 1) := by
  unfold execClkLoinLost
  rw [if_neg (by rw [here]; decide)]
  rfl

theorem loinStopped_stops (s : State) : Reclocked (loinGone s) (loinStopped s) ∧
    (loinStopped s).clk.tbclk = stopped s.clk.tbclk := by
  have tbclk : (loinGone s).clk.tbclk = s.clk.tbclk := (congrArg Clk.tbclk (loinGone_clk s) :)
  unfold loinStopped
  split
  · exact ⟨allStop_reclocked _, by rw [allStop_tbclk, tbclk]⟩
  · exact ⟨stopClock_reclocked .., by rw [stopClock_tbclk, tbclk]⟩

theorem loinFailed_clk (s : State) :
    (enterFailed (clkForceInvalid (loinStopped s)) 1).clk = (loinStopped s).clk := by
  rw [enterFailed_clk, clkForceInvalid_clk]

theorem loinFailed_loin (s : State) : (enterFailed (clkForceInvalid (loinStopped s)) 1).clk.loin = false := by
  rw [loinFailed_clk, (loinStopped_stops s).1.loin, loinGone_clk]

theorem execClkLoinLost_loin {t : State} (goes : execClkLoinLost s = .next t) : t.clk.loin = false := by
  cases here : s.clk.loin with
  | false =>
    unfold execClkLoinLost at goes
    rw [if_pos here] at goes
    cases goes
    exact here
  | true =>
    rw [execClkLoinLost_present here] at goes
    cases goes
    exact loinFailed_loin s

theorem loinLost_fails (here : s.clk.loin = true) :
    Gives .clkLoinLost s fun t =>
      t.clk.loin = false ∧ (s.clk.tbclk ≠ .stuck → t.clk.tbclk = .stopped) ∧ t.tb.timeValid = false ∧
      t.tb.forceInvalid = true ∧ t.glb.recovery = 2 ∧ ∀ d, kaolinOutput t d = none := by
  have tb := (enterFailed_tb (clkForceInvalid (loinStopped s)) 1).trans (clkForceInvalid_tb (loinStopped s))
  refine ⟨_, execClkLoinLost_present here, loinFailed_loin s, fun free => ?_, congrArg Tb.timeValid tb,
    congrArg Tb.forceInvalid tb, enterFailed_recovery .., fun d => ?_⟩
  · rw [loinFailed_clk, (loinStopped_stops s).2, stopped, if_neg free]
  · unfold kaolinOutput
    rw [loinFailed_loin]
    exact if_neg (by simp)

/-! ## The comparison of the three frequencies (R451) -/

theorem ppmAgree_comm (a b : Int) : ppmAgree a b = ppmAgree b a := by
  unfold ppmAgree
  rw [show (a - b).natAbs = (b - a).natAbs by omega]

/-- The presence of the inputs after a comparison. -/
def compared (s : State) (xOk lOk : Bool) : State :=
  setClk s { s.clk with
    xtal := s.clk.xtal || xOk, xtalTick := if xOk && s.clk.xtal then s.clk.xtalTick else s.tb.ticks,
    loin := s.clk.loin || lOk, loinTick := if lOk && s.clk.loin then s.clk.loinTick else s.tb.ticks }

/-- What a comparison finds lost is met before the presence is noted. -/
def compareLoss (s : State) (lo xtal sds : Int) : State :=
  if ppmLost xtal lo sds then outcomeState s (execClkXtalLost s)
  else if ppmLost lo xtal sds then outcomeState s (execClkLoinLost s) else s

theorem alarmEnds_clk (t : State) (p : Prop) [Decidable p] (id : Nat) :
    (if p then alarmClear t id else t).clk = t.clk := by
  split
  · exact alarmClear_clk ..
  · rfl

/-- Where two of the three agree, the inputs' presence follows the comparison. -/
theorem clkFreqCheck_compares {lo xtal sds : Int}
    (agree : ¬(ppmAgree lo xtal = false ∧ ppmAgree lo sds = false ∧ ppmAgree xtal sds = false)) :
    Gives (.clkFreqCheck lo xtal sds) s fun t =>
      t.clk.xtal = ((compareLoss s lo xtal sds).clk.xtal || (ppmAgree xtal lo || ppmAgree xtal sds)) ∧
      t.clk.loin = ((compareLoss s lo xtal sds).clk.loin || (ppmAgree lo xtal || ppmAgree lo sds)) := by
  refine ⟨_, rfl, ?_⟩
  rw [if_neg agree]
  extract_lets xOk lOk s1 c s2 s3
  have clk : s3.clk = (compared (compareLoss s lo xtal sds) xOk lOk).clk := alarmEnds_clk s2 _ 16
  refine ⟨?_, ?_⟩
  · rw [alarmEnds_clk, clk]
    rfl
  · rw [alarmEnds_clk, clk]
    rfl

theorem clkFreqCheck_unjudged {lo xtal sds : Int} (loXtal : 200 < (lo - xtal).natAbs) (loSds : 200 < (lo - sds).natAbs)
    (xtalSds : 200 < (xtal - sds).natAbs) :
    Gives (.clkFreqCheck lo xtal sds) s fun t =>
      t.clk = { s.clk with xtalTick := s.tb.ticks, loinTick := s.tb.ticks } := by
  have apart {a b : Int} (far : 200 < (a - b).natAbs) : ppmAgree a b = false := decide_eq_false (by omega)
  refine ⟨_, rfl, ?_⟩
  rw [if_pos ⟨apart loXtal, apart loSds, apart xtalSds⟩]
  exact raiseN_clk ..

theorem clkFreqCheck_agree {lo xtal sds : Int} (loXtal : (lo - xtal).natAbs ≤ 200) :
    Gives (.clkFreqCheck lo xtal sds) s fun t => t.clk.xtal = true ∧ t.clk.loin = true := by
  have near : ppmAgree lo xtal = true := decide_eq_true loXtal
  obtain ⟨t, goes, xIn, lIn⟩ := clkFreqCheck_compares (s := s) (lo := lo) (xtal := xtal) (sds := sds) (by simp [near])
  exact ⟨t, goes, by rw [xIn, ppmAgree_comm xtal, near]; simp, by rw [lIn, near]; simp⟩

theorem ppmLost_of_far {x a b : Int} (farA : 1000 < (x - a).natAbs) (farB : 1000 < (x - b).natAbs)
    (agree : (a - b).natAbs ≤ 200) : ppmLost x a b = true ∧ ppmAgree x a = false ∧ ppmAgree x b = false := by
  refine ⟨?_, decide_eq_false (by omega), decide_eq_false (by omega)⟩
  unfold ppmLost ppmAgree
  rw [decide_eq_true farA, decide_eq_true farB, decide_eq_true agree]
  rfl

theorem clkFreqCheck_xtalLost {lo xtal sds : Int} (xtalLo : 1000 < (xtal - lo).natAbs)
    (xtalSds : 1000 < (xtal - sds).natAbs) (loSds : (lo - sds).natAbs ≤ 200) :
    Gives (.clkFreqCheck lo xtal sds) s fun t => t.clk.xtal = false := by
  obtain ⟨lost, farLo, farSds⟩ := ppmLost_of_far xtalLo xtalSds loSds
  have near : ppmAgree lo sds = true := decide_eq_true loSds
  have gone : (compareLoss s lo xtal sds).clk.xtal = false := by
    unfold compareLoss
    rw [if_pos lost]
    exact execClkXtalLost_xtal rfl
  obtain ⟨t, goes, xIn, -⟩ := clkFreqCheck_compares (s := s) (lo := lo) (xtal := xtal) (sds := sds) (by simp [near])
  exact ⟨t, goes, xIn.trans (by rw [gone, farLo, farSds]; rfl)⟩

theorem clkFreqCheck_loinLost {lo xtal sds : Int} (loXtal : 1000 < (lo - xtal).natAbs)
    (loSds : 1000 < (lo - sds).natAbs) (xtalSds : (xtal - sds).natAbs ≤ 200) :
    Gives (.clkFreqCheck lo xtal sds) s fun t => t.clk.loin = false := by
  obtain ⟨lost, farXtal, farSds⟩ := ppmLost_of_far loXtal loSds xtalSds
  have near : ppmAgree xtal sds = true := decide_eq_true xtalSds
  have kept : ppmLost xtal lo sds = false := by
    unfold ppmLost
    rw [decide_eq_false (p := 1000 < (xtal - sds).natAbs) (by omega)]
    simp
  have gone : (compareLoss s lo xtal sds).clk.loin = false := by
    unfold compareLoss
    rw [if_neg (by rw [kept]; decide), if_pos lost]
    exact execClkLoinLost_loin rfl
  obtain ⟨t, goes, -, lIn⟩ := clkFreqCheck_compares (s := s) (lo := lo) (xtal := xtal) (sds := sds) (by simp [near])
  exact ⟨t, goes, lIn.trans (by rw [gone, farXtal, farSds]; rfl)⟩

/-! ## Unified clocking and the return from it (R453) -/

/-- UNIFIED_REQ is set. -/
def unifiedAsked (s : State) : State := wrf s 0x100000 2 1 1

theorem rb_unifiedAsked (s : State) : rb (unifiedAsked s) 0x100000 2 = true ∧
    rb (unifiedAsked s) 0x100000 4 = rb s 0x100000 4 := by
  unfold rb unifiedAsked
  rw [rd_wrf_same]
  exact ⟨flag_putFld_of_mem _ _ (by decide) (by decide), flag_putFld_of_notMem _ _ (by decide) (by decide)⟩

theorem unifiedReq_enters (single : s.clk.unified = false) (loin : s.clk.loin = true) :
    Gives .unifiedReq s fun t =>
      t.clk.unified = true ∧ rb t 0x100000 2 = true ∧
      ∀ d, domainSrc t.clk d = if clkRuns (domainSrc s.clk d) then .root else if domainSrc s.clk d = .stuck then .stuck
        else if rb s 0x100000 4 then .hungRoot else .stuck := by
  have goes : exec .unifiedReq s = .next (holdsChange (changeMode (unifiedAsked s) true)) := by
    refine congrArg Host.Outcome.next ?_
    extract_lets s1
    exact (if_neg (c := s.clk.unified = true) (by simp [single])).trans (if_pos loin)
  have mode := changeMode_changed (unifiedAsked s) true
  refine ⟨_, goes, ?_, ?_, fun d => ?_⟩
  · rw [holdsChange_clk, mode.unified]
  · exact (rb_of_rd ((rd_holdsChange (by decide) (by decide) _).trans (mode.reg _ (by decide))) 2).trans
      (rb_unifiedAsked s).1
  · rw [holdsChange_clk, mode.src, (rb_unifiedAsked s).2]
    exact if_pos loin

theorem unifiedReq_refused (single : s.clk.unified = false) (lost : s.clk.loin = false) :
    Gives .unifiedReq s fun t => t.clk = s.clk ∧ rb t 0x100000 2 = true := by
  have goes : exec .unifiedReq s = .next
      ([Domain.core, .pke, .ctrl, .tbclk].foldl (fun t d => switchTo t .root d) (unifiedAsked s)) := by
    refine congrArg Host.Outcome.next ?_
    extract_lets s1
    exact (if_neg (c := s.clk.unified = true) (by simp [single])).trans (if_neg (c := s.clk.loin = true) (by simp [lost]))
  have kept : ([Domain.core, .pke, .ctrl, .tbclk].foldl (fun t d => switchTo t .root d) (unifiedAsked s)).clk = s.clk :=
    List.foldlRecOn (motive := fun t : State => t.clk = s.clk) [Domain.core, .pke, .ctrl, .tbclk] _ rfl fun t same d _ =>
      (switchTo_absent (x := .root) (d := d) (show t.clk.loin = false by rw [same, lost])).trans same
  have step := Reclocked.foldl (fun t d => switchTo_reclocked t .root d) [Domain.core, .pke, .ctrl, .tbclk]
    (unifiedAsked s)
  exact ⟨_, goes, kept, (rb_of_rd (step.reg _ (by decide)) 2).trans (rb_unifiedAsked s).1⟩

theorem clkReturn_returns (uni : s.clk.unified = true) (free : rb s 0x100000 2 = false) (xtal : s.clk.xtal = true)
    (second : s.clk.xtalTick + ticksPerSec ≤ s.tb.ticks) :
    Gives .clkReturn s fun t =>
      t.clk.unified = false ∧ (s.clk.loin = false → t.clk.tbclk = s.clk.tbclk) ∧
      ∀ d, (d = .tbclk → s.clk.loin = true) →
        domainSrc t.clk d = if clkRuns (domainSrc s.clk d) then .main else if domainSrc s.clk d = .stuck then .stuck
          else if rb s 0x100000 4 then .hungMain else .stuck := by
  have mode := changeMode_changed s false
  refine ⟨_, congrArg Host.Outcome.next (if_pos ⟨uni, free, xtal, second⟩), ?_, fun lost => ?_, fun d here => ?_⟩
  · rw [holdsChange_clk, mode.unified]
  · rw [holdsChange_clk]
    exact (mode.src .tbclk).trans (if_neg (by
      show ¬s.clk.loin = true
      rw [lost]
      decide))
  · have present : clockPresent s.clk d .main = true := by
      cases d with
      | tbclk => exact here rfl
      | core | pke | ctrl => exact xtal
    rw [holdsChange_clk, mode.src]
    exact if_pos present

/-! ## Rescues (R458, R459) -/

/-- A step of a rescue leaves the clocks and the register of the rescues alone. -/
structure RescueKept (s t : State) : Prop where
  clk : t.clk = s.clk
  reg : rd t 0x100100 = rd s 0x100100

theorem RescueKept.trans (h : RescueKept s t) (k : RescueKept t u) : RescueKept s u :=
  ⟨k.clk.trans h.clk, k.reg.trans h.reg⟩

theorem RescueKept.foldl {α : Type} {f : State → α → State} (each : ∀ t a, RescueKept t (f t a)) (l : List α) (s : State) :
    RescueKept s (l.foldl f s) :=
  List.foldlRecOn l f ⟨rfl, rfl⟩ fun t h a _ => h.trans (each t a)

/-- The requests inside one lane are dropped. -/
def dropLane (s : State) (k : Nat) : State :=
  setLane ((laneOf s k).jobs.foldl (fun u jb => releaseReq u jb.req) s) k { laneOf s k with jobs := [] }

theorem dropLane_regs (s : State) (k : Nat) : (dropLane s k).regs = s.regs :=
  List.foldlRecOn (motive := fun u : State => u.regs = s.regs) (laneOf s k).jobs _ rfl fun u h jb _ =>
    (releaseReq_regs u jb.req).1.trans h

theorem dropLaneJobs_regs (s : State) : (dropLaneJobs s).regs = s.regs :=
  List.foldlRecOn (motive := fun u : State => u.regs = s.regs) (List.range 16) dropLane rfl fun u h k _ =>
    (dropLane_regs u k).trans h

theorem dropLaneJobs_rescueKept (s : State) : RescueKept s (dropLaneJobs s) :=
  ⟨(within_dropLaneJobs (ps := [.lp, .rsp]) (by decide)).2 .refl .clk (by decide),
    congrArg (tget coldWord · 0x100100) (dropLaneJobs_regs s)⟩

theorem rd_faultRunning (s : State) : rd (faultRunning s) 0x100100 = rd s 0x100100 := by
  unfold faultRunning
  refine List.foldlRecOn (motive := fun t : State => rd t 0x100100 = rd s 0x100100) _ _ rfl fun t same j _ =>
    Eq.trans ?_ same
  extract_lets z t1 t2 t3
  have counted : rd t1 0x100100 = rd t 0x100100 := rd_bump_ne _ 1 (by decide) (by decide)
  have wrote : rd t2 0x100100 = rd t1 0x100100 := by
    unfold t2
    split
    · rfl
    · exact rd_hostWrite _ _ _ _ _ (by decide)
  have done_ : rd t3 0x100100 = rd t2 0x100100 := congrArg (tget coldWord · _) (endJob_ended ..).regs
  split
  · rw [rd_abortDone _ _ (by decide), done_, wrote, counted]
  · rw [done_, wrote, counted]

theorem faultRunning_rescueKept (s : State) : RescueKept s (faultRunning s) :=
  ⟨(within_faultRunning (ps := [.gn, .pke]) (by decide)).2 .refl .clk (by decide), rd_faultRunning s⟩

theorem rescueReset_rescueKept (s : State) (d : Domain) : RescueKept s (rescueReset s d) := by
  cases d with
  | core => exact dropLaneJobs_rescueKept s
  | pke => exact faultRunning_rescueKept s
  | ctrl => exact ⟨raiseN_clk .., rd_raiseN _ _ _ _ (by decide)⟩
  | tbclk => exact ⟨rfl, rfl⟩

theorem clkMuxRescue_rescues {d : Domain} {x : ClkSrc} (hung : hungFor (domainSrc s.clk d) = some x)
    (watched : rb s 0x100000 4 = true) :
    Gives (.clkMuxRescue d) s fun t => t.clk = setDomain s.clk x d ∧ Counted s t 0x100100 1 := by
  refine ⟨_, rfl, ?_⟩
  rw [hung]
  dsimp only
  rw [if_pos watched]
  have reset := rescueReset_rescueKept (setClk s (setDomain s.clk x d)) d
  have count : Counted s (bump (rescueReset (setClk s (setDomain s.clk x d)) d) 0x100100 1) 0x100100 1 :=
    Counted.of_rd reset.reg (bump_counted _ 1 (by decide))
  refine ⟨?_, (rd_holdsChange (by decide) (by decide) _).trans (count.raiseN _ _ _ (by decide))⟩
  rw [holdsChange_clk, raiseN_clk, bump_clk, reset.clk]
  rfl

theorem clkMuxRescue_stops {d : Domain} {x : ClkSrc} (hung : hungFor (domainSrc s.clk d) = some x)
    (cleared : rb s 0x100000 4 = false) :
    Gives (.clkMuxRescue d) s fun t => t.clk = setDomain s.clk .stuck d := by
  refine ⟨_, rfl, ?_⟩
  rw [hung]
  dsimp only
  rw [if_neg (by rw [cleared]; decide)]
  exact holdsChange_clk _

/-- Settles O50. Every switch touches its own domain only, so the mode's change is one lemma over the four domains; stops,
failures and rescues keep the inputs' presence. -/
theorem clockInputsAndDomainsFollow : Obligations.ClockInputsAndDomainsFollow := by
  unfold Obligations.ClockInputsAndDomainsFollow
  refine ⟨fun s here single loin auto => xtalLost_unifies here single loin auto,
    fun s here single loin alone works => xtalLost_fails here single loin alone works,
    fun s here => loinLost_fails here,
    fun s lo xtal sds loXtal loSds xtalSds => clkFreqCheck_unjudged loXtal loSds xtalSds,
    fun s lo xtal sds loXtal _ _ => clkFreqCheck_agree loXtal,
    fun s lo xtal sds xtalLo xtalSds loSds => clkFreqCheck_xtalLost xtalLo xtalSds loSds,
    fun s lo xtal sds loXtal loSds xtalSds => clkFreqCheck_loinLost loXtal loSds xtalSds,
    fun s single loin => unifiedReq_enters single loin, fun s single lost => unifiedReq_refused single lost,
    fun s uni free xtal second => clkReturn_returns uni free xtal second, fun s early => ?early,
    fun s d x hung => ⟨clkMuxRescue_rescues hung, clkMuxRescue_stops hung⟩, fun s d calm => ?calm⟩
  case early =>
    refine congrArg Host.Outcome.next (if_neg fun ready => ?_)
    omega
  case calm =>
    refine congrArg Host.Outcome.next ?_
    rw [calm]

end Sys2Proof.Machine
end

section
/-! SUPPORT. O51: the power planner and the memory test on request (R462 to R471). -/

namespace Sys2Proof.Machine

variable {s t u : State}

/-! ## Parking and waking -/

/-- The state that the idle time of a unit pays for. -/
def paidState (s : State) (u : PwrUnit) (idle : Nat) : Nat :=
  ([1, 2, 3].filter fun x => decide (x ≤ deepest s u) && parkWorth s u idle x).foldl max 0

theorem paidState_le (s : State) (u : PwrUnit) (idle : Nat) : paidState s u idle ≤ 3 := by
  unfold paidState
  refine List.foldlRecOn (motive := fun n : Nat => n ≤ 3) _ _ (Nat.zero_le 3) fun n small x mem => ?_
  have listed : x ∈ [1, 2, 3] := (List.mem_filter.mp mem).1
  have : x ≤ 3 := by
    simp only [List.mem_cons, List.not_mem_nil, or_false] at listed
    omega
  exact Nat.max_le.mpr ⟨small, this⟩

theorem unitState_of_fused {k : Nat} (fused : 45 ≤ k ∧ k < 61 ∧ portFused s (k - 45) = true) : unitState s k = 3 :=
  if_pos fused

theorem idlePark_parks {unit : PwrUnit} (on : rb s 0x200000 0 = true) (free : mustServe s unit = false) (idle : Nat) :
    Gives (.pwrIdlePark unit idle) s fun t =>
      unitState t (unitKey unit) = max (unitState s (unitKey unit)) (paidState s unit idle) ∧
      (∀ k, k ≠ unitKey unit → unitState t k = unitState s k) := by
  have goes : exec (.pwrIdlePark unit idle) s = .next (if unitState s (unitKey unit) < paidState s unit idle then
      setUnit s (unitKey unit) (paidState s unit idle) else s) :=
    congrArg Host.Outcome.next (if_neg (by simp [on, free]))
  refine ⟨_, goes, ?_⟩
  have small := paidState_le s unit idle
  by_cases deeper : unitState s (unitKey unit) < paidState s unit idle
  · have alive : ¬(45 ≤ unitKey unit ∧ unitKey unit < 61 ∧ portFused s (unitKey unit - 45) = true) := fun fused => by
      rw [unitState_of_fused fused] at deeper
      omega
    rw [if_pos deeper]
    refine ⟨?_, fun k other => unitState_setUnit_ne s _ other⟩
    rw [unitState_setUnit, if_neg alive]
    omega
  · rw [if_neg deeper]
    exact ⟨by omega, fun _ _ => rfl⟩

theorem unitState_congr (clk : t.clk = s.clk) (fuse : t.fuse = s.fuse) (k : Nat) : unitState t k = unitState s k := by
  unfold unitState portFused
  rw [clk, fuse]

theorem wakeUnit_wakes {unit : PwrUnit} (alive : ¬(45 ≤ unitKey unit ∧ unitKey unit < 61 ∧
    portFused s (unitKey unit - 45) = true)) (late : Bool) :
    unitState (wakeUnit s unit late) (unitKey unit) = 0 ∧ (late = true → Counted s (wakeUnit s unit late) 0x200100 1) := by
  unfold wakeUnit
  extract_lets k gn s1 s2
  have before : s1.fuse = s.fuse ∧ s1.regs = s.regs := by
    unfold s1
    cases unit with
    | gnBank b =>
      dsimp only
      split
      · exact ⟨rfl, rfl⟩
      · exact ⟨rfl, rfl⟩
    | lane _ | nts _ | pke _ | sched | lp _ | brimE | brimW | mit => exact ⟨rfl, rfl⟩
  have awake : unitState s2 k = 0 := by
    unfold s2
    rw [unitState_setUnit, if_neg]
    unfold portFused
    rwa [before.1]
  cases late with
  | false => exact ⟨awake, nofun⟩
  | true =>
    refine ⟨(unitState_congr ((raiseLim_clk ..).trans (bump_clk ..)) ((raiseLim_fuse ..).trans (bump_fuse ..)) k).trans awake,
      fun _ => ?_⟩
    have count : Counted s (bump s2 0x200100 1) 0x200100 1 :=
      Counted.of_rd (congrArg (tget coldWord · _) before.2) (bump_counted s2 1 (by decide))
    exact count.raiseLim _ _ _ _ (by decide)

/-! ## Lanes -/

theorem unitState_lanes {k : Nat} (lane : k < 16) (n : Nat) :
    unitState ((List.range n).foldl (fun t i => setUnit t i 0) s) k = if k < n then 0 else unitState s k := by
  induction n with
  | zero => rfl
  | succ n ih =>
    rw [List.range_succ, List.foldl_concat]
    by_cases last : k = n
    · rw [last, unitState_setUnit, if_neg (by omega), if_pos (by omega)]
    · rw [unitState_setUnit_ne _ _ last, ih]
      by_cases below : k < n
      · rw [if_pos below, if_pos (by omega)]
      · rw [if_neg below, if_neg (by omega)]

/-- A lane that is drained and awake is parked. -/
def parkLane (s : State) (k : Nat) : State :=
  if (laneOf s k).jobs = [] ∧ unitState s k = 0 then setUnit s k 1 else s

theorem parkLane_keeps (s : State) (k j : Nat) : laneOf (parkLane s k) j = laneOf s j := by
  unfold parkLane
  split
  · rfl
  · rfl

theorem unitState_parkLane_ne (s : State) {k j : Nat} (other : j ≠ k) : unitState (parkLane s k) j = unitState s j := by
  unfold parkLane
  split
  · exact unitState_setUnit_ne s _ other
  · rfl

theorem unitState_parkLane_same {k : Nat} (lane : k < 16) (drained : (laneOf s k).jobs = [])
    (shallow : unitState s k ≤ 1) : unitState (parkLane s k) k = 1 := by
  unfold parkLane
  by_cases awake : unitState s k = 0
  · rw [if_pos ⟨drained, awake⟩, unitState_setUnit, if_neg (by omega)]
  · rw [if_neg (by simp [awake])]
    omega

theorem unitState_parkLanes {k : Nat} (lane : k < 16) (l : List Nat) : ∀ {s : State}, (laneOf s k).jobs = [] →
    unitState s k ≤ 1 → unitState (l.foldl parkLane s) k = if k ∈ l then 1 else unitState s k := by
  induction l with
  | nil => exact fun _ _ => rfl
  | cons e l ih =>
    intro s drained shallow
    have drained' : (laneOf (parkLane s e) k).jobs = [] := by rw [parkLane_keeps, drained]
    rw [List.foldl_cons]
    by_cases here : k = e
    · subst here
      have parked := unitState_parkLane_same lane drained shallow
      rw [ih drained' parked.le, parked, ite_self, if_pos List.mem_cons_self]
    · have same := unitState_parkLane_ne s here
      rw [ih drained' (same ▸ shallow), same]
      simp [here]

theorem lanePark_parks {k : Nat} (n : Nat) (lane : k < 16) (on : rb s 0x200000 0 = true) (drained : (laneOf s k).jobs = [])
    (awake : unitState s k = 0) :
    Gives (.pwrLanePark n) s fun t => unitState t k = if n ≤ k ∧ rf s 0x200000 4 5 ≤ k then 1 else 0 := by
  have goes : exec (.pwrLanePark n) s = .next
      (((List.range 16).filter fun k => decide (max n (rf s 0x200000 4 5) ≤ k)).foldl parkLane s) :=
    congrArg Host.Outcome.next (if_pos on)
  refine ⟨_, goes, ?_⟩
  beta_reduce
  rw [unitState_parkLanes lane _ drained (by omega), awake]
  simp [lane]

/-! ## The memory test (R471) -/

/-- The fields of a request are stored. -/
def mbtAsked (s : State) (mode : Bool) (alg : BitVec 2) : State :=
  storeMask s 0x208000 0xE (BitVec.ofNat 32 (boolBit mode 1 + 4 * alg.toNat))

theorem execMbtRun_idle {mode : Bool} {alg : BitVec 2} (idle : s.clk.mbtRun = false) (known : alg ≠ 3) :
    exec (.mbtRun mode alg) s = .next (
      if mode = true ∧ alg ≠ 2 then orReg (mbtAsked s mode alg) 0x208004 2
      else { setClk (mbtAsked s mode alg) { (mbtAsked s mode alg).clk with mbtRun := true, mbtMode := mode } with
        pke := { (mbtAsked s mode alg).pke with held := true } }) := by
  refine congrArg Host.Outcome.next ?_
  rw [if_neg known]
  exact if_neg (by rw [idle]; decide)

theorem mbtRun_starts {mode : Bool} {alg : BitVec 2} (idle : s.clk.mbtRun = false) (known : alg ≠ 3)
    (allowed : mode = false ∨ alg = 2) :
    Gives (.mbtRun mode alg) s fun t => t.clk.mbtRun = true ∧ t.clk.mbtMode = mode ∧ t.pke.held = true := by
  refine ⟨_, (execMbtRun_idle idle known).trans (congrArg Host.Outcome.next (if_neg ?_)), rfl, rfl, rfl⟩
  rintro ⟨destructive, other⟩
  obtain safe | safe := allowed
  · rw [safe] at destructive
    exact Bool.false_ne_true destructive
  · exact other safe

theorem mbtRun_refuses {alg : BitVec 2} (idle : s.clk.mbtRun = false) (known : alg ≠ 3) (other : alg ≠ 2) :
    Gives (.mbtRun true alg) s fun t => t.clk = s.clk ∧ flag (rd t 0x208004) 1 = true := by
  refine ⟨_, (execMbtRun_idle idle known).trans (congrArg Host.Outcome.next (if_pos ⟨rfl, other⟩)), ?_, ?_⟩
  · exact storeMask_clk ..
  · rw [rd_orReg_same]
    simp [flag]

theorem mbtDone_ends {n : Nat} (runs : s.clk.mbtRun = true) (quiet : s.pke.jobs.any isRunning = false) :
    Gives (.mbtDone n) s fun t =>
      t.clk.mbtRun = false ∧ t.clk.mbtPass = decide (n = 0) ∧ t.clk.mbtFail = min 255 n ∧ t.pke.held = false ∧
      t.pke.slots = if s.clk.mbtMode then s.pke.slots else [] := by
  refine ⟨_, congrArg Host.Outcome.next (if_neg (by simp [runs, quiet])), ?_⟩
  dsimp only
  rw [raiseN_clk, raiseN_pke]
  exact ⟨rfl, rfl, rfl, rfl, rfl⟩

/-- Settles O51. A unit is written in one place, so every other keeps its state; the lanes are parked and woken one by one,
and the memory test has one decision after its fields are stored. -/
theorem plannerParksAndWakesAndTestsMemory : Obligations.PlannerParksAndWakesAndTestsMemory := by
  unfold Obligations.PlannerParksAndWakesAndTestsMemory
  refine ⟨fun s unit idle on free => idlePark_parks on free idle, fun s unit late asleep alive => ?wake,
    fun s n k lane => ?laneWake, fun s n k lane on drained awake => lanePark_parks n lane on drained awake,
    fun s mode alg idle known allowed => mbtRun_starts idle known allowed,
    fun s alg idle known other => mbtRun_refuses idle known other, fun s n runs quiet => mbtDone_ends runs quiet⟩
  case wake =>
    exact ⟨⟨_, congrArg Host.Outcome.next (if_neg asleep), wakeUnit_wakes alive late⟩,
      ⟨_, congrArg Host.Outcome.next (if_neg asleep), wakeUnit_wakes alive late⟩⟩
  case laneWake =>
    refine ⟨_, rfl, (unitState_lanes lane _).trans ?_⟩
    by_cases below : k < n
    · rw [if_pos below, if_pos (by omega)]
    · rw [if_neg below, if_neg (by omega)]

end Sys2Proof.Machine
end

section
/-! SUPPORT. O52: Silt windows, the alarm table, drop, statistics and performance counters (R481 to R494). -/

namespace Sys2Proof.Machine

variable {s t u : State}

/-! ## The overflow flags of the performance counters

Whatever raises events may advance performance counters, but none of it takes an overflow flag away. -/

/-- Every overflow flag that is set stays set. -/
structure OvfKept (s t : State) : Prop where
  kept : ∀ k, (pmcOf s k).ovf = true → (pmcOf t k).ovf = true

theorem OvfKept.refl (s : State) : OvfKept s s := ⟨fun _ h => h⟩

theorem OvfKept.trans (h : OvfKept s t) (k : OvfKept t u) : OvfKept s u :=
  ⟨fun i set_ => k.kept i (h.kept i set_)⟩

theorem OvfKept.of_pmc (h : t.pmc = s.pmc) : OvfKept s t := ⟨fun k set_ => by rwa [pmcOf, h, ← pmcOf]⟩

theorem OvfKept.ite {c : Prop} [Decidable c] (h : OvfKept s t) (k : OvfKept s u) : OvfKept s (if c then t else u) := by
  split
  · exact h
  · exact k

theorem OvfKept.foldl {α : Type} {f : State → α → State} (step : ∀ s a, OvfKept s (f s a)) (l : List α) (s : State) :
    OvfKept s (l.foldl f s) :=
  List.foldlRecOn l f (OvfKept.refl s) fun t h a _ => h.trans (step t a)

theorem pmcAdd_ovfKept (s : State) (k n : Nat) : OvfKept s (pmcAdd s k n).1 := by
  refine ⟨fun j set_ => ?_⟩
  by_cases here : j = k
  · subst here
    simp [pmcAdd, set_]
  · simpa [pmcAdd, pmcOf_setPmc_ne _ _ here] using set_

theorem pmcAddAll_ovfKept (n : Nat) (ks : List Nat) (s : State) : OvfKept s (pmcAddAll n ks s).1 := by
  induction ks generalizing s with
  | nil => exact .refl s
  | cons k ks ih => exact (pmcAdd_ovfKept s k n).trans (ih _)

theorem bump_pmc (s : State) (a n : Nat) : (bump s a n).pmc = s.pmc := by
  rw [bump_regs]

theorem vecFire_pmc (s : State) (v : Nat) : (vecFire s v).pmc = s.pmc := by
  unfold vecFire
  dsimp only
  split
  · rfl
  · rfl

theorem vecRaise_pmc (s : State) (v n : Nat) : (vecRaise s v n).pmc = s.pmc := by
  unfold vecRaise
  extract_lets x x1 s1 m
  split
  · exact vecFire_pmc s1 v
  · rfl

theorem dmaBytes_ovfKept (s : State) (n : Nat) : OvfKept s (dmaBytes s n) :=
  (pmcAddAll_ovfKept n (pmcCounting s 0x207 31) s).trans (.of_pmc rfl)

theorem noteCompl_pmc (s : State) (r : Nat) : (noteCompl s r).pmc = s.pmc := by
  unfold noteCompl
  split
  · exact vecRaise_pmc ..
  · rfl

theorem writeCompl_ovfKept (s : State) (r idx status : Nat) (body : Bytes) :
    OvfKept s (writeCompl s r idx status body) := by
  unfold writeCompl
  extract_lets g size lastSlot s1
  have placed : OvfKept s s1 := .of_pmc rfl
  exact (placed.trans (dmaBytes_ovfKept s1 32)).trans (.of_pmc (noteCompl_pmc ..))

theorem writeEvent_ovfKept (s : State) (r typ id sev part parts stamp : Nat) (p : Bytes) :
    OvfKept s (writeEvent s r typ id sev part parts stamp p) := by
  unfold writeEvent
  extract_lets body s1
  have noted : OvfKept s s1 := .of_pmc rfl
  have before : OvfKept s (if typ = 0x71 then s1 else setRun s1 r (0, 0)) := .ite noted (noted.trans (.of_pmc rfl))
  exact before.trans (writeCompl_ovfKept ..)

theorem writeParts_ovfKept (r typ id sev parts stamp n : Nat) (s : State) (p : Bytes) :
    OvfKept s (writeParts r typ id sev parts stamp n s p) := by
  induction n generalizing s p with
  | zero => exact .refl s
  | succ n ih => exact (writeEvent_ovfKept ..).trans (ih ..)

theorem tickOrder_pmc (s : State) (r parts : Nat) : (tickOrder s r parts).pmc = s.pmc := by
  unfold tickOrder
  dsimp -zeta only
  extract_lets m s1 new l
  split
  · rfl
  · rfl

theorem writeTogether_ovfKept (s : State) (r typ id sev parts stamp : Nat) (p : Bytes) :
    OvfKept s (writeTogether s r typ id sev parts stamp p) :=
  .ite ((writeParts_ovfKept ..).trans (.of_pmc (tickOrder_pmc ..))) (writeParts_ovfKept ..)

theorem flushPend_ovfKept (n r : Nat) (s : State) : OvfKept s (flushPend n s r) := by
  induction n generalizing s with
  | zero => exact .refl s
  | succ n ih =>
    unfold flushPend
    split
    · split
      · exact .refl s
      next k p rest pending =>
        have first : OvfKept s { s with evt := { s.evt with pend := tdel s.evt.pend k } } := .of_pmc rfl
        exact (first.trans (writeEvent_ovfKept ..)).trans (ih _)
    · exact .refl s

theorem deliver_ovfKept (s : State) (typ id sev stamp : Nat) (p : Bytes) :
    OvfKept s (deliver s typ id sev stamp p).s := by
  unfold deliver
  extract_lets r s1 parts free waiting s2
  have flushed : OvfKept s s1 := flushPend_ovfKept ..
  repeat' split
  · exact .of_pmc (bump_pmc ..)
  · exact flushed.trans (.of_pmc (bump_pmc s2 _ 1))
  · exact flushed.trans (.of_pmc rfl)
  · exact flushed.trans (writeTogether_ovfKept ..)
  · exact flushed.trans (.of_pmc rfl)
  · exact flushed.trans (writeTogether_ovfKept ..)

theorem alarmRaise_pmc (s : State) (id inst sev : Nat) : (alarmRaise s id inst sev).pmc = s.pmc := by
  unfold alarmRaise
  dsimp only
  repeat' split
  all_goals rfl

theorem raiseFuel_ovfKept (n : Nat) (s : State) (id inst sev : Nat) (p : Bytes) :
    OvfKept s (raiseFuel n s id inst sev p) := by
  induction n generalizing s id inst sev p with
  | zero => exact .refl s
  | succ n ih =>
    have counted := pmcAddAll_ovfKept 1 (pmcCounting s id 31) s
    unfold raiseFuel
    rcases hp : pmcAddAll 1 (pmcCounting s id 31) s with ⟨s1, ovfs⟩
    rw [hp] at counted
    dsimp -zeta only
    extract_lets s2 y s3 d s4
    have alarmed : OvfKept s s2 := .ite (counted.trans (.of_pmc (alarmRaise_pmc ..))) counted
    have noted : OvfKept s s3 := alarmed.trans (.of_pmc rfl)
    have delivered : OvfKept s d.s := by
      show OvfKept s (Delivery.s (if y.summary then _ else _))
      split
      · exact noted
      · exact noted.trans (deliver_ovfKept ..)
    have coalesced : OvfKept s s4 := .ite (delivered.trans (ih ..)) delivered
    exact coalesced.trans (.foldl (fun t _ => ih t ..) ovfs s4)

theorem raiseSev_ovfKept (s : State) (id inst sev : Nat) (p : Bytes) : OvfKept s (raiseSev s id inst sev p) :=
  (raiseFuel_ovfKept 4 s id inst sev p).trans (.of_pmc rfl)

theorem raiseN_ovfKept (s : State) (id inst : Nat) (ns : List Nat) : OvfKept s (raiseN s id inst ns) :=
  raiseSev_ovfKept s id inst (severityNow id) (wordsLe ns)

/-! ## Performance counters (R490 to R494) -/

/-- A counter whose high word is latched. -/
def latched (x : PmcCnt) : PmcCnt := { x with hi := w32 (x.val.toNat / 2 ^ 32 + boolBit x.ovf 16) }

theorem pmcOf_latchPmc (s : State) (k : Nat) : pmcOf (latchPmc s k) k = latched (pmcOf s k) := pmcOf_setPmc ..

theorem pmcCleared (n : Nat) (s : State) :
    let t := (List.range n).foldl (fun t k => setPmc t k { pmcOf t k with val := 0 }) s
    (∀ k, k < n → pmcOf t k = { pmcOf s k with val := 0 }) ∧ (∀ k, n ≤ k → pmcOf t k = pmcOf s k) ∧
      t = { s with pmc := t.pmc } := by
  induction n with
  | zero => exact ⟨nofun, fun _ _ => rfl, rfl⟩
  | succ n ih =>
    obtain ⟨below, above, only⟩ := ih
    rw [List.range_succ, List.foldl_concat]
    refine ⟨fun k small => ?_, fun k large => ?_, ?_⟩
    · by_cases last : k = n
      · subst last
        rw [pmcOf_setPmc, above k le_rfl]
      · rw [pmcOf_setPmc_ne _ _ last, below k (by omega)]
    · rw [pmcOf_setPmc_ne _ _ (by omega), above k (by omega)]
    · rw [setPmc, only]

theorem pmcA_asWritten : ∀ k : Fin 64, storesAsWritten (pmcA k) = true := by decide +kernel

theorem pmcWrap_overflows {k : Fin 64} {n : Nat} (runs : rb s 0x1600000 0 = false) (on : rb s (pmcA k) 11 = true)
    (past : 2 ^ 48 ≤ (pmcOf s k).val.toNat + n) : Gives (.pmcWrap k n) s fun t => (pmcOf t k).ovf = true := by
  have wrapped : (pmcOf (pmcAdd s k n).1 k).ovf = true := by
    simp only [pmcAdd, pmcOf_setPmc]
    rw [decide_eq_true past, Bool.or_true]
  have goes : exec (.pmcWrap k n) s =
      .next (if (pmcAdd s k n).2 then raiseN (pmcAdd s k n).1 369 0 [] else (pmcAdd s k n).1) :=
    congrArg Host.Outcome.next (if_pos ⟨runs, on, past⟩)
  exact ⟨_, goes, (OvfKept.ite (raiseN_ovfKept ..) (.refl _)).kept k wrapped⟩

/-! ## Reads and their effects (R488, R494) -/

/-- The low words of the statistics counters are none of the words with a latch or a flag of their own. -/
theorem statLow_apart {a : Nat} (low : statLow a = true) :
    a ≠ 0xA0090C ∧ ¬(0x1600108 ≤ a ∧ a < 0x1600500 ∧ a % 16 = 8) ∧ a ≠ 0x140000C := by
  unfold statLow at low
  simp only [Bool.and_eq_true, Bool.or_eq_true, decide_eq_true_eq] at low
  omega

theorem readEffect_plain {a : Nat} (plain : statLow a = false) (cal : a ≠ 0xA0090C) (mbox : a ≠ 0x140000C)
    (pmc : ¬(0x1600108 ≤ a ∧ a < 0x1600500 ∧ a % 16 = 8)) : readEffect s a = s := by
  unfold readEffect
  rw [if_neg cal, if_neg pmc, if_neg mbox, plain]
  split
  · rfl
  · split
    · rfl
    · rfl

theorem readEffect_stat {a b : Nat} (low : statLow a = true) (open_ : readable s a = true) (block : latchOf a = some b) :
    readEffect s a = { s with statHi := tset (fun _ => 0) s.statHi b ((statGet s a >>> 32).setWidth 32) } := by
  obtain ⟨cal, pmc, mbox⟩ := statLow_apart low
  unfold readEffect
  rw [if_neg (by rw [open_]; decide), if_neg cal, if_neg pmc, if_neg mbox, block]
  exact if_pos low

theorem readView_stat {a b : Nat} (low : statLow a = true) (open_ : readable s a = true) (block : latchOf a = some b) :
    readView s a = (statGet s a).setWidth 32 := by
  obtain ⟨n, found, -⟩ := Option.map_eq_some_iff.mp block
  unfold readView
  rw [found]
  dsimp only
  rw [if_neg (by rw [open_]; decide), if_pos low]

theorem exec_statCounterRead {a : Nat} (inside : a < 0x2000000) (aligned : a % 4 = 0) :
    exec (.statCounterRead .bar0 a) s = .next (emit (readEffect s a) (.readData 0 (readView s a))) := by
  refine (if_neg (c := 0x2000000 ≤ a) (by omega)).trans (if_neg ?_)
  omega

theorem readEffect_pmc {k : Fin 64} (open_ : readable s (0x1600108 + 16 * k.val) = true) :
    readEffect s (0x1600108 + 16 * k.val) = latchPmc s k := by
  unfold readEffect
  rw [if_neg (by rw [open_]; decide), if_neg (by omega), if_pos (by omega)]
  congr 1
  omega

theorem readEffect_mailbox (open_ : readable s 0x140000C = true) :
    readEffect s 0x140000C = { s with bcp := { s.bcp with outFull := false } } := by
  unfold readEffect
  rw [if_neg (by rw [open_]; decide), if_neg (by decide), if_neg (by decide), if_pos rfl]

theorem readEffect_calSum (open_ : readable s 0xA0090C = true) : readEffect s 0xA0090C = latchCalSum s := by
  unfold readEffect
  rw [if_neg (by rw [open_]; decide), if_pos rfl]

/-! ## Silt windows and alarms (R481 to R486) -/

theorem deliver_discarded {id : Nat} (down : (ringOf s (srcRing s id)).st ≠ .running) (typ sev stamp : Nat) (p : Bytes) :
    deliver s typ id sev stamp p = { s := bump s 0x1500044 1, startsCoalescing := false, ring := srcRing s id } := by
  unfold deliver
  exact if_pos (.inr down)

/-- A summary whose ring does not run is discarded and counted. -/
theorem siltSummary_discarded {id : Nat} (down : (ringOf s (srcRing s id)).st ≠ .running) (x : Silt) :
    siltSummary s id x = bump s 0x1500044 1 := by
  unfold siltSummary
  rw [deliver_discarded down]
  rfl

/-- The window of a source after its summary. -/
def siltAfter (s : State) (id : Nat) : Silt :=
  if (siltOf s id).raises ≤ siltN s id then Silt.cold
  else { summary := true, win := true, start := s.tb.ticks, raises := 0, undelivered := 0 }

theorem siltWindow_discards {i : Fin 384} (summary : (siltOf s i).summary = true) (raises : 0 < (siltOf s i).raises)
    (down : (ringOf s (srcRing s i)).st ≠ .running) :
    Gives (.siltWindowEnd i) s fun t => Counted s t 0x1500044 1 ∧ t.out = s.out := by
  have goes : exec (.siltWindowEnd i) s = .next (siltSummary (setSilt s i (siltAfter s i)) i (siltOf s i)) :=
    congrArg Host.Outcome.next ((if_neg (by rw [summary]; decide)).trans (if_neg (by omega)))
  have away : siltSummary (setSilt s i (siltAfter s i)) i (siltOf s i) = bump (setSilt s i (siltAfter s i)) 0x1500044 1 :=
    siltSummary_discarded (s := setSilt s i (siltAfter s i)) down _
  refine ⟨_, goes, ?_⟩
  beta_reduce
  rw [away, bump_out]
  exact ⟨Counted.of_rd rfl (bump_counted (setSilt s i (siltAfter s i)) 1 (by decide)), rfl⟩

theorem siltWindow_calm {i : Fin 384} (summary : (siltOf s i).summary = true) (calm : (siltOf s i).raises = 0) :
    exec (.siltWindowEnd i) s = .next (setSilt s i Silt.cold) := by
  refine congrArg Host.Outcome.next ?_
  dsimp only
  rw [if_neg (by rw [summary]; decide), if_pos calm, if_pos (by omega)]

/-- An entry that is neither active nor unacknowledged is free again. -/
theorem alarmOf_setAlarm_same (s : State) (e : Nat) (a : Alarm) :
    alarmOf (setAlarm s e a) e = if a.active = false ∧ a.unack = false then Alarm.cold else a := tget_tset_same ..

theorem alarmOf_setAlarm_ne (s : State) {e k : Nat} (a : Alarm) (other : k ≠ e) :
    alarmOf (setAlarm s e a) k = alarmOf s k := tget_tset_ne _ _ _ other

/-- Settles O52. Reads have one effect each, decided by their address; the performance counters are written one by one, and
no raise takes an overflow flag away. -/
theorem windowsAlarmsAndCountersFollowTheirCommands : Obligations.WindowsAlarmsAndCountersFollowTheirCommands := by
  unfold Obligations.WindowsAlarmsAndCountersFollowTheirCommands
  refine ⟨fun s a inside aligned counter open_ => exec_dropCounterClear inside aligned counter open_, ?statRead,
    ?plainRead, ?pmcRead, ?mailbox, ?calSum, ?outside, ?pmcClear, ?freeze, ?pmcCtl,
    ?pmcCtlBad, fun s k => ⟨_, rfl, rfl, pmcOf_latchPmc s k⟩, fun s k n runs on past => pmcWrap_overflows runs on past,
    fun s => ⟨_, rfl, pmcCleared 64 s⟩, ?windowEnd, fun s i summary calm => siltWindow_calm summary calm,
    fun s i summary raises down => siltWindow_discards summary raises down, ?alarm⟩
  case statRead =>
    intro s a b inside aligned low open_ block
    refine ⟨_, exec_statCounterRead inside aligned, ?_⟩
    rw [readEffect_stat low open_ block, readView_stat low open_ block]
    exact ⟨rfl, tget_tset_same ..⟩
  case plainRead =>
    intro s a inside aligned plain cal mbox pmc
    rw [exec_statCounterRead inside aligned, readEffect_plain plain cal mbox pmc]
    rfl
  case pmcRead =>
    intro s k open_
    refine ⟨_, exec_statCounterRead (by omega) (by omega), ?_⟩
    rw [readEffect_pmc open_]
    exact pmcOf_latchPmc s k
  case mailbox =>
    intro s open_
    refine ⟨_, exec_statCounterRead (by decide) (by decide), ?_⟩
    rw [readEffect_mailbox open_]
    rfl
  case calSum =>
    intro s open_
    refine ⟨_, exec_statCounterRead (by decide) (by decide), ?_⟩
    rw [readEffect_calSum open_]
    rfl
  case outside => exact fun s a far => ⟨if_pos far, if_pos far⟩
  case pmcClear => exact fun s k => ⟨_, rfl, pmcOf_setPmc .., fun j other => pmcOf_setPmc_ne s _ other⟩
  case freeze =>
    intro s on
    refine ⟨_, rfl, ?_, rfl⟩
    rw [rb, rd_wrf_same, flag_putFld_of_mem _ _ (by decide) (by decide)]
    cases on <;> rfl
  case pmcCtl =>
    intro s k v known
    refine ⟨_, congrArg Host.Outcome.next (if_pos known), ?_⟩
    exact rd_storeMask_asWritten s (pmcA_asWritten k) 0x1F3FFF v
  case pmcCtlBad =>
    intro s k v unknown
    exact congrArg Host.Outcome.next (if_neg (by rw [unknown]; decide))
  case windowEnd =>
    intro s i summary
    refine congrArg Host.Outcome.next ?_
    dsimp only
    rw [if_pos summary]
  case alarm =>
    intro s v
    refine ⟨_, rfl, ?_, fun e other => ?_⟩
    · cases active : (alarmOf s (fld v 0 7)).active with
      | true => simp [alarmOf_setAlarm_same, active]
      | false => simp [alarmOf_setAlarm_same, active]
    · exact alarmOf_setAlarm_ne s _ other

end Sys2Proof.Machine
end

section
/-! SUPPORT. Registers that an operation leaves alone: one lemma for each operation behind a written setting, over a set
`own` of registers that may change (R9, R511). -/

namespace Sys2Proof.Machine

variable {s t u : State} {own : Nat → Bool}

/-! ## Stores -/

theorem RegsKept.ite {c : Prop} [Decidable c] (h : RegsKept own s t) (k : RegsKept own s u) :
    RegsKept own s (if c then t else u) := by
  split
  · exact h
  · exact k

theorem RegsKept.of_plainRegs (h : plainRegs t = plainRegs s) : RegsKept own s t :=
  fun _ plain _ => rd_of_plainRegs h plain

theorem RegsKept.wr (s : State) {a : Nat} (v : Word) (h : own a = true) : RegsKept own s (wr s a v) :=
  fun b _ other => rd_wr_ne s v fun same => by rw [same, h] at other; exact absurd other (by decide)

theorem RegsKept.wrf (s : State) {a : Nat} (lo len v : Nat) (h : own a = true) : RegsKept own s (wrf s a lo len v) :=
  .wr s _ h

theorem RegsKept.orReg (s : State) {a : Nat} (m : Nat) (h : own a = true) : RegsKept own s (orReg s a m) := .wr s _ h

theorem RegsKept.storeMask (s : State) {a : Nat} (m : Nat) (v : Word) (h : own a = true) :
    RegsKept own s (Machine.storeMask s a m v) := by
  unfold Machine.storeMask
  split
  · exact .refl own s
  · exact .wr s _ h

theorem RegsKept.raiseN (h : RegsKept own s t) (id inst : Nat) (ns : List Nat) : RegsKept own s (raiseN t id inst ns) :=
  h.trans (raiseN_kept own t id inst ns)

theorem RegsKept.raiseLim (h : RegsKept own s t) (id inst lim : Nat) (ns : List Nat) :
    RegsKept own s (raiseLim t id inst lim ns) :=
  h.trans (raiseLim_kept own t id inst lim ns)

/-! ## Records and frames -/

theorem ringDrops_event {r : Nat} (ring : r < 256) : eventReg (ringA r + 0x1C) = true := by
  unfold eventReg ringA
  simp only [Bool.or_eq_true, decide_eq_true_eq]
  omega

theorem writeRecord_kept (own : Nat → Bool) (s : State) {r : Nat} (ring : r < 256) (body : Bytes) :
    RegsKept own s (writeRecord s r body) := by
  unfold writeRecord
  dsimp only
  repeat' split
  · exact .of_regs (writeCompl_regs ..)
  · exact .bump s _ 1 (.inl (ringDrops_event ring))
  · exact .refl own s

theorem finishItem_regs (s : State) (i : TxItem) (status : Nat) (stamp : Option Nat) (len : Nat) :
    (finishItem s i status stamp len).regs = s.regs := by
  unfold finishItem
  split
  · exact complete_regs ..
  · rfl

/-! ## Roles and service -/

theorem holdsChange_kept (s : State) (h : own (rspCtr 8) = true) : RegsKept own s (holdsChange s) := by
  refine fun a plain other => rd_holdsChange plain (fun same => ?_) s
  rw [same, h] at other
  exact absurd other (by decide)

theorem dropAbsent_plainRegs (s : State) (i : Nat) : plainRegs (dropAbsent s i) = plainRegs s := by
  unfold dropAbsent
  extract_lets s1
  have first : plainRegs s1 = plainRegs s := by
    unfold s1
    split
    · rfl
    · exact plainRegs_loseRole ..
  split
  · exact first
  · exact (plainRegs_loseRole ..).trans first

theorem servoHold_plainRegs (s : State) : plainRegs (servoHold s) = plainRegs s :=
  congrArg RefInputs.regs (refInputs_servoHold s)

/-! ## The GNSS receiver -/

theorem takeQl_plainRegs (s : State) (i ql raw : Nat) : plainRegs (takeQl s i ql raw) = plainRegs s :=
  congrArg RefInputs.regs (refInputs_takeQl s i ql raw)

theorem gnssGone_plainRegs (s : State) : plainRegs (gnssGone s) = plainRegs s := by
  unfold gnssGone
  extract_lets s1
  rw [takeQl_plainRegs, plainRegs_loseRole, plainRegs_loseRole]
  exact plainRegs_of_regs rfl

theorem gnStop_plainRegs (s : State) : plainRegs (gnStop s) = plainRegs s := by
  unfold gnStop
  extract_lets s1 g s2
  have silent : plainRegs s1 = plainRegs s := (plainRegs_setSound ..).trans (plainRegs_setSolution ..)
  have emptied : plainRegs s2 = plainRegs s1 := plainRegs_of_regs rfl
  rw [gnssGone_plainRegs, emptied, silent]

theorem gnRecord_kept (s : State) {r : Nat} (ring : r < 256) (body : Bytes) (h : own 0x500004 = true) :
    RegsKept own s (gnRecord s r body) := by
  unfold gnRecord
  repeat' split
  · exact .refl own s
  · exact writeRecord_kept own s ring body
  · exact (RegsKept.trans (.bump s _ 1 (.inl (ringDrops_event ring))) (.orReg _ _ h)).raiseN _ _ _

theorem osnmaTo_kept (s : State) (o : Osnma) (cause : Nat) (h : own 0x500004 = true) :
    RegsKept own s (osnmaTo s o cause) := by
  unfold osnmaTo
  extract_lets g s1
  have noted : RegsKept own s s1 := .of_regs rfl
  split
  · exact noted
  · have recorded : RegsKept own s (osnmaRecord (raiseN s1 118 0 [])) :=
      (noted.raiseN 118 0 []).trans (gnRecord_kept (raiseN s1 118 0 []) (by decide) _ h)
    exact recorded.trans (.of_plainRegs (plainRegs_setSound ..))

theorem osnmaEval_kept (s : State) (h : own 0x500004 = true) : RegsKept own s (osnmaEval s) := by
  unfold osnmaEval
  extract_lets o
  repeat' split
  · exact osnmaTo_kept s _ _ h
  · exact .refl own s
  · exact osnmaTo_kept s _ _ h
  · exact osnmaTo_kept s _ _ h
  · exact osnmaTo_kept s _ _ h
  · exact .refl own s

theorem manualStart_regs (s : State) (c : Nat) : (manualStart s c).regs = s.regs := by
  unfold manualStart
  extract_lets g
  split
  · rfl
  · rfl

theorem gnStart_kept (s : State) (h : own 0x500004 = true) : RegsKept own s (gnStart s) := by
  unfold gnStart gnBegin
  extract_lets g0 s0 s1 g1
  have silent : RegsKept own s s1 := (RegsKept.of_regs (t := s0) rfl).trans
    (.of_plainRegs ((plainRegs_setSound ..).trans (plainRegs_setSolution ..)))
  refine RegsKept.trans ?_ (osnmaEval_kept _ h)
  refine RegsKept.trans (silent.trans (.of_regs (t := { s1 with gn := g1 }) rfl)) ?_
  exact .foldl (fun u c => .of_regs (manualStart_regs u c)) _ _

theorem chanWritten_regs (s t : State) (c : Nat) : (chanWritten s t c).regs = t.regs := by
  unfold chanWritten
  repeat' split
  · rfl
  · exact manualStart_regs ..
  · rfl

/-! ## The management port -/

theorem mgDown_kept (s : State) (h : own 0x901034 = true) : RegsKept own s (mgDown s) := by
  unfold mgDown
  extract_lets q m
  exact .trans (.of_regs (t := { s with mg := m }) rfl)
    (.foldl (fun u i => (RegsKept.bump u 0x901034 1 (.inr h)).trans (.of_regs (finishItem_regs ..))) _ _)

theorem fwTransfer_regs (s : State) (c a : Nat) (tx : Bytes) (rlen : Nat) : (fwTransfer s c a tx rlen).regs = s.regs := by
  unfold fwTransfer
  extract_lets x
  split
  · rfl
  · rfl

theorem phyWrites_regs (s : State) (lower : Bool) : (phyWrites s lower).regs = s.regs := by
  unfold phyWrites
  extract_lets a adv r9
  rw [fwTransfer_regs, fwTransfer_regs, fwTransfer_regs]

theorem mgFell_kept (s : State) (h : own 0x901034 = true) :
    RegsKept own s (if s.mg.up then raiseN (mgDown s) 224 0 [] else s) :=
  .ite ((mgDown_kept s h).raiseN 224 0 []) (.refl own s)

theorem mgSpeedChange_kept (s : State) (lower ok : Bool) (h : own 0x901034 = true) :
    RegsKept own s (mgSpeedChange s lower ok) := by
  unfold mgSpeedChange
  extract_lets s0 s1 m
  have wrote : RegsKept own s s0 := .of_regs (phyWrites_regs s lower)
  split
  · have fell : RegsKept own s s1 := wrote.trans (mgFell_kept s0 h)
    refine RegsKept.raiseN ?_ 226 16 _
    exact fell.trans (.of_regs rfl)
  · exact wrote.raiseN 227 0 []

theorem mgRaiseNow_kept (s : State) (h : own 0x901034 = true) : RegsKept own s (mgRaiseNow s) :=
  .ite (mgSpeedChange_kept s _ _ h) (.refl own s)

/-! ## Time -/

theorem checkExpiry_kept (s : State) : RegsKept own s (checkExpiry s) := by
  unfold checkExpiry
  extract_lets e tb s1
  have noted : RegsKept own s s1 := .of_regs rfl
  exact .ite (.refl own s) (.ite (noted.raiseN 55 0 []) noted)

theorem leapSchedule_plainRegs (s : State) : plainRegs (leapSchedule s) = plainRegs s :=
  congrArg RefInputs.regs (refInputs_leapSchedule s)

/-! ## The Mitten pair -/

/-- The registers that a takeover moves beside the event counters may change. -/
structure TakeoverOwn (own : Nat → Bool) : Prop where
  lost : own (rspCtr 8) = true
  count : own 0x1300048 = true
  replies : ∀ j < 16, own (lpCnt j + 0x34) = true

theorem mitTo_kept (s : State) (st : MitState) (h : own (rspCtr 8) = true) : RegsKept own s (mitTo s st) := by
  refine fun a plain other => rd_mitTo plain (fun same => ?_) s st
  rw [same, h] at other
  exact absurd other (by decide)

theorem announced_regsKept (s : State) (h : ∀ j < 16, own (lpCnt j + 0x34) = true) :
    RegsKept own s ((List.range 16).foldl announcePort s) := by
  refine List.foldlRecOn (motive := fun u => RegsKept own s u) _ announcePort (.refl own s) fun u kept j mem => kept.trans ?_
  intro a plain other
  refine (announcePort_kept u j (fun same => ?_) fun sat => ?_).1
  · rw [same, h j (List.mem_range.mp mem)] at other
    exact absurd other (by decide)
  · rw [sat] at plain
    exact absurd plain (by decide)

theorem takeover_kept (s : State) (alone : Bool) (h : TakeoverOwn own) : RegsKept own s (takeover s alone) := by
  unfold takeover
  extract_lets nts mit s1 s2 s3 s4
  have moved : RegsKept own s s2 :=
    (RegsKept.trans (.of_regs (t := s1) rfl) (mitTo_kept s1 _ h.lost)).trans (.bump _ _ 1 (.inr h.count))
  have announced : RegsKept own s s3 := moved.trans (announced_regsKept s2 h.replies)
  have sent : RegsKept own s s4 := .ite (announced.trans (.of_regs rfl)) announced
  have told_ : RegsKept own s (if inRing s4.brim then emit s4 (.brim 5 []) else s4) := .ite (sent.trans (.of_regs rfl)) sent
  exact told_.raiseN 354 0 []

theorem mitCtlWritten_kept (s t : State) (h : TakeoverOwn own) : RegsKept own t (mitCtlWritten s t) :=
  .ite (takeover_kept t true h) (.refl own t)

theorem pairIdWritten_kept (s : State) (h : own (rspCtr 8) = true) : RegsKept own s (pairIdWritten s) := by
  unfold pairIdWritten
  extract_lets m
  repeat' split
  · exact .trans (.of_regs (t := setMit s m) rfl) (mitTo_kept _ _ h)
  · exact .of_regs rfl
  · exact .refl own s

/-! ## What a written setting brings about -/

/-- The registers that settings move behind them, beside their own word and the event counters, may change. -/
structure SettingsOwn (own : Nat → Bool) : Prop extends TakeoverOwn own where
  gnss : own 0x500004 = true
  mg : own 0x901034 = true

/-- What a stored setting brings about moves its own word, where it is limited, and the registers behind settings. -/
theorem afterWrite_kept (s t : State) {a : Nat} (h : SettingsOwn own)
    (limited : lpXonAt a = true ∨ denyCtlAt a = true → own a = true) : RegsKept own t (afterWrite s t a) := by
  have gnss : RegsKept own t (if gnRuns s = true ∧ gnRuns t = false then gnStop t
      else if gnRuns s = false ∧ gnRuns t = true then gnStart t else t) :=
    .ite (.of_plainRegs (gnStop_plainRegs t)) (.ite (gnStart_kept t h.gnss) (.refl own t))
  have down : RegsKept own t (if t.mg.up then raiseN (mgDown t) 224 0 [] else mgDown t) :=
    .ite ((mgDown_kept t h.mg).raiseN 224 0 []) (mgDown_kept t h.mg)
  have leaps : RegsKept own t (leapSchedule (checkExpiry (userTouch t))) :=
    (RegsKept.trans (.of_regs (t := userTouch t) rfl) (checkExpiry_kept _)).trans (.of_plainRegs (leapSchedule_plainRegs _))
  have units (l : List Nat) : RegsKept own t (l.foldl (fun u k => setUnit u k 0) t) :=
    .foldl (f := fun u k => setUnit u k 0) (fun _ _ => .of_regs rfl) l t
  have xon : RegsKept own t (if lpXonAt a then clampXon t a else if denyCtlAt a then clampDeny t a else t) := by
    split
    next xon => exact .wr t _ (limited (.inl xon))
    · split
      next deny => exact .wrf t _ _ _ (limited (.inr deny))
      · exact .refl own t
  exact .ite (.of_plainRegs (dropAbsent_plainRegs ..)) <| .ite (.ite (.of_plainRegs (servoHold_plainRegs t)) (.refl own t)) <|
    .ite (holdsChange_kept t h.lost) <| .ite gnss <| .ite (.of_regs (chanWritten_regs ..)) <|
    .ite (osnmaEval_kept t h.gnss) <| .ite (.ite (.refl own t) down) <|
    .ite (.ite (mgRaiseNow_kept t h.mg) (.refl own t)) <| .ite (units _) <| .ite leaps <|
    .ite (mitCtlWritten_kept s t h.toTakeoverOwn) <| .ite (pairIdWritten_kept t h.lost) xon

end Sys2Proof.Machine
end

section
/-! SUPPORT. O53: plain writes of registers (R9 to R14, R135, R190, R296, R321). -/

namespace Sys2Proof.Machine

variable {s t u : State}

/-! ## Fields of a word written through a mask -/

/-- The bits of a mask come from the value, the others from the word before. -/
def merged (mask : Nat) (old v : Word) : Word := (old &&& ~~~(BitVec.ofNat 32 mask)) ||| (v &&& BitVec.ofNat 32 mask)

theorem getLsbD_merged (mask : Nat) (old v : Word) {i : Nat} (bit : i < 32) :
    (merged mask old v).getLsbD i = if mask.testBit i then v.getLsbD i else old.getLsbD i := by
  unfold merged
  rw [BitVec.getLsbD_or, BitVec.getLsbD_and, BitVec.getLsbD_and, BitVec.getLsbD_not, BitVec.getLsbD_ofNat]
  cases mask.testBit i <;> simp [bit]

theorem testBit_fld (w : Word) (lo len i : Nat) : (fld w lo len).testBit i = (decide (i < len) && w.getLsbD (lo + i)) := by
  unfold fld bitsOf
  rw [Nat.testBit_mod_two_pow, Nat.testBit_div_two_pow, Nat.add_comm i lo]
  rfl

/-- Two words that agree on the bits of a field hold the same field. -/
theorem fld_congr {w x : Word} {lo len : Nat} (same : ∀ i < len, w.getLsbD (lo + i) = x.getLsbD (lo + i)) :
    fld w lo len = fld x lo len := by
  refine Nat.eq_of_testBit_eq fun i => ?_
  rw [testBit_fld, testBit_fld]
  by_cases inside : i < len
  · rw [same i inside]
  · simp [inside]

theorem fld_merged_value {mask lo len : Nat} (old v : Word) (fits : lo + len ≤ 32)
    (covered : ∀ i < len, mask.testBit (lo + i) = true) : fld (merged mask old v) lo len = fld v lo len :=
  fld_congr fun i inside => by rw [getLsbD_merged _ _ _ (by omega), if_pos (covered i inside)]

theorem fld_merged_old {mask lo len : Nat} (old v : Word) (fits : lo + len ≤ 32)
    (apart : ∀ i < len, mask.testBit (lo + i) = false) : fld (merged mask old v) lo len = fld old lo len :=
  fld_congr fun i inside => by
    rw [getLsbD_merged _ _ _ (by omega), if_neg (by rw [apart i inside]; decide)]

theorem fld_putFld_apart (w : Word) (v : Nat) {lo len lo' len' : Nat} (fits : lo' + len' ≤ 32)
    (apart : lo' + len' ≤ lo ∨ lo + len ≤ lo') : fld (putFld w lo len v) lo' len' = fld w lo' len' :=
  fld_congr fun i inside => by rw [getLsbD_putFld _ _ _ _ (by omega), if_neg (by omega)]

theorem fld_putFld_same (w : Word) {lo len v : Nat} (fits : lo + len ≤ 32) (small : v < 2 ^ len) :
    fld (putFld w lo len v) lo len = v := by
  refine Nat.eq_of_testBit_eq fun i => ?_
  rw [testBit_fld]
  by_cases inside : i < len
  · rw [getLsbD_putFld _ _ _ _ (by omega), if_pos (by omega), Nat.add_sub_cancel_left]
    simp [inside]
  · rw [Nat.testBit_lt_two_pow (Nat.lt_of_lt_of_le small (Nat.pow_le_pow_right (by decide) (Nat.le_of_not_lt inside)))]
    simp [inside]

/-- A field that already holds the value stays as it is. -/
theorem putFld_fld_self (w : Word) {lo len : Nat} : putFld w lo len (fld w lo len) = w := by
  refine BitVec.eq_of_getLsbD_eq fun i bit => ?_
  rw [getLsbD_putFld _ _ _ _ bit]
  split
  next inside =>
    rw [testBit_fld, Nat.add_sub_cancel' inside.1, decide_eq_true (by omega), Bool.true_and]
  · rfl

theorem flag_merged {mask i : Nat} (old v : Word) (bit : i < 32) (covered : mask.testBit i = true) :
    flag (merged mask old v) i = flag v i := by
  rw [flag, getLsbD_merged _ _ _ bit, if_pos covered, flag]

/-! ## The register table at an address -/

/-- A register's writable bits, its sticky bits and its rules, where it is no drop counter. -/
def storesBy (a rw w1c : Nat) (rules : List Rule) : Bool :=
  (regAt a).any fun e => decide (e.1.rw = rw ∧ e.1.w1c = w1c ∧ e.1.rules = rules) && !e.1.count32

theorem rd_store_of_regAt {a i : Nat} {r : RegDef} (entry : regAt a = some (r, i)) (noCounter : r.count32 = false) (v : Word) :
    rd (store s a v) a = storedWord r r.rw (rd s a) v &&& ~~~(v &&& BitVec.ofNat 32 r.w1c) := by
  unfold store
  rw [entry]
  dsimp only
  rw [if_neg (by rw [noCounter]; decide), rd_wr_same]

theorem regAt_of_storesBy {a rw_ w1c : Nat} {rules : List Rule} (by_ : storesBy a rw_ w1c rules = true) :
    ∃ r i, regAt a = some (r, i) ∧ r.rw = rw_ ∧ r.w1c = w1c ∧ r.rules = rules ∧ r.count32 = false := by
  unfold storesBy at by_
  cases known : regAt a with
  | none => simp [known] at by_
  | some e =>
    rw [known, Option.any_some, Bool.and_eq_true, decide_eq_true_eq, Bool.not_eq_true'] at by_
    obtain ⟨⟨rw_', w1c', rules'⟩, noCounter⟩ := by_
    exact ⟨e.1, e.2, rfl, rw_', w1c', rules', noCounter⟩

theorem rd_store_of_storesBy {a rw_ w1c : Nat} {rules : List Rule} (by_ : storesBy a rw_ w1c rules = true) (v : Word) :
    rd (store s a v) a = rules.foldl (fun w rule => rule.apply (rd s a) w) (merged rw_ (rd s a) v) &&&
      ~~~(v &&& BitVec.ofNat 32 w1c) := by
  obtain ⟨r, i, entry, rfl, rfl, rfl, noCounter⟩ := regAt_of_storesBy by_
  exact rd_store_of_regAt entry noCounter v

theorem rd_storeMask_of_storesBy {a rw_ w1c : Nat} {rules : List Rule} (by_ : storesBy a rw_ w1c rules = true)
    (mask : Nat) (v : Word) :
    rd (storeMask s a mask v) a = rules.foldl (fun w rule => rule.apply (rd s a) w) (merged mask (rd s a) v) := by
  obtain ⟨r, i, entry, rfl, rfl, rfl, noCounter⟩ := regAt_of_storesBy by_
  unfold storeMask
  rw [entry]
  exact rd_wr_same ..

/-- A register without sticky bits loses none. -/
theorem and_not_noBits (w v : Word) : w &&& ~~~(v &&& BitVec.ofNat 32 0) = w := by
  show w &&& ~~~(v &&& 0#32) = w
  rw [BitVec.and_zero, BitVec.not_zero, BitVec.and_allOnes]

/-! ## The write as a whole -/

theorem exec_registerWrite_bar0 {a : Nat} (inside : a < 0x2000000) (aligned : a % 4 = 0) (open_ : readable s a = true)
    (v : Word) : exec (.registerWrite .bar0 a v) s = .next (afterWrite s (plainWrite s a v) a) := by
  refine (if_neg (c := 0x2000000 ≤ a) (by omega)).trans ((if_neg (c := a % 4 ≠ 0) (by omega)).trans ?_)
  rw [if_pos open_]

theorem exec_registerWrite_hidden {a : Nat} (inside : a < 0x2000000) (aligned : a % 4 = 0) (hidden : readable s a = false)
    (v : Word) : exec (.registerWrite .bar0 a v) s = .next s := by
  refine (if_neg (c := 0x2000000 ≤ a) (by omega)).trans ((if_neg (c := a % 4 ≠ 0) (by omega)).trans ?_)
  rw [if_neg (by rw [hidden]; decide)]

/-- A register with a setting of its own is none of those that settings move behind them. -/
theorem settings_apart {a : Nat} (here : settingAt a = true ∨ chanCtlAt a = true) :
    eventReg a = false ∧ SettingsOwn fun b => decide (b ≠ a) := by
  have apart : a ≠ 0xB08060 ∧ a ≠ 0x1300048 ∧ a ≠ 0x500004 ∧ a ≠ 0x901034 ∧ (a < 0x800000 ∨ 0x900000 ≤ a) ∧
      ¬(0xE01000 ≤ a ∧ a < 0xE03000) ∧ a < 0x1500000 := by
    simp only [settingAt, chanCtlAt, Bool.or_eq_true, Bool.and_eq_true, decide_eq_true_eq, List.contains_eq_mem,
      List.mem_cons, List.not_mem_nil, or_false] at here
    omega
  obtain ⟨lost, count, gnss, mg, ports, rings, events⟩ := apart
  refine ⟨?_, ?_⟩
  · simp only [eventReg, Bool.or_eq_false_iff, decide_eq_false_iff_not]
    omega
  · refine { lost := decide_eq_true (Ne.symm lost), count := decide_eq_true (Ne.symm count), replies := fun j few => ?_,
             gnss := decide_eq_true (Ne.symm gnss), mg := decide_eq_true (Ne.symm mg) }
    refine decide_eq_true fun same => ?_
    unfold lpCnt lpBase at same
    omega

/-- What a setting brings about leaves its own word as it was stored, where no limit applies to it. -/
theorem rd_afterWrite {a : Nat} (here : settingAt a = true ∨ chanCtlAt a = true) (free : lpXonAt a = false)
    (noDeny : denyCtlAt a = false) (s t : State) : rd (afterWrite s t a) a = rd t a := by
  obtain ⟨plain, own⟩ := settings_apart here
  refine afterWrite_kept s t own (fun limited => ?_) a plain (by simp)
  simp [free, noDeny] at limited

theorem registerWrite_stores {a i : Nat} {r : RegDef} (addr : plainAddr a = true) (open_ : readable s a = true)
    (entry : regAt a = some (r, i)) (noCounter : r.count32 = false) (v : Word) :
    Gives (.registerWrite .bar0 a v) s fun t =>
      rd t a = storedWord r r.rw (rd s a) v &&& ~~~(v &&& BitVec.ofNat 32 r.w1c) := by
  obtain ⟨inside, aligned⟩ := bar0Word_of_plainAddr addr
  refine ⟨_, exec_registerWrite_bar0 inside aligned open_ v, ?_⟩
  rw [plainWrite_of_plainAddr addr, ← rd_store_of_regAt entry noCounter v]
  cases setting : settingAt a with
  | false => rw [afterWrite_of_not_settingAt addr setting]
  | true =>
    simp only [plainAddr, Bool.and_eq_true, Bool.not_eq_true'] at addr
    exact rd_afterWrite (.inl setting) (by tauto) (by tauto) s _

/-! ## Settings with a store of their own -/

theorem afterWrite_unset {a : Nat} (bare : settingAt a = false) (noChan : chanCtlAt a = false) (noCore : a ≠ 0x100000)
    (s t : State) : afterWrite s t a = if lpXonAt a then clampXon t a else if denyCtlAt a then clampDeny t a else t := by
  simp only [settingAt, Bool.or_eq_false_iff, decide_eq_false_iff_not, List.contains_eq_mem, List.mem_cons,
    List.not_mem_nil, or_false, not_or] at bare
  simp [afterWrite, bare, noChan, noCore]

theorem mbt_storesBy : storesBy 0x208000 0xE 0 [.skip 2 2 [3]] = true := by decide +kernel

theorem mbtWrite_stores (open_ : readable s 0x208000 = true) (v : Word) :
    Gives (.registerWrite .bar0 0x208000 v) s fun t =>
      rf t 0x208000 1 3 = if fld v 2 2 = 3 then rf s 0x208000 1 3 else fld v 1 3 := by
  refine ⟨_, exec_registerWrite_bar0 (by decide) (by decide) open_ v, ?_⟩
  rw [afterWrite_unset (by decide) (by decide) (by decide), if_neg (c := lpXonAt 0x208000 = true) (by decide),
    if_neg (c := denyCtlAt 0x208000 = true) (by decide)]
  have goes : plainWrite s 0x208000 v = if fld v 2 2 = 3 then s else store s 0x208000 v := by
    unfold plainWrite
    rw [if_neg (by decide), if_neg (by decide), if_neg (fun h => absurd h.1 (by decide)), if_neg (by decide)]
    by_cases bad : fld v 2 2 = 3
    · rw [if_pos ⟨rfl, bad⟩, if_pos bad]
    · rw [if_neg (fun h => bad h.2), if_neg bad, if_neg (by decide), if_neg (by decide)]
      rfl
  rw [goes]
  beta_reduce
  by_cases bad : fld v 2 2 = 3
  · rw [if_pos bad, if_pos bad]
  · rw [if_neg bad, if_neg bad, rf, rd_store_of_storesBy mbt_storesBy, and_not_noBits]
    have alg : fld (merged 0xE (rd s 0x208000) v) 2 2 = fld v 2 2 := fld_merged_value _ _ (by decide) (by decide)
    have kept : Rule.apply (rd s 0x208000) (merged 0xE (rd s 0x208000) v) (.skip 2 2 [3]) =
        merged 0xE (rd s 0x208000) v := by
      unfold Rule.apply
      dsimp only
      rw [alg, if_neg (by simp [bad])]
    rw [List.foldl_cons, List.foldl_nil, kept]
    exact fld_merged_value _ _ (by decide) (by decide)

theorem ringWrite_held {a r : Nat} (inside : a < 0x2000000) (aligned : a % 4 = 0) (ring : ringRegAt a = some r)
    (busy : (ringOf s r).st ≠ .disabled) (v : Word) : exec (.registerWrite .bar0 a v) s = .next s := by
  have range : 0xE01000 ≤ a ∧ a < 0xE03000 := by
    unfold ringRegAt at ring
    split at ring
    next here => exact ⟨here.1, here.2.1⟩
    · cases ring
  have bare : settingAt a = false ∧ chanCtlAt a = false ∧ lpXonAt a = false ∧ denyCtlAt a = false ∧ ttCtlAt a = false ∧
      ttWordAt a = false ∧ vecMaskAt a = false := by
    simp only [settingAt, chanCtlAt, lpXonAt, denyCtlAt, ttCtlAt, ttWordAt, vecMaskAt, Bool.or_eq_false_iff,
      Bool.and_eq_false_iff, decide_eq_false_iff_not, List.contains_eq_mem, List.mem_cons, List.not_mem_nil, or_false]
    omega
  obtain ⟨setting, chan, xon, deny, ttCtl, ttWord, vec⟩ := bare
  cases open_ : readable s a with
  | false => exact exec_registerWrite_hidden inside aligned open_ v
  | true =>
    have held : plainWrite s a v = s := by
      have mbt : a ≠ 0x208000 := by omega
      have clk : a ≠ 0x100000 := by omega
      have pmc : ¬(0x160010C ≤ a ∧ a < 0x1600500 ∧ a % 16 = 12) := by omega
      simp [plainWrite, ttCtl, chan, ttWord, vec, mbt, clk, pmc, ring, busy]
    rw [exec_registerWrite_bar0 inside aligned open_, held, afterWrite_unset setting chan (by omega), xon, deny]
    rfl

theorem ttWordWrite_held {a : Nat} (aligned : a % 4 = 0) (word : ttWordAt a = true) (on : rb s (a - a % 0x40) 0 = true)
    (v : Word) : exec (.registerWrite .bar0 a v) s = .next s := by
  have range : (0x600000 ≤ a ∧ a < 0x600400) ∧ 4 ≤ a % 0x40 := by
    simp only [ttWordAt, Bool.and_eq_true, decide_eq_true_eq] at word
    exact ⟨word.1, word.2.1⟩
  have bare : settingAt a = false ∧ chanCtlAt a = false ∧ lpXonAt a = false ∧ denyCtlAt a = false ∧
      ttCtlAt a = false := by
    simp only [settingAt, chanCtlAt, lpXonAt, denyCtlAt, ttCtlAt, Bool.or_eq_false_iff,
      Bool.and_eq_false_iff, decide_eq_false_iff_not, List.contains_eq_mem, List.mem_cons, List.not_mem_nil, or_false]
    omega
  obtain ⟨setting, chan, xon, deny, ttCtl⟩ := bare
  cases open_ : readable s a with
  | false => exact exec_registerWrite_hidden (by omega) aligned open_ v
  | true =>
    have held : plainWrite s a v = s := by simp [plainWrite, ttCtl, chan, word, on]
    rw [exec_registerWrite_bar0 (by omega) aligned open_, held, afterWrite_unset setting chan (by omega), xon, deny]
    rfl

theorem xonWrite_limited {a : Nat} (xon : lpXonAt a = true) (aligned : a % 4 = 0) (open_ : readable s a = true) (v : Word) :
    Gives (.registerWrite .bar0 a v) s fun t => (rd t a).toNat ≤ (rd t (a - 4)).toNat - 16 := by
  have range : 0x800000 ≤ a ∧ a < 0x900000 := by
    simp only [lpXonAt, Bool.and_eq_true, decide_eq_true_eq] at xon
    exact xon.1.1
  have bare : settingAt a = false ∧ chanCtlAt a = false := by
    simp only [settingAt, chanCtlAt, Bool.or_eq_false_iff, Bool.and_eq_false_iff, decide_eq_false_iff_not,
      List.contains_eq_mem, List.mem_cons, List.not_mem_nil, or_false]
    omega
  refine ⟨_, exec_registerWrite_bar0 (by omega) aligned open_ v, ?_⟩
  beta_reduce
  rw [afterWrite_unset bare.1 bare.2 (by omega), if_pos xon, clampXon, rd_wr_same, rd_wr_ne _ _ (by omega), w32,
    BitVec.toNat_ofNat]
  exact (Nat.mod_le _ _).trans (Nat.min_le_right _ _)

/-! ## DENY prefixes and GNSS channels -/

theorem deny_storesBy : ∀ k : Fin 16, storesBy (0xD00110 + 0x20 * k) 0xFF03 0 [] = true := by decide +kernel

theorem denyWrite_limited {a : Nat} (deny : denyCtlAt a = true) (open_ : readable s a = true) (v : Word) :
    Gives (.registerWrite .bar0 a v) s fun t => rf t a 0 2 = fld v 0 2 ∧
      rf t a 8 8 = min (fld v 8 8) (if flag v 1 then 128 else 32) := by
  have range : 0xD00100 ≤ a ∧ a < 0xD00300 ∧ a % 0x20 = 0x10 := of_decide_eq_true deny
  have place : a = 0xD00110 + 0x20 * ((a - 0xD00110) / 0x20) := by omega
  have stores : storesBy a 0xFF03 0 [] = true := by
    rw [place]
    exact deny_storesBy ⟨(a - 0xD00110) / 0x20, by omega⟩
  have bare : settingAt a = false ∧ chanCtlAt a = false ∧ lpXonAt a = false ∧ ttCtlAt a = false ∧ ttWordAt a = false ∧
      vecMaskAt a = false := by
    simp only [settingAt, chanCtlAt, lpXonAt, ttCtlAt, ttWordAt, vecMaskAt, Bool.or_eq_false_iff,
      Bool.and_eq_false_iff, decide_eq_false_iff_not, List.contains_eq_mem, List.mem_cons, List.not_mem_nil, or_false]
    omega
  obtain ⟨setting, chan, xon, ttCtl, ttWord, vec⟩ := bare
  have stored : plainWrite s a v = store s a v := by
    have mbt : a ≠ 0x208000 := by omega
    have clk : a ≠ 0x100000 := by omega
    have pmc : ¬(0x160010C ≤ a ∧ a < 0x1600500 ∧ a % 16 = 12) := by omega
    have noRing : ringRegAt a = none := if_neg (by omega)
    simp [plainWrite, ttCtl, chan, ttWord, vec, mbt, clk, pmc, noRing]
  have word : rd (store s a v) a = merged 0xFF03 (rd s a) v := by
    rw [rd_store_of_storesBy stores, and_not_noBits]
    rfl
  have length : rf (store s a v) a 8 8 = fld v 8 8 := by
    rw [rf, word]
    exact fld_merged_value _ _ (by decide) (by decide)
  have family : rb (store s a v) a 1 = flag v 1 := by
    rw [rb, word]
    exact flag_merged _ _ (by decide) (by decide)
  refine ⟨_, exec_registerWrite_bar0 (by omega) (by omega) open_ v, ?_⟩
  beta_reduce
  rw [afterWrite_unset setting chan (by omega), if_neg (c := lpXonAt a = true) (by simp [xon]), if_pos deny, stored, clampDeny, length, family,
    rf, rf, rd_wrf_same, fld_putFld_apart _ _ (by decide) (by decide), word]
  refine ⟨fld_merged_value _ _ (by decide) (by decide), fld_putFld_same _ (by decide) ?_⟩
  exact Nat.lt_of_le_of_lt (Nat.min_le_left _ _) (fld_lt v 8 8)

theorem chanA_storesBy : ∀ c : Fin 128,
    storesBy (chanA c) 0x3F7FF 0 [.skip 1 4 [9, 10, 11, 12, 13, 14, 15], .clamp 12 6 0 61] = true := by decide +kernel

/-- The mask of a write of a channel's CTL: SIGNAL and SV only with MANUAL. -/
def chanMask (manual : Bool) : Nat := if manual then 0x3F7FF else 0x3F001

/-- SIGNAL is not stored where it has a reserved value. -/
def signalKept (old w : Word) : Word := Rule.apply old w (.skip 1 4 [9, 10, 11, 12, 13, 14, 15])

theorem flag_signalKept (old w : Word) : flag (signalKept old w) 0 = flag w 0 := by
  unfold signalKept Rule.apply
  dsimp only
  split
  · exact flag_putFld_of_notMem _ _ (by decide) (by decide)
  · rfl

theorem signalKept_of_same {old w : Word} (same : fld w 1 4 = fld old 1 4) : signalKept old w = w := by
  unfold signalKept Rule.apply
  dsimp only
  split
  · rw [← same]
    exact putFld_fld_self w
  · rfl

theorem chanWrite_stores {a : Nat} (chan : chanCtlAt a = true) (open_ : readable s a = true) (v : Word) :
    Gives (.registerWrite .bar0 a v) s fun t => rb t a 0 = flag v 0 ∧
      (flag v 0 = false → rf t a 1 10 = rf s a 1 10) := by
  have range : (0x501000 ≤ a ∧ a < 0x501800) ∧ a % 0x10 = 0 := by
    simpa only [chanCtlAt, Bool.and_eq_true, decide_eq_true_eq] using chan
  have place : a = chanA ((a - 0x501000) / 0x10) := by
    unfold chanA
    omega
  have stores : storesBy a 0x3F7FF 0 [.skip 1 4 [9, 10, 11, 12, 13, 14, 15], .clamp 12 6 0 61] = true := by
    rw [place]
    exact chanA_storesBy ⟨(a - 0x501000) / 0x10, by omega⟩
  have apart : lpXonAt a = false ∧ denyCtlAt a = false ∧ ttCtlAt a = false := by
    simp only [lpXonAt, denyCtlAt, ttCtlAt, Bool.and_eq_false_iff, decide_eq_false_iff_not]
    omega
  obtain ⟨xon, deny, ttCtl⟩ := apart
  have stored : plainWrite s a v = storeMask s a (chanMask (flag v 0)) v := by
    unfold plainWrite
    rw [if_neg (by rw [ttCtl]; decide), if_pos chan]
    rfl
  have word : rd (storeMask s a (chanMask (flag v 0)) v) a = putFld
      (signalKept (rd s a) (merged (chanMask (flag v 0)) (rd s a) v)) 12 6 (max 0 (min 61
        (fld (signalKept (rd s a) (merged (chanMask (flag v 0)) (rd s a) v)) 12 6))) :=
    rd_storeMask_of_storesBy stores _ v
  refine ⟨_, exec_registerWrite_bar0 (by omega) (by omega) open_ v, ?_⟩
  beta_reduce
  rw [rb, rf, rd_afterWrite (.inr chan) xon deny, stored, word, fld_putFld_apart _ _ (by decide) (by decide),
    flag_putFld_of_notMem _ _ (by decide) (by decide), flag_signalKept]
  refine ⟨flag_merged _ _ (by decide) (by cases flag v 0 <;> decide), fun auto => ?_⟩
  rw [auto]
  have same : fld (merged (chanMask false) (rd s a) v) 1 4 = fld (rd s a) 1 4 := fld_merged_old _ _ (by decide) (by decide)
  rw [signalKept_of_same same]
  exact fld_merged_old _ _ (by decide) (by decide)

/-- Settles O53. A write stores one word through its mask and rules, and what follows it leaves that word alone but for the
limits of an XON threshold and of a DENY length. -/
theorem registerWritesStoreTheirFields : Obligations.RegisterWritesStoreTheirFields := by
  unfold Obligations.RegisterWritesStoreTheirFields
  exact ⟨fun s a i v r addr open_ entry noCounter => registerWrite_stores addr open_ entry noCounter v,
    fun s v open_ => mbtWrite_stores open_ v,
    fun s a r v inside aligned ring busy => ringWrite_held inside aligned ring busy v,
    fun s a v aligned word on => ttWordWrite_held aligned word on v,
    fun s a v xon aligned open_ => xonWrite_limited xon aligned open_ v,
    fun s a v deny open_ => denyWrite_limited deny open_ v, fun s a v chan open_ => chanWrite_stores chan open_ v,
    fun s a v inside aligned hidden => exec_registerWrite_hidden inside aligned hidden v⟩

end Sys2Proof.Machine
end

section
/-! SUPPORT. O55: what a reset and the start-up after it leave of the device's own state, and which registers they clear
(R495 to R508). -/

namespace Sys2Proof.Machine

variable {s t u : State} {full rollback : Bool} {reached : Nat → Bool} {env : StartEnv}

/-! ## The device's own state -/

/-- What outlasts the steps of a start: the supplies, the reset pin, a request that waits, and the restarts of the
control cluster. -/
def lasting (s : State) : Bool × Bool × Option Deferred × List Nat :=
  (s.glb.powered, s.glb.resetHeld, s.glb.deferred, s.glb.ctrlTicks)

theorem lasting_of_glb (h : t.glb = s.glb) : lasting t = lasting s := by
  unfold lasting
  rw [h]

theorem lasting_of_within {ps : List Part} (h : Within ps s t) (apart : .glb ∉ ps) : lasting t = lasting s :=
  lasting_of_glb (h .glb apart)

theorem lasting_noteStep (s : State) (n : Nat) : lasting (noteStep s n) = lasting s := by
  unfold noteStep
  split
  · rfl
  · rfl

/-- The step of a start, once it has begun. -/
theorem step_noteStep {s : State} (h : 1 ≤ s.glb.step) (n : Nat) : 1 ≤ (noteStep s n).glb.step := by
  unfold noteStep
  split
  · exact h.trans (Nat.le_max_left _ _)
  · exact h

theorem lasting_setValid (s : State) (v : Bool) : lasting (setValid s v) = lasting s := by
  unfold setValid
  extract_lets tb s1 ref s2 s3 s4 nts
  have second : s2.glb = s.glb := by
    unfold s2
    split
    · rfl
    · rfl
  have third : lasting s3 = lasting s := by
    refine lasting_of_glb (Eq.trans ?_ second)
    unfold s3
    split
    · rw [alarmClear_glb, raiseSev_glb]
    · exact raiseN_glb ..
  have fourth : lasting s4 = lasting s := by
    have ready (x : State) : lasting (mitReadyCheck (refreshServing (userTouch x))) = lasting x :=
      lasting_of_within (ps := .mit :: servingParts) (by simp) (by decide)
    unfold s4
    rw [ready]
    split
    · rw [lasting_noteStep, third]
    · exact third
  split
  · rfl
  · split
    · exact (lasting_of_within (ps := [.nts]) (by simp) (by decide)).trans fourth
    · exact fourth

theorem lasting_tryRise (s : State) : lasting (tryRise s) = lasting s := by
  unfold tryRise
  split
  · exact lasting_setValid s true
  · rfl

theorem lasting_takeSelection (s : State) (want : Nat) : lasting (takeSelection s want) = lasting s :=
  lasting_of_within (ps := [.tb, .ref, .dpl]) (by simp) (by decide)

theorem lasting_timeSwitch (s : State) (want : Nat) : lasting (timeSwitch s want) = lasting s := by
  have role (u : State) (r g : Nat) (st : RoleState) (id : Nat) :
      lasting (raiseN (setRole u want r g st) id want [want]) = lasting u :=
    lasting_of_within (ps := [.ref]) (by simp) (by decide)
  unfold timeSwitch
  split
  · exact lasting_takeSelection ..
  · dsimp only
    split
    next built =>
      rw [lasting_tryRise, lasting_takeSelection]
      exact lasting_of_within (ps := [.ref]) ((within_buildOut (by decide) built).2 .refl) (by decide)
    · split
      · rw [lasting_takeSelection, role]
      · exact role ..

theorem lasting_loseRole (s : State) (i role : Nat) : lasting (loseRole s i role) = lasting s := by
  have dplls (u : State) : lasting (selectDpll (selectDpll (selectDpll u 0) 1) 2) = lasting u :=
    lasting_of_within (ps := [.dpl]) (by simp) (by decide)
  have role_ (st : RoleState) : lasting (setRole s i role 0 st) = lasting s :=
    lasting_of_within (ps := [.ref]) (by simp) (by decide)
  unfold loseRole selectAll selectTime
  split
  · rfl
  · rw [dplls]
    split
    · exact role_ _
    · extract_lets want
      split
      · exact role_ _
      · exact (lasting_timeSwitch ..).trans (role_ _)

theorem lasting_enterFailed (s : State) (cause : Nat) : lasting (enterFailed s cause) = lasting s := by
  unfold lasting
  rw [enterFailed_glb]
  split
  · rfl
  · rfl

theorem step_enterFailed (s : State) (cause : Nat) : (enterFailed s cause).glb.step = s.glb.step := by
  rw [enterFailed_glb]
  split
  · rfl
  · rfl

/-! ## The steps of a start -/

/-- The state in which a start begins: step 1, with the strapped settings of a start from the pins. -/
def started (full : Bool) (env : StartEnv) (s : State) : State :=
  { s with glb := { s.glb with step := 1, qspi4b := if full then env.qspi4b else s.glb.qspi4b },
           clk := { s.clk with loSel := if full then env.loSel else s.clk.loSel }, loam := loadTables s.loam }

/-- The last steps of a start. -/
def finishStart (env : StartEnv) (s : State) : State := startDone (startMit (startEnt (startPorts s) env))

/-- The kept domain is started, with a start from the pins only. -/
def keptStarted (env : StartEnv) (s : State) : State :=
  startKept (checkExpiry (restoreModel { s with tb := { s.tb with counter := rtcCounter s } })) env

/-- A step of the start is noted. -/
def atStep2 (s : State) : State := { s with glb := { s.glb with step := 2 } }

/-- The boot, up to the march test. -/
def booted (env : StartEnv) (b : Boot) (key : Option Bytes) (s : State) (v : Vote) : State :=
  marchTest (bootCommit (bootState s b key env.pfailLow) b v) env.failRows

/-- What every step of a start keeps, the start keeps. -/
theorem startUp_keeps {P : State → Prop} (begins : P (started full env s)) (fails : ∀ u n, P u → P (enterFailed u n))
    (boots : ∀ u b key v, P u → P (booted env b key u v)) (tested : ∀ u, P u → P (atStep2 u))
    (restores : ∀ u b, P u → P (restoreStep reached env b u)) (keeps : full = true → ∀ u, P u → P (keptStarted env u))
    (ends : ∀ u, P u → P (finishStart env u)) (notes : ∀ u, P u → P (noteStep u 8))
    (serves : ∀ u, P u → P (refreshServing u)) : P (startUp full rollback reached env s) := by
  unfold startUp
  extract_lets g0 c0 s0
  have first : P s0 := begins
  clear_value s0
  split
  · exact fails _ _ first
  next key _ =>
    extract_lets b s1 g2 s2 s3 s4 tb4 s5 s6
    have second : P s2 := tested _ (boots s0 b key _ first)
    clear_value s2
    split
    · exact fails _ _ first
    · split
      · exact fails _ _ second
      · have third : P s3 := by
          unfold s3
          split
          · exact fails _ _ second
          · exact second
        have fourth : P s4 := restores s3 b third
        have fifth : P s5 := by
          unfold s5
          split
          next here => exact keeps here s4 fourth
          · exact fourth
        have sixth : P s6 := ends s5 fifth
        refine serves _ ?_
        split
        · exact notes s6 sixth
        · exact sixth

theorem restoreStep_lasting (s : State) (b : Boot) : lasting (restoreStep reached env b s) = lasting s := by
  unfold restoreStep
  extract_lets s1 blind s2 s3 s3' l4 s4 s6 l7 s7 l8 s8 g
  have kept : Within [.nts, .gnt, .loam] s s8 := by
    simp [s8, l8, s7, l7, s6, s4, l4, s3', s3, s2, s1]
  exact Eq.trans (b := lasting s8) rfl (lasting_of_within kept (by decide))

theorem booted_glb (env : StartEnv) (b : Boot) (key : Option Bytes) (s : State) (v : Vote) :
    (booted env b key s v).glb = s.glb :=
  have kept : Within [.clk, .stat, .loam] s (booted env b key s v) := by simp [booted]
  kept .glb (by decide)

theorem keptStarted_glb (env : StartEnv) (s : State) : (keptStarted env s).glb = s.glb := by
  have start (u : State) : Within [.tb, .ttOut, .dpl, .gn, .lp, .rsp, .nts, .brim, .clk] s (startKept u env) ↔
      Within [.tb, .ttOut, .dpl, .gn, .lp, .rsp, .nts, .brim, .clk] s u := within_startKept (by decide) env
  have kept : Within [.tb, .ttOut, .dpl, .gn, .lp, .rsp, .nts, .brim, .clk] s (keptStarted env s) := by
    simp [keptStarted, start]
  exact kept .glb (by decide)

theorem finishStart_glb (env : StartEnv) (s : State) : lasting (finishStart env s) = lasting s ∧
    1 ≤ (finishStart env s).glb.step := by
  have before : Within [.lp, .clk, .ent, .mit] s (startMit (startEnt (startPorts s) env)) := by simp
  unfold finishStart startDone
  extract_lets g s1
  refine ⟨(lasting_of_glb (raiseN_glb ..)).trans (Eq.trans (b := lasting (startMit (startEnt (startPorts s) env))) rfl
    (lasting_of_within before (by decide))), ?_⟩
  rw [raiseN_glb]
  exact Nat.le_trans (by decide) (Nat.le_max_left 4 _)

/-- A start leaves what outlasts it, and has begun. -/
theorem startUp_running (full rollback : Bool) (reached : Nat → Bool) (env : StartEnv) (s : State) :
    lasting (startUp full rollback reached env s) = lasting s ∧ 1 ≤ (startUp full rollback reached env s).glb.step := by
  refine startUp_keeps (P := fun u => lasting u = lasting s ∧ 1 ≤ u.glb.step) ⟨rfl, Nat.le_refl 1⟩ ?_ ?_ ?_ ?_ ?_ ?_ ?_ ?_
  · exact fun u n ⟨last, begun⟩ => ⟨(lasting_enterFailed u n).trans last, by rwa [step_enterFailed]⟩
  · exact fun u b key v ⟨last, begun⟩ => ⟨(lasting_of_glb (booted_glb ..)).trans last, by rwa [booted_glb]⟩
  · exact fun u ⟨last, _⟩ => ⟨last, (by decide : 1 ≤ 2)⟩
  · exact fun u b ⟨last, _⟩ => ⟨(restoreStep_lasting u b).trans last, by simp [restoreStep]⟩
  · exact fun _ u ⟨last, begun⟩ => ⟨(lasting_of_glb (keptStarted_glb ..)).trans last, by rwa [keptStarted_glb]⟩
  · exact fun u ⟨last, _⟩ => ⟨(finishStart_glb env u).1.trans last, (finishStart_glb env u).2⟩
  · exact fun u ⟨last, begun⟩ => ⟨(lasting_noteStep u 8).trans last, step_noteStep begun 8⟩
  · intro u ⟨last, begun⟩
    have glb : (refreshServing u).glb = u.glb := (within_refreshServing (ps := servingParts) (by decide)).2 .refl .glb (by decide)
    exact ⟨(lasting_of_glb glb).trans last, by rwa [glb]⟩

/-- A restart that leaves the kept domain alone leaves Brim alone. -/
theorem startUp_warm_brim (rollback : Bool) (reached : Nat → Bool) (env : StartEnv) (s : State) :
    (startUp false rollback reached env s).brim = s.brim := by
  have brim {ps : List Part} {u v : State} (same : u.brim = s.brim) (h : Within ps u v) (apart : .brim ∉ ps) :
      v.brim = s.brim := Eq.trans (h .brim apart) same
  refine startUp_keeps (P := fun u => u.brim = s.brim) rfl ?_ ?_ ?_ ?_ nofun ?_ ?_ ?_
  · exact fun u n same => brim same (ps := [.glb, .lp, .rsp, .nts]) (by simp) (by decide)
  · exact fun u b key v same => brim same (ps := [.clk, .stat, .loam]) (by simp [booted]) (by decide)
  · exact fun u same => same
  · exact fun u b same => brim same (ps := [.glb, .nts, .gnt, .loam])
      ((within_restoreStep (by decide) reached env b).2 .refl) (by decide)
  · exact fun u same => brim same (ps := [.glb, .lp, .clk, .ent, .mit]) (by simp [finishStart]) (by decide)
  · exact fun u same => brim same (ps := [.glb]) (by simp) (by decide)
  · exact fun u same => brim same (ps := servingParts) (by simp) (by decide)

/-! ## Cold registers (R496) -/

theorem tget_filter_some {α : Type} (d : Nat → α) (p : Nat → Bool) {k : Nat} (some_ : p k = true) (t : Tab α) :
    tget d (t.filter fun e => p e.1) k = tget d t k := by
  induction t with
  | nil => rfl
  | cons e t ih =>
    rw [List.filter_cons]
    by_cases here : k = e.1
    · rw [if_pos (by rw [← here, some_])]
      simp [tget, here]
    · split
      · simp [tget, here, ih]
      · simpa [tget, here] using ih

theorem rd_dropRegs (s : State) (p : Nat → Bool) (a : Nat) : rd (dropRegs s p) a = if p a then coldWord a else rd s a := by
  cases gone : p a with
  | true => exact tget_filter_none coldWord (fun b => !p b) (by simp [gone]) s.regs
  | false => exact tget_filter_some coldWord (fun b => !p b) (by simp [gone]) s.regs

/-- The registers after a reset of the reached domains: Cold where it reaches, kept elsewhere. -/
theorem rd_coldAll (s : State) (p : Nat → Bool) {a : Nat} (noLow : a ≠ 0xB00010) (noHigh : a ≠ 0xB00014) :
    rd (coldAll s p) a = if p a then coldWord a else rd s a := by
  unfold coldAll fusedCold
  rw [rd_wr_ne _ _ noHigh, rd_wr_ne _ _ noLow]
  exact rd_dropRegs ..

/-! ## A cut commit (R376, R497) -/

/-- What a cut commit leaves of the store: the boot flash and the supply flags. -/
structure CutKept (l k : Loam) : Prop where
  flash : k.flash = l.flash
  vbatGone : k.vbatGone = l.vbatGone

theorem writeCopy_cutKept (x : Loam × List Nat) (c : Copy) : CutKept x.1 (writeCopy 0 0 x c).1 := by
  obtain ⟨l, bad⟩ := x
  unfold writeCopy
  split
  · exact ⟨rfl, rfl⟩
  · exact ⟨rfl, rfl⟩

theorem cutCommit_cutKept (s : State) : CutKept s.loam (cutCommit s).loam := by
  unfold cutCommit
  split
  · exact ⟨rfl, rfl⟩
  next c cur =>
    extract_lets n dir put
    have copies : CutKept s.loam ((List.range n).foldl put ({ s.loam with cur := none, dir := dir }, [])).1 := by
      refine List.foldlRecOn (motive := fun x : Loam × List Nat => CutKept s.loam x.1) _ put ⟨rfl, rfl⟩ fun x kept k _ => ?_
      obtain ⟨flash, gone⟩ := writeCopy_cutKept x (newCopy s c (k + 1))
      exact ⟨flash.trans kept.flash, gone.trans kept.vbatGone⟩
    exact ⟨copies.flash, copies.vbatGone⟩

theorem cutCommit_idle (idle : s.loam.cur = none) : cutCommit s = s := by
  unfold cutCommit
  rw [idle]

theorem rd_cutCommit (s : State) (a : Nat) : rd (cutCommit s) a = rd s a := by
  unfold cutCommit
  split
  · rfl
  · rfl

theorem rd_gaspFirst (s : State) (a : Nat) : rd (gaspFirst s) a = rd s a := by
  unfold gaspFirst
  split
  · extract_lets s1 j
    have sent : rd s1 a = rd s a := by
      unfold s1
      split
      · rfl
      · rfl
    split
    · exact sent
    · exact sent
  · rfl

theorem flag_causeBit (s : State) {i : Nat} (bit : i < 32) : flag (rd (causeBit s i) 0x10) i = true :=
  flag_orReg_same s 0x10 bit

end Sys2Proof.Machine
end

section
/-! SUPPORT. O55: the resets (R495 to R508). -/

namespace Sys2Proof.Machine

variable {s t u : State} {env : StartEnv}

theorem glb_of_lasting (h : lasting t = lasting s) : t.glb.powered = s.glb.powered ∧ t.glb.resetHeld = s.glb.resetHeld ∧
    t.glb.deferred = s.glb.deferred ∧ t.glb.ctrlTicks = s.glb.ctrlTicks := by
  obtain ⟨powered, rest⟩ := Prod.mk.inj h
  obtain ⟨held, rest⟩ := Prod.mk.inj rest
  obtain ⟨deferred, ticks⟩ := Prod.mk.inj rest
  exact ⟨powered, held, deferred, ticks⟩

theorem startUp_glb (full rollback : Bool) (reached : Nat → Bool) (env : StartEnv) (s : State) :
    (startUp full rollback reached env s).glb.powered = s.glb.powered ∧
    (startUp full rollback reached env s).glb.resetHeld = s.glb.resetHeld ∧
    (startUp full rollback reached env s).glb.deferred = s.glb.deferred ∧
    (startUp full rollback reached env s).glb.ctrlTicks = s.glb.ctrlTicks :=
  glb_of_lasting (startUp_running full rollback reached env s).1

theorem cutCommit_glb (s : State) : (cutCommit s).glb = s.glb :=
  (within_cutCommit (ps := [.loam]) (by decide)).2 .refl .glb (by decide)

/-! ## POR and the pin -/

/-- The device after POR, before its start. -/
def porCold (s : State) : State :=
  { coldAll (cutCommit s) porReaches with glb := { (coldAll (cutCommit s) porReaches).glb with powered := true } }

theorem porCold_held (s : State) : (porCold s).glb.resetHeld = s.glb.resetHeld :=
  (congrArg Glb.resetHeld (cutCommit_glb s) :)

theorem por_starts (high : s.glb.resetHeld = false) :
    Gives (.por env) s fun t => t.bcp = Bcp.cold ∧ t.glb.powered = true ∧ 1 ≤ t.glb.step := by
  have goes : exec (.por env) s = .next (startUp true false (fun _ => true) env (porCold s)) :=
    congrArg Host.Outcome.next (if_neg (by
      show ¬(porCold s).glb.resetHeld = true
      rw [porCold_held, high]
      decide))
  exact ⟨_, goes, startUp_bcp .., (startUp_glb ..).1, (startUp_running ..).2⟩

theorem por_waits (low : s.glb.resetHeld = true) :
    Gives (.por env) s fun t => t.bcp = Bcp.cold ∧ t.glb.powered = true ∧ t.glb.resetHeld = true ∧
      (∀ a, porReaches a = true → a ≠ 0xB00010 → a ≠ 0xB00014 → rd t a = coldWord a) := by
  have goes : exec (.por env) s = .next (porCold s) :=
    congrArg Host.Outcome.next (if_pos ((porCold_held s).trans low))
  refine ⟨_, goes, rfl, rfl, (porCold_held s).trans low, fun a reached noLow noHigh => ?_⟩
  exact (rd_coldAll (cutCommit s) porReaches noLow noHigh).trans (if_pos reached)

theorem keepAlive_apart {a : Nat} (keep : keepAliveReg a = true) : 0x1100000 ≤ a ∧ a < 0x1200000 := by
  simp only [keepAliveReg, Bool.or_eq_true, decide_eq_true_eq] at keep
  omega

theorem pin_holds (s : State) : Gives .resetPin s fun t =>
    t.glb.resetHeld = true ∧ flag (rd t 0x10) 1 = true ∧ t.hif.rings = [] ∧ t.bcp = Bcp.cold ∧
    (s.loam.cur = none → t.loam.copies = s.loam.copies) ∧
    (∀ a, chipReaches a = true → a ≠ 0xB00010 → a ≠ 0xB00014 → rd t a = coldWord a) ∧
    (∀ a, keepAliveReg a = true → rd t a = rd s a) := by
  have loam : (gaspFirst s).loam = s.loam := (within_gaspFirst (ps := [])).2 .refl .loam (by decide)
  have reg {a : Nat} (noLow : a ≠ 0xB00010) (noHigh : a ≠ 0xB00014) (noCause : a ≠ 0x10) :
      rd (causeBit (coldAll (cutCommit (gaspFirst s)) chipReaches) 1) a = if chipReaches a then coldWord a else rd s a := by
    unfold causeBit
    rw [rd_orReg_ne _ _ noCause, rd_coldAll _ _ noLow noHigh, rd_cutCommit, rd_gaspFirst]
  refine ⟨_, rfl, rfl, flag_causeBit _ (by decide), rfl, rfl, fun idle => ?_, fun a reached noLow noHigh => ?_,
    fun a keep => ?_⟩
  · show (cutCommit (gaspFirst s)).loam.copies = s.loam.copies
    rw [cutCommit_idle (by rw [loam, idle]), loam]
  · have noCause : a ≠ 0x10 := by
      rintro rfl
      exact absurd reached (by decide)
    exact (reg noLow noHigh noCause).trans (if_pos reached)
  · have range := keepAlive_apart keep
    have out : chipReaches a = false := by simp [chipReaches, porReaches, keep]
    exact (reg (by omega) (by omega) (by omega)).trans (if_neg (by simp [out]))

theorem pinRelease_starts (low : s.glb.resetHeld = true) (powered : s.glb.powered = true) :
    Gives (.resetNRelease env) s fun t => t.glb.resetHeld = false ∧ 1 ≤ t.glb.step := by
  have goes : exec (.resetNRelease env) s = .next
      (startUp true false (fun _ => true) env { s with glb := { s.glb with resetHeld := false } }) :=
    congrArg Host.Outcome.next ((if_neg (by rw [low]; decide)).trans (if_pos powered))
  exact ⟨_, goes, (startUp_glb ..).2.1, (startUp_running ..).2⟩

theorem pinRelease_unpowered (low : s.glb.resetHeld = true) (off : s.glb.powered = false) :
    exec (.resetNRelease env) s = .next { s with glb := { s.glb with resetHeld := false } } :=
  congrArg Host.Outcome.next ((if_neg (by rw [low]; decide)).trans (if_neg (by
    show ¬s.glb.powered = true
    rw [off]
    decide)))

/-! ## Supplies -/

/-- The device without its supplies. -/
def supplyCold (s : State) : State :=
  { coldAll (cutCommit s) porReaches with glb := { (coldAll (cutCommit s) porReaches).glb with powered := false } }

theorem rd_supplyCold (s : State) {a : Nat} (noLow : a ≠ 0xB00010) (noHigh : a ≠ 0xB00014) :
    rd (supplyCold s) a = if porReaches a then coldWord a else rd s a := by
  rw [← rd_cutCommit s]
  exact rd_coldAll (cutCommit s) porReaches noLow noHigh

theorem supplyCold_loam (s : State) : (supplyCold s).loam.flash = s.loam.flash ∧
    (supplyCold s).loam.vbatGone = s.loam.vbatGone := by
  obtain ⟨flash, gone⟩ := cutCommit_cutKept s
  exact ⟨flash, gone⟩

theorem rd_keepAliveLost (s : State) {a : Nat} (noStatus : a ≠ 0x110010C) :
    rd (keepAliveLost s) a = if 0x1100200 ≤ a ∧ a < 0x1100300 then coldWord a else rd s a := by
  unfold keepAliveLost
  rw [rd_orReg_ne _ _ noStatus]
  split
  next backup => exact rd_dropBackup backup.1 backup.2 _
  next other =>
    exact tget_filter_some coldWord (fun b => decide (b < 0x1100200 ∨ 0x1100300 ≤ b)) (decide_eq_true (by omega)) s.regs

theorem execSupplyLoss_split (s : State) : exec .supplyLoss s =
    .next (if s.loam.vbatGone then keepAliveLost (supplyCold s) else supplyCold s) := by
  rw [← (supplyCold_loam s).2]
  rfl

theorem supplyLoss_clears (s : State) : Gives .supplyLoss s fun t =>
    t.glb.powered = false ∧ t.bcp = Bcp.cold ∧ t.loam.flash = s.loam.flash ∧
    (∀ a, porReaches a = true → a ≠ 0xB00010 → a ≠ 0xB00014 → rd t a = coldWord a) ∧
    (s.loam.vbatGone = false → ∀ a, keepAliveReg a = true → rd t a = rd s a) ∧
    (s.loam.vbatGone = true → t.loam.rtcValid = false ∧ t.loam.rtcLost = true ∧
      ∀ a, 0x1100200 ≤ a → a < 0x1100300 → rd t a = coldWord a) := by
  refine ⟨_, execSupplyLoss_split s, ?_⟩
  beta_reduce
  cases gone : s.loam.vbatGone with
  | true =>
    rw [if_pos rfl]
    refine ⟨rfl, rfl, (supplyCold_loam s).1, fun a reached noLow noHigh => ?_, nofun,
      fun _ => ⟨rfl, rfl, fun a low high => ?_⟩⟩
    · have noStatus : a ≠ 0x110010C := by
        rintro rfl
        exact absurd reached (by decide)
      have noBackup : ¬(0x1100200 ≤ a ∧ a < 0x1100300) := fun backup => by
        simp [porReaches, keepAliveReg, backup] at reached
      rw [rd_keepAliveLost _ noStatus, if_neg noBackup, rd_supplyCold s noLow noHigh, if_pos reached]
    · rw [rd_keepAliveLost _ (by omega), if_pos ⟨low, high⟩]
  | false =>
    rw [if_neg (by decide)]
    refine ⟨rfl, rfl, (supplyCold_loam s).1, fun a reached noLow noHigh => ?_, fun _ a keep => ?_, nofun⟩
    · exact (rd_supplyCold s noLow noHigh).trans (if_pos reached)
    · have range := keepAlive_apart keep
      exact (rd_supplyCold s (by omega) (by omega)).trans (if_neg (by simp [porReaches, keep]))

/-! ## CHIP and WARM -/

theorem gaspFirst_causeBit (s : State) (i : Nat) : Within [] s (gaspFirst (causeBit s i)) := by
  simp [causeBit]

theorem flag_gaspFirst_causeBit (s : State) {i : Nat} (bit : i < 32) : flag (rd (gaspFirst (causeBit s i)) 0x10) i = true := by
  rw [rd_gaspFirst]
  exact flag_causeBit s bit

theorem actChip_cold (env : StartEnv) (s : State) : (actChip env s).bcp = Bcp.cold ∧ (actChip env s).glb.deferred = none :=
  ⟨startUp_bcp .., (startUp_glb ..).2.2.1⟩

theorem lasting_coldWarm (s : State) : lasting (coldWarm s) = (s.glb.powered, s.glb.resetHeld, none, []) := by
  unfold coldWarm dropSynce
  rw [lasting_of_within (ps := [.gnt]) ((within_fusedCold (by decide)).2 .refl) (by decide), lasting_loseRole,
    lasting_loseRole]
  rfl

theorem coldWarm_brim (s : State) : (coldWarm s).brim = s.brim := by
  unfold coldWarm
  exact (((within_fusedCold (ps := .gnt :: selectionParts) (by decide)).2
    ((within_dropSynce fun _ => List.mem_cons_of_mem _).2 .refl)) .brim (by decide) :)

/-- A WARM restart: the board ports at Cold, no request waits, the control cluster's restarts forgotten, Brim kept. -/
theorem actWarm_cold (esc rollback : Bool) (env : StartEnv) (s : State) :
    (actWarm esc rollback env s).bcp = Bcp.cold ∧ (actWarm esc rollback env s).glb.deferred = none ∧
    (actWarm esc rollback env s).glb.ctrlTicks = [] ∧ (actWarm esc rollback env s).brim = s.brim := by
  unfold actWarm
  extract_lets esced g s1
  have bcp : s1.bcp = Bcp.cold := (startUp_bcp ..).trans (coldWarm_bcp _)
  have brim : s1.brim = s.brim := (startUp_warm_brim ..).trans (coldWarm_brim _)
  have last : lasting s1 = (s.glb.powered, s.glb.resetHeld, none, []) := (startUp_running ..).1.trans (lasting_coldWarm _)
  have failed (n : Nat) : Within [.glb, .lp, .rsp, .nts] s1 (enterFailed s1 n) :=
    (within_enterFailed (by decide) n).2 .refl
  clear_value s1
  split
  · have last' := (lasting_enterFailed s1 3).trans last
    exact ⟨Eq.trans (failed 3 .bcp (by decide)) bcp, congrArg (·.2.2.1) last', congrArg (·.2.2.2) last',
      Eq.trans (failed 3 .brim (by decide)) brim⟩
  · exact ⟨bcp, congrArg (·.2.2.1) last, congrArg (·.2.2.2) last, brim⟩

theorem requestWarm_acts (idle : s.loam.cur = none) (esc rollback : Bool) (env : StartEnv) :
    requestWarm esc rollback env s = actWarm esc rollback env (gaspFirst (causeBit s (if esc then 4 else 3))) := by
  unfold requestWarm
  extract_lets s1
  have loam : s1.loam = s.loam := gaspFirst_causeBit s _ .loam (by decide)
  exact if_neg (by simp [loam, idle])

theorem chipWarm_act (calm : resetRuns s = false) (idle : s.loam.cur = none) :
    (Gives (.chip env) s fun t => t.bcp = Bcp.cold ∧ t.glb.deferred = none) ∧
    (Gives (.warm env) s fun t => t.bcp = Bcp.cold ∧ t.glb.deferred = none ∧ t.brim.members = s.brim.members) := by
  have loam : (gaspFirst (causeBit s 2)).loam = s.loam := gaspFirst_causeBit s 2 .loam (by decide)
  have chip : exec (.chip env) s = .next (actChip env (gaspFirst (causeBit s 2))) :=
    congrArg Host.Outcome.next ((if_neg (by simp [calm])).trans (if_neg (by simp [loam, idle])))
  have warm : exec (.warm env) s = .next (actWarm false false env (gaspFirst (causeBit s 3))) :=
    congrArg Host.Outcome.next ((if_neg (by simp [calm])).trans (requestWarm_acts idle false false env))
  obtain ⟨bcp, deferred, -, brim⟩ := actWarm_cold false false env (gaspFirst (causeBit s 3))
  exact ⟨⟨_, chip, actChip_cold ..⟩, ⟨_, warm, bcp, deferred,
    congrArg Brim.members (brim.trans (gaspFirst_causeBit s 3 .brim (by decide)))⟩⟩

theorem chipWarm_wait (calm : resetRuns s = false) (busy : s.loam.cur.isSome = true) :
    (Gives (.chip env) s fun t => t.glb.deferred = some .chip ∧ t.loam = s.loam ∧ flag (rd t 0x10) 2 = true) ∧
    (s.glb.deferred = none →
      Gives (.warm env) s fun t =>
        t.glb.deferred = some (.warm false false) ∧ t.loam = s.loam ∧ flag (rd t 0x10) 3 = true) ∧
    exec (.deferredResetAct env) s = .next s := by
  have loam (i : Nat) : (gaspFirst (causeBit s i)).loam = s.loam := gaspFirst_causeBit s i .loam (by decide)
  have glb : (gaspFirst (causeBit s 3)).glb = s.glb := gaspFirst_causeBit s 3 .glb (by decide)
  have waits (i : Nat) : (gaspFirst (causeBit s i)).loam.cur.isSome = true := by rw [loam, busy]
  refine ⟨⟨_, congrArg Host.Outcome.next ((if_neg (by simp [calm])).trans (if_pos (waits 2))), rfl, loam 2,
    flag_gaspFirst_causeBit s (by decide)⟩, fun free => ⟨_, congrArg Host.Outcome.next ((if_neg (by simp [calm])).trans
      (if_pos (waits 3))), ?_, loam 3, flag_gaspFirst_causeBit s (by decide)⟩, congrArg Host.Outcome.next (if_pos busy)⟩
  show some (mergeDeferred (gaspFirst (causeBit s 3)).glb.deferred false false) = _
  rw [glb, free]
  rfl

/-! ## The control cluster -/

/-- The control cluster has been asked to restart. -/
def ctrlAsked (s : State) : State :=
  ctrlRestarts { s with glb := { s.glb with ctrlTicks := Machine.within s.tb.ticks oneMin s.glb.ctrlTicks ++ [s.tb.ticks] } }

theorem ctrlRestart_split (env : StartEnv) (s : State) : ctrlRestart env s =
    if 3 ≤ (Machine.within s.tb.ticks oneMin s.glb.ctrlTicks ++ [s.tb.ticks]).length then
      requestWarm true false env { ctrlAsked s with glb := { (ctrlAsked s).glb with ctrlTicks := [] } }
    else ctrlBack (ctrlAsked s) := rfl

theorem ctrlAsked_keeps (s : State) : (ctrlAsked s).bcp = s.bcp ∧ (ctrlAsked s).loam = s.loam ∧
    (ctrlAsked s).glb.ctrlTicks = Machine.within s.tb.ticks oneMin s.glb.ctrlTicks ++ [s.tb.ticks] ∧
    rd (ctrlAsked s) 0x10 = rd s 0x10 := by
  unfold ctrlAsked ctrlRestarts
  refine ⟨raiseN_bcp .., raiseN_loam .., ?_, rd_raiseN _ _ _ _ (by decide)⟩
  rw [raiseN_glb]

theorem ctrlBack_keeps (s : State) : (ctrlBack s).bcp = s.bcp ∧ (ctrlBack s).glb.ctrlTicks = s.glb.ctrlTicks ∧
    rd (ctrlBack s) 0x10 = rd s 0x10 := by
  refine ⟨(within_ctrlBack (ps := [.glb]) (by decide)).2 .refl .bcp (by decide), ?_,
    ctrlBack_kept (fun _ => false) s 0x10 (by decide) rfl⟩
  unfold ctrlBack
  split
  · rfl
  · extract_lets g s1
    have glb : s1.glb = { s.glb with ctrlUntil := 0 } := raiseN_glb ..
    have flushed (l : List Nat) : (l.foldl (fun t k =>
        flushCompl (ringOf t (128 + k)).compl.length t (128 + k)) s1).glb = s1.glb :=
      (within_foldl (ps := []) (f := fun t k => flushCompl (ringOf t (128 + k)).compl.length t (128 + k))
        (fun _ _ => by simp) l).2 .refl .glb (by decide)
    rw [flushed, glb]

theorem ctrlRestart_recovers {i : Nat} (bit : i < 32) (rare : (Machine.within s.tb.ticks oneMin s.glb.ctrlTicks).length < 2)
    (env : StartEnv) :
    (ctrlRestart env (causeBit s i)).glb.ctrlTicks = Machine.within s.tb.ticks oneMin s.glb.ctrlTicks ++ [s.tb.ticks] ∧
    flag (rd (ctrlRestart env (causeBit s i)) 0x10) i = true ∧ (ctrlRestart env (causeBit s i)).bcp = s.bcp := by
  obtain ⟨bcp, -, ticks, cause⟩ := ctrlAsked_keeps (causeBit s i)
  obtain ⟨bcp', ticks', cause'⟩ := ctrlBack_keeps (ctrlAsked (causeBit s i))
  have few : ¬3 ≤ (Machine.within (causeBit s i).tb.ticks oneMin (causeBit s i).glb.ctrlTicks ++
      [(causeBit s i).tb.ticks]).length := by
    rw [List.length_append]
    exact Nat.not_le.mpr (Nat.succ_lt_succ rare)
  rw [ctrlRestart_split, if_neg few, ticks', cause', cause, bcp', bcp]
  exact ⟨ticks, flag_causeBit s bit, rfl⟩

theorem ctrlRestart_escalates (often : 2 ≤ (Machine.within s.tb.ticks oneMin s.glb.ctrlTicks).length)
    (idle : s.loam.cur = none) (calm : resetRuns s = false) :
    Gives (.ctrl env) s fun t => t.bcp = Bcp.cold ∧ t.glb.ctrlTicks = [] := by
  obtain ⟨-, loam, -, -⟩ := ctrlAsked_keeps (causeBit s 5)
  have many : 3 ≤ (Machine.within (causeBit s 5).tb.ticks oneMin (causeBit s 5).glb.ctrlTicks ++
      [(causeBit s 5).tb.ticks]).length := by
    rw [List.length_append]
    exact Nat.succ_le_succ often
  have free : ({ ctrlAsked (causeBit s 5) with glb := { (ctrlAsked (causeBit s 5)).glb with ctrlTicks := [] } } :
      State).loam.cur = none := (congrArg Loam.cur loam).trans idle
  have goes := (ctrlRestart_split env (causeBit s 5)).trans ((if_pos many).trans (requestWarm_acts free true false env))
  refine ⟨_, congrArg Host.Outcome.next ((if_neg (by simp [calm])).trans goes), ?_⟩
  obtain ⟨bcp, -, ticks, -⟩ := actWarm_cold true false env (gaspFirst (causeBit
    { ctrlAsked (causeBit s 5) with glb := { (ctrlAsked (causeBit s 5)).glb with ctrlTicks := [] } } 4))
  exact ⟨bcp, ticks⟩

/-! ## PKE and PERST -/

/-- The registers of PKE. -/
def pkeReg (a : Nat) : Bool := decide (0xF00000 ≤ a ∧ a < 0x1000000)

/-- PKE and its registers at their Cold values. -/
def pkeCold (s : State) : State := { dropRegs s pkeReg with pke := Pke.cold }

theorem rd_pkeCold (s : State) (a : Nat) : rd (pkeCold s) a = if pkeReg a then coldWord a else rd s a :=
  rd_dropRegs s pkeReg a

theorem exec_pke (s : State) : exec .pke s = .next (causeBit (pkeCold s) 7) := rfl

theorem pkeReset_clears (s : State) : Gives .pke s fun t =>
    t.pke = Pke.cold ∧ flag (rd t 0x10) 7 = true ∧
    (∀ a, 0xF00000 ≤ a → a < 0x1000000 → rd t a = coldWord a) ∧
    (∀ a, a ≠ 0x10 → (a < 0xF00000 ∨ 0x1000000 ≤ a) → rd t a = rd s a) := by
  refine ⟨_, exec_pke s, rfl, flag_causeBit _ (by decide), fun a low high => ?_, fun a noCause apart => ?_⟩
  · unfold causeBit
    rw [rd_orReg_ne _ _ (by omega), rd_pkeCold]
    exact if_pos (decide_eq_true ⟨low, high⟩)
  · have out : pkeReg a = false := decide_eq_false (by omega)
    unfold causeBit
    rw [rd_orReg_ne _ _ noCause, rd_pkeCold, out]
    exact if_neg (by decide)

theorem ringErrorEnd_keeps (s : State) : (ringErrorEnd s).hif = s.hif ∧ (ringErrorEnd s).regs = s.regs := by
  unfold ringErrorEnd
  split
  · exact ⟨rfl, rfl⟩
  · exact ⟨by rw [alarmClear_evt], alarmClear_regs ..⟩

/-- The registers of the host interface. -/
def hostReg (a : Nat) : Bool := decide (0xE00000 ≤ a ∧ a < 0xF00000)

/-- The host's registers are gone, with the rings. -/
def perstDropped (s : State) : State := dropRegs (clearMsix (resetRings s)) hostReg

/-- The link is down, at its Cold values. -/
def linkCold (s : State) : State :=
  { s with hif := { Hif.cold with userSeq := s.hif.userSeq, rings := s.hif.rings, vecs := s.hif.vecs } }

theorem exec_perst (s : State) :
    exec .perst s = .next (causeBit (ringErrorEnd (linkCold (perstDropped s))) 8) := rfl

theorem perst_clears (s : State) : Gives .perst s fun t =>
    t.hif.rings = [] ∧ t.hif.linkUp = false ∧ flag (rd t 0x10) 8 = true ∧
    (∀ a, 0xE00000 ≤ a → a < 0xF00000 → rd t a = coldWord a) := by
  obtain ⟨hif, regs⟩ := ringErrorEnd_keeps (linkCold (perstDropped s))
  refine ⟨_, exec_perst s, congrArg Hif.rings hif, congrArg Hif.linkUp hif, flag_causeBit _ (by decide),
    fun a low high => ?_⟩
  unfold causeBit
  rw [rd_orReg_ne _ _ (by omega), rd, regs]
  exact (rd_dropRegs _ hostReg a).trans (if_pos (decide_eq_true ⟨low, high⟩))

/-- Settles O55. Every reset goes through the Cold state of what it reaches; the start after it leaves the supplies, the
pin, the waiting request and the control cluster's restarts as they are. -/
theorem resetsReachTheirBlocks : Obligations.ResetsReachTheirBlocks := by
  unfold Obligations.ResetsReachTheirBlocks
  refine ⟨fun s env high => por_starts high, fun s env low => por_waits low, pin_holds,
    fun s env low powered => pinRelease_starts low powered, fun s env low off => pinRelease_unpowered low off,
    supplyLoss_clears, fun s env runs => ?absorbed, fun s env calm idle => chipWarm_act calm idle,
    fun s env calm busy => chipWarm_wait calm busy, fun s env idle chip => ?deferred,
    fun s env calm rare => ?ctrl, fun s env calm often idle => ctrlRestart_escalates often idle calm, pkeReset_clears,
    perst_clears⟩
  case absorbed =>
    exact ⟨congrArg Host.Outcome.next (if_pos runs), congrArg Host.Outcome.next (if_pos runs),
      congrArg Host.Outcome.next (if_pos runs), congrArg Host.Outcome.next (if_pos runs)⟩
  case deferred =>
    have goes : exec (.deferredResetAct env) s = .next (actChip env s) := by
      refine congrArg Host.Outcome.next ((if_neg (by simp [idle])).trans ?_)
      rw [chip]
    exact ⟨_, goes, actChip_cold env s⟩
  case ctrl =>
    exact ⟨⟨_, congrArg Host.Outcome.next (if_neg (by simp [calm])), ctrlRestart_recovers (by decide) rare env⟩,
      ⟨_, congrArg Host.Outcome.next (if_neg (by simp [calm])), ctrlRestart_recovers (by decide) rare env⟩⟩

end Sys2Proof.Machine
end

section
/-! SUPPORT. O46: a mirrored setting never takes the unit's own fields, whatever it brings about (R420). -/

namespace Sys2Proof.Machine

variable {s t u : State} {own : Nat → Bool}

/-! ## Ports -/

/-- The counters of frames that a port discards may change. -/
structure PortOwn (own : Nat → Bool) (j : Nat) : Prop where
  replies : own (lpCnt j + 0x34) = true
  sched : own (lpCnt j + 0x38) = true

theorem flushItem_kept (s : State) {j : Nat} (i : TxItem) (h : PortOwn own j) : RegsKept own s (flushItem s j i) := by
  unfold flushItem
  split
  · exact (RegsKept.bump s _ 1 (.inr h.replies)).trans (.of_regs (finishItem_regs ..))
  · exact .bump s _ 1 (.inr h.replies)
  · exact .bump s _ 1 (.inr h.sched)
  · exact .refl own s
  · exact .refl own s

theorem flushPort_kept (s : State) {j : Nat} (h : PortOwn own j) : RegsKept own s (flushPort s j) := by
  unfold flushPort
  extract_lets q p
  exact .trans (.of_regs (t := setPort s j p) rfl) (.foldl (fun u i => flushItem_kept u i h) q _)

theorem takeDown_kept (s : State) {j : Nat} (h : PortOwn own j) : RegsKept own s (takeDown s j) := by
  unfold takeDown
  extract_lets s1
  have down : RegsKept own s s1 := .of_plainRegs (plainRegs_linkDown ..)
  exact RegsKept.trans (.ite (down.raiseN _ _ _) down) (flushPort_kept _ h)

theorem startTraining_regs (s : State) (j : Nat) : (startTraining s j).regs = s.regs := rfl

theorem retrain_kept (s : State) {j : Nat} (h : PortOwn own j) : RegsKept own s (retrain s j) :=
  ((takeDown_kept s h).trans (.of_regs (startTraining_regs _ j))).raiseN _ _ _

theorem modeChanged_kept (s t : State) {n : Nat} (h : ∀ k < 4, PortOwn own (4 * n + k)) :
    RegsKept own t (modeChanged s t n) := by
  refine List.foldlRecOn (motive := fun u => RegsKept own t u) _ retrain (.refl own t) fun u kept j mem => kept.trans ?_
  obtain ⟨k, few, rfl⟩ := List.mem_map.mp (List.mem_filter.mp mem).1
  exact retrain_kept u (h k (List.mem_range.mp few))

theorem mirroredPort_kept (s t : State) {j : Nat} (h : PortOwn own j) : RegsKept own t (mirroredPort s t j) := by
  have disabled : RegsKept own t (portDisabled t j) := (takeDown_kept t h).trans (.of_regs rfl)
  have changed : RegsKept own t (cfgChanged s t j) := .ite (retrain_kept t h) (.refl own t)
  exact .ite (.of_regs (startTraining_regs t j)) (.ite disabled changed)

/-! ## Policies and triggers -/

theorem mirroredPolicy_kept (s t : State) {k : Nat} (h : own (polA k) = true) : RegsKept own t (mirroredPolicy s t k) :=
  .ite ((RegsKept.wrf t 0 1 0 h).raiseN 259 k [k]) (.ite (.refl own t) (.of_regs rfl))

/-- The registers of a trigger output may change. -/
def TriggerOwn (own : Nat → Bool) (n : Nat) : Prop := ∀ o ≤ 0x24, own (ttOutA n + o) = true

theorem ttRecord_kept (s : State) (n typ : Nat) (t16 : Int) : RegsKept own s (ttRecord s n typ t16) := by
  have ring : 168 + rf s (ttOutA n) 5 3 < 256 := by
    have := fld_lt (rd s (ttOutA n)) 5 3
    unfold rf
    omega
  unfold ttRecord
  extract_lets x r edge body seq s1 s2
  split
  · exact .trans (.of_regs (t := setTtOut s n { x with seq := seq, dropped := 0 }) rfl) (writeRecord_kept own _ ring body)
  · have noted : RegsKept own s s1 := .of_regs rfl
    have full : RegsKept own s s2 := .ite (noted.trans (.bump s1 _ 1 (.inl (ringDrops_event ring)))) noted
    exact full.raiseLim _ _ _ _

theorem ttSkip_kept (s : State) {n : Nat} (t16 : Int) (h : TriggerOwn own n) : RegsKept own s (ttSkip s n t16) :=
  ((RegsKept.orReg s 4 (h 0x24 (by decide))).raiseLim 145 n n [n]).trans (ttRecord_kept _ n 3 t16)

theorem ttCfgErr_kept (s : State) {n : Nat} (h : TriggerOwn own n) : RegsKept own s (ttCfgErr s n) :=
  (RegsKept.orReg s 8 (h 0x24 (by decide))).raiseN 146 n [n]

theorem ttBegin_kept (s : State) {n : Nat} (h : TriggerOwn own n) : RegsKept own s (ttBegin s n) := by
  unfold ttBegin
  extract_lets start per soon o s1 first s2 k cand nxt
  have begun : RegsKept own s s1 := .of_regs rfl
  refine .ite begun (.ite ?_ ?_)
  · have late : RegsKept own s s2 :=
      RegsKept.raiseN (begun.trans (RegsKept.trans (.of_regs (t := ttFinish s1 n) rfl) (.orReg _ 2 (h 0x24 (by decide))))) 144 n [n]
    exact late.trans (ttRecord_kept s2 n 3 first)
  · exact begun.trans (RegsKept.trans (.of_regs (t := setTtOut s1 n { ttOutOf s1 n with next := nxt }) rfl)
      (ttSkip_kept _ first h))

theorem ttApply_kept {n : Nat} (h : TriggerOwn own n) (ws : List (TtWord × Word)) (s : State) :
    RegsKept own s (ttApply n ws s) := by
  induction ws generalizing s with
  | nil => exact .refl own s
  | cons w ws ih =>
    have word : own (ttWordA n w.1) = true := by
      cases w.1 with
      | startNs | startSec | startHi | periodNs | periodFns | width | count | delay => exact h _ (by decide)
    exact (RegsKept.storeMask s full w.2 word).trans (ih _)

/-- An output whose CTL is written with EN takes up the words staged for its start. -/
def ttStaged (s : State) (n : Fin 16) (ctl : Word) : State :=
  ttApply n ((ttOutOf s n).startKept.filter fun w => isStartWord w.1) (storeMask s (ttOutA n) 0xFE ctl)

/-- A schedule that cannot run leaves nothing staged. -/
def ttRefused (s : State) (n : Nat) : State := setTtOut s n { ttOutOf s n with startKept := [], staged := [] }

theorem execTtOutEnable_split (s : State) (n : Fin 16) (ctl : Word) : execTtOutEnable n ctl s = .next (
    if rb s (ttOutA n) 0 then storeMask s (ttOutA n) 0xFE ctl
    else if ttBad (ttStaged s n ctl) n then ttCfgErr (ttRefused (ttStaged s n ctl) n) n
    else ttBegin (wrf (ttStaged s n ctl) (ttOutA n) 0 1 1) n) := rfl

theorem ttOutEnable_kept (s : State) {n : Fin 16} (ctl : Word) (h : TriggerOwn own n) :
    RegsKept own s (outcomeState s (execTtOutEnable n ctl s)) := by
  have base : own (ttOutA n) = true := h 0 (by decide)
  have stored : RegsKept own s (storeMask s (ttOutA n) 0xFE ctl) := .storeMask s _ _ base
  have applied : RegsKept own s (ttStaged s n ctl) := stored.trans (ttApply_kept h _ _)
  have begun : RegsKept own s (ttBegin (wrf (ttStaged s n ctl) (ttOutA n) 0 1 1) n) :=
    (applied.trans (.wrf _ 0 1 1 base)).trans (ttBegin_kept _ h)
  have emptied : RegsKept own (ttStaged s n ctl) (ttRefused (ttStaged s n ctl) n) := .of_regs rfl
  have bad : RegsKept own s (ttCfgErr (ttRefused (ttStaged s n ctl) n) n) :=
    (applied.trans emptied).trans (ttCfgErr_kept _ h)
  rw [execTtOutEnable_split]
  exact RegsKept.ite stored (.ite bad begun)

theorem mirroredTrigger_kept (s t : State) {a : Nat} (here : own a = true) (h : ∀ n < 16, TriggerOwn own n) :
    RegsKept own t (mirroredTrigger s t a) := by
  unfold mirroredTrigger
  split
  next few =>
    have off : RegsKept own t (wrf t a 0 1 0) := .wrf t 0 1 0 here
    have on : RegsKept own t
        (outcomeState t (execTtOutEnable ⟨(a - 0x600000) / 0x40, few⟩ (rd t a) (wrf t a 0 1 0))) :=
      off.trans (ttOutEnable_kept (wrf t a 0 1 0) (n := ⟨(a - 0x600000) / 0x40, few⟩) (rd t a) (h _ few))
    exact .ite on (.ite (.of_regs rfl) (.refl own t))
  · exact .refl own t

end Sys2Proof.Machine
end

section
/-! SUPPORT. O46: mirrored records, their commits and acknowledgements (R266, R420, R421). -/

namespace Sys2Proof.Machine

variable {s t u : State} {own : Nat → Bool}

/-! ## What a mirrored setting brings about -/

theorem unifiedReq_kept (s : State) (h : SettingsOwn own) (core : own 0x100000 = true) :
    RegsKept own s (outcomeState s (execUnifiedReq s)) := by
  have asked : RegsKept own s (unifiedAsked s) := .wrf s 2 1 1 core
  have changed : RegsKept own s (holdsChange (changeMode (unifiedAsked s) true)) :=
    (asked.trans fun a plain _ => (changeMode_changed (unifiedAsked s) true).reg a plain).trans (holdsChange_kept _ h.lost)
  have refused : RegsKept own s
      ([Domain.core, .pke, .ctrl, .tbclk].foldl (fun t d => switchTo t .root d) (unifiedAsked s)) :=
    asked.trans fun a plain _ => (Reclocked.foldl (fun t d => switchTo_reclocked t .root d) _ (unifiedAsked s)).reg a plain
  have split_ : execUnifiedReq s = .next (
      if (unifiedAsked s).clk.unified then unifiedAsked s
      else if (unifiedAsked s).clk.loin then holdsChange (changeMode (unifiedAsked s) true)
      else [Domain.core, .pke, .ctrl, .tbclk].foldl (fun t d => switchTo t .root d) (unifiedAsked s)) := rfl
  rw [split_]
  exact RegsKept.ite asked (.ite changed refused)

/-- The registers that mirrored settings move behind them may change. -/
structure MirrorOwn (own : Nat → Bool) : Prop extends SettingsOwn own where
  core : own 0x100000 = true
  ports : ∀ j < 16, PortOwn own j
  policies : ∀ k < 64, own (polA k) = true
  triggers : ∀ n < 16, TriggerOwn own n
  triggerCtl : ∀ a, ttCtlAt a = true → own a = true
  limits : ∀ a, lpXonAt a = true ∨ denyCtlAt a = true → own a = true

theorem mirrorEffect_kept (s t : State) (a : Nat) (h : MirrorOwn own) : RegsKept own t (mirrorEffect s t a) := by
  unfold mirrorEffect
  split
  next n mode =>
    have few : n < 4 := List.mem_range.mp (List.mem_of_find?_eq_some mode)
    exact modeChanged_kept s t fun k small => h.ports _ (by omega)
  next j cfg _ => exact mirroredPort_kept s t (h.ports j (List.mem_range.mp (List.mem_of_find?_eq_some cfg)))
  next k pol _ _ =>
    have few : k < 64 := by
      unfold polAt at pol
      split at pol
      · cases pol
        omega
      · cases pol
    exact mirroredPolicy_kept s t (h.policies k few)
  · split
    next trigger => exact mirroredTrigger_kept s t (h.triggerCtl a trigger) h.triggers
    · refine .ite (.of_regs rfl) (.ite ?_ (afterWrite_kept s t h.toSettingsOwn (h.limits a)))
      exact (unifiedReq_kept t h.toSettingsOwn h.core).trans (holdsChange_kept _ h.lost)

/-! ## The unit's own fields (R420) -/

/-- The registers that a mirrored record may move: all but the unit's own fields below the pair's registers, and the
trigger outputs, whose own delays lie among words that their schedules move. -/
def mirrorMoves (a : Nat) : Bool := !(ownField a && !decide (0x600000 ≤ a ∧ a < 0x600400) && decide (a < 0x1300000))

theorem mirrorMoves_iff {a : Nat} : mirrorMoves a = true ↔
    ownField a = false ∨ (0x600000 ≤ a ∧ a < 0x600400) ∨ 0x1300000 ≤ a := by
  simp only [mirrorMoves, Bool.not_eq_true', Bool.and_eq_false_iff, Bool.not_eq_false', decide_eq_true_eq,
    decide_eq_false_iff_not, Nat.not_lt]
  tauto

theorem ownField_eq_false_iff {a : Nat} : ownField a = false ↔
    ¬(0xA00000 ≤ a ∧ a < 0xA00400 ∧ ((a - 0xA00000) % 0x40 = 4 ∨ (a - 0xA00000) % 0x40 = 8)) ∧
    ¬(0x400040 ≤ a ∧ a < 0x400100 ∧ ((a - 0x400040) % 0x20 = 4 ∨ (a - 0x400040) % 0x20 = 8)) ∧
    ¬(0x800000 ≤ a ∧ a < 0x900000 ∧ a % 0x40000 = 8) ∧ ¬(0x500064 ≤ a ∧ a ≤ 0x50006C) ∧
    ¬(0x600000 ≤ a ∧ a < 0x600400 ∧ a % 0x40 = 0x20) ∧ ¬(0x600400 ≤ a ∧ a < 0x600600 ∧ a % 0x20 = 4) ∧
    ¬(0x1200000 ≤ a ∧ a < 0x1400000) := by
  simp only [ownField, Bool.or_eq_false_iff, decide_eq_false_iff_not]
  tauto

theorem mirrorMoves_own : MirrorOwn mirrorMoves where
  lost := by decide
  count := by decide
  gnss := by decide
  mg := by decide
  core := by decide
  replies j few := by
    rw [mirrorMoves_iff, ownField_eq_false_iff]
    unfold lpCnt lpBase
    omega
  ports j few := by
    constructor
    · rw [mirrorMoves_iff, ownField_eq_false_iff]
      unfold lpCnt lpBase
      omega
    · rw [mirrorMoves_iff, ownField_eq_false_iff]
      unfold lpCnt lpBase
      omega
  policies k few := by
    rw [mirrorMoves_iff, ownField_eq_false_iff]
    unfold polA
    omega
  triggers n few o small := by
    rw [mirrorMoves_iff]
    unfold ttOutA
    omega
  triggerCtl a trigger := by
    simp only [ttCtlAt, Bool.and_eq_true, decide_eq_true_eq] at trigger
    rw [mirrorMoves_iff]
    omega
  limits a limited := by
    simp only [lpXonAt, denyCtlAt, Bool.and_eq_true, decide_eq_true_eq] at limited
    rw [mirrorMoves_iff, ownField_eq_false_iff]
    omega

/-! ## A mirrored CFG segment in force -/

/-- A register that a mirrored CFG segment holds. -/
def mirrorsReg (seg a : Nat) : Bool := !ownField a && decide (loamMask a ≠ 0) && decide (segOfReg a = segKey clsCfg seg)

theorem mirrorsReg_not_own {seg a : Nat} (own : ownField a = true) : mirrorsReg seg a = false := by
  simp [mirrorsReg, own]

/-- Every mirrored field of the segment goes to its default. -/
def defaulted (s : State) (seg : Nat) : State :=
  (s.regs.filter fun e => mirrorsReg seg e.1).foldl (fun t e => setL t e.1 (coldWord e.1)) s

theorem applyCfg_split (s : State) (seg : Nat) (ws : List (Nat × Word)) : applyCfg s seg ws =
    (ws.filter fun e => mirrorsReg seg e.1).foldl (fun t e => setL t e.1 e.2) (defaulted s seg) := rfl

theorem rd_setL_ne (s : State) {a b : Nat} (v : Word) (other : b ≠ a) : rd (setL s a v) b = rd s b := rd_wr_ne s _ other

theorem rd_setLs_apart {p : Nat → Bool} {a : Nat} (out : p a = false) (v : Nat × Word → Word) (l : List (Nat × Word))
    (s : State) : rd ((l.filter fun e => p e.1).foldl (fun t e => setL t e.1 (v e)) s) a = rd s a := by
  refine List.foldlRecOn (motive := fun t : State => rd t a = rd s a) _ _ rfl fun t same e mem => ?_
  refine (rd_setL_ne t _ fun here => ?_).trans same
  have listed : p e.1 = true := (List.mem_filter.mp mem).2
  rw [← here, out] at listed
  exact absurd listed (by decide)

theorem applyCfg_own (s : State) (seg : Nat) {a : Nat} (ws : List (Nat × Word)) (own : ownField a = true) :
    rd (applyCfg s seg ws) a = rd s a := by
  have out : mirrorsReg seg a = false := mirrorsReg_not_own own
  rw [applyCfg_split, rd_setLs_apart out (fun e => e.2)]
  exact rd_setLs_apart out (fun e => coldWord e.1) s.regs s

theorem setL_masked (s : State) (a : Nat) (v : Word) : rd (setL s a v) a &&& loamMask a = v &&& loamMask a := by
  unfold setL
  rw [rd_wr_same]
  refine BitVec.eq_of_getLsbD_eq fun i _ => ?_
  cases bit : (loamMask a).getLsbD i with
  | true => simp [bit]
  | false => simp [bit]

/-- After the listed registers have gone to their defaults, each of them holds its own. -/
theorem setLs_defaulted {a : Nat} (l : List (Nat × Word)) : ∀ {s : State},
    (rd s a &&& loamMask a = coldWord a &&& loamMask a) ∨ (∃ e ∈ l, e.1 = a) →
    rd (l.foldl (fun t e => setL t e.1 (coldWord e.1)) s) a &&& loamMask a = coldWord a &&& loamMask a := by
  induction l with
  | nil =>
    intro s reached
    obtain done_ | ⟨e, mem, -⟩ := reached
    · exact done_
    · exact absurd mem List.not_mem_nil
  | cons e l ih =>
    intro s reached
    refine ih ?_
    beta_reduce
    by_cases here : a = e.1
    · rw [← here]
      exact .inl (setL_masked ..)
    · rw [rd_setL_ne s _ here]
      refine reached.imp_right fun ⟨f, mem, found⟩ => ⟨f, (List.mem_cons.mp mem).resolve_left fun same => ?_, found⟩
      exact here (by rw [← found, same])

theorem tget_of_not_mem {α : Type} (d : Nat → α) {k : Nat} : ∀ {t : Tab α}, (∀ e ∈ t, e.1 ≠ k) → tget d t k = d k
  | [], _ => rfl
  | e :: t, apart => by
    rw [tget, if_neg (Ne.symm (apart e List.mem_cons_self))]
    exact tget_of_not_mem d fun f mem => apart f (List.mem_cons_of_mem e mem)

theorem applyCfg_defaults {seg a : Nat} (mirrored : mirrorsReg seg a = true) :
    rd (applyCfg s seg []) a &&& loamMask a = coldWord a &&& loamMask a := by
  rw [applyCfg_split]
  refine setLs_defaulted _ ?_
  by_cases listed : ∃ e ∈ s.regs, e.1 = a
  · obtain ⟨e, mem, here⟩ := listed
    exact .inr ⟨e, List.mem_filter.mpr ⟨mem, by rwa [here]⟩, here⟩
  · refine .inl ?_
    rw [rd, tget_of_not_mem coldWord fun e mem here => listed ⟨e, mem, here⟩]

theorem takeMirroredCfg_kept (s : State) (seg : Nat) (ws : List (Nat × Word)) :
    RegsKept mirrorMoves s (takeMirroredCfg s seg ws) := by
  have applied : RegsKept mirrorMoves s (applyCfg s seg ws) := fun a _ out => by
    refine applyCfg_own s seg ws ?_
    by_contra no
    rw [mirrorMoves_iff.mpr (.inl (Bool.eq_false_iff.mpr no))] at out
    exact absurd out (by decide)
  exact applied.trans (.foldl (fun u a => mirrorEffect_kept s u a mirrorMoves_own) _ _)

/-! ## The commit of a mirrored record -/

theorem requestCommit_kept (s : State) (c : Commit) : RegsKept mirrorMoves s (requestCommit s c false).1 := by
  unfold requestCommit
  split
  · exact .bump s 0x1100048 1 (.inr (by decide))
  · split
    · exact .bump s 0x1100040 1 (.inr (by decide))
    · exact .of_regs rfl

theorem mitReadyCheck_kept (s : State) : RegsKept own s (mitReadyCheck s) := by
  unfold mitReadyCheck
  extract_lets ok
  have raised (m : Mit) : RegsKept own s (raiseN { s with mit := m } 352 0 []) := .raiseN (.of_regs rfl) 352 0 []
  exact RegsKept.ite ((raised { s.mit with st := .ready }).trans (.of_regs (alarmClear_regs _ 353)))
    (.ite (raised { s.mit with st := .standby }) (.refl own s))

theorem mirrorStale_kept (s : State) : RegsKept own s (mirrorStale s) :=
  RegsKept.trans (t := { s with nts := { s.nts with stale := true } }) (.of_regs rfl) (mitReadyCheck_kept _)

/-- The commit that a mirrored record asks for. -/
def mirroredCommit (n cls seg : Nat) (p : Option Payload) : Commit := { by_ := .mirror n, cls := cls, segs := [seg], payload := p }

theorem mirrorCommit_split (s : State) (n cls seg : Nat) (p : Option Payload) : mirrorCommit s n cls seg p =
    match requestCommit s (mirroredCommit n cls seg p) false with
    | (t, none) => t
    | (t, some _) => mirrorStale t := rfl

theorem mirrorCommit_kept (s : State) (n cls seg : Nat) (p : Option Payload) :
    RegsKept mirrorMoves s (mirrorCommit s n cls seg p) := by
  have asked := requestCommit_kept s (mirroredCommit n cls seg p)
  rw [mirrorCommit_split]
  rcases answered : requestCommit s (mirroredCommit n cls seg p) false with ⟨t, answer⟩
  rw [answered] at asked
  cases answer with
  | none => exact asked
  | some _ => exact asked.trans (mirrorStale_kept t)

theorem mirrorCommit_queued {n cls seg : Nat} {p : Option Payload} (powered : powerFailing s = false)
    (space : noSpace s cls = false) : mirrorCommit s n cls seg p =
      { s with loam := { s.loam with queue := s.loam.queue ++ [mirroredCommit n cls seg p] } } := by
  have asked : requestCommit s (mirroredCommit n cls seg p) false =
      ({ s with loam := { s.loam with queue := s.loam.queue ++ [mirroredCommit n cls seg p] } }, none) := by
    unfold requestCommit
    rw [if_neg (by rw [powered]; decide),
      if_neg (show ¬noSpace s (mirroredCommit n cls seg p).cls = true from by
        rw [show noSpace s (mirroredCommit n cls seg p).cls = false from space]
        decide)]
    rfl
  rw [mirrorCommit_split, asked]

theorem mirrorCommit_refused {n cls seg : Nat} {p : Option Payload}
    (no : powerFailing s = true ∨ noSpace s cls = true) :
    ∃ a, mirrorCommit s n cls seg p = mirrorStale (bump s a 1) := by
  have asked : ∃ a e, requestCommit s (mirroredCommit n cls seg p) false = (bump s a 1, some e) := by
    unfold requestCommit
    by_cases power : powerFailing s = true
    · exact ⟨_, _, if_pos power⟩
    · rw [if_neg power]
      exact ⟨_, _, if_pos (no.resolve_left power)⟩
  obtain ⟨a, e, refused⟩ := asked
  exact ⟨a, by rw [mirrorCommit_split, refused]⟩

theorem mitReadyCheck_nts (s : State) : (mitReadyCheck s).nts = s.nts :=
  (within_mitReadyCheck (ps := [.mit]) (by decide)).2 .refl .nts (by decide)

theorem mirrorStale_keeps (s : State) : (mirrorStale s).loam = s.loam ∧ (mirrorStale s).nts = { s.nts with stale := true } :=
  ⟨mitReadyCheck_loam _, mitReadyCheck_nts _⟩

/-! ## Receiving -/

theorem exec_mitMirrorReceive {rec : MirrorRec} {n : Nat} {tag : Bytes} (up : s.mit.linkUp = true)
    (standby : mitServes s = false) (sealed_ : mirrorSealed s rec n tag = true) :
    exec (.mitMirrorReceive rec n tag) s = .next (
      if rec.cls.val = clsCfg ∧ rec.seg.val < segCount clsCfg then
        refreshServing (mirrorCommit (takeMirroredCfg s rec.seg rec.words) n clsCfg rec.seg none)
      else if rec.cls.val = clsKeys ∧ rec.seg.val = 0 then
        mirrorCommit s n clsKeys 0 (some (.keys (mirrorSlots rec) rec.csig))
      else s) :=
  congrArg Host.Outcome.next (if_neg (by simp [up, standby, sealed_]))

theorem exec_mitMirrorReceive_refused {rec : MirrorRec} {n : Nat} {tag : Bytes}
    (no : s.mit.linkUp = false ∨ mitServes s = true ∨ mirrorSealed s rec n tag = false) :
    exec (.mitMirrorReceive rec n tag) s = .next s := congrArg Host.Outcome.next (if_pos no)

theorem exec_mitMirrorReceive_keys {rec : MirrorRec} {n : Nat} {tag : Bytes} (up : s.mit.linkUp = true)
    (standby : mitServes s = false) (sealed_ : mirrorSealed s rec n tag = true) (keys : rec.cls.val = clsKeys)
    (only : rec.seg.val = 0) : exec (.mitMirrorReceive rec n tag) s =
      .next (mirrorCommit s n clsKeys 0 (some (.keys (mirrorSlots rec) rec.csig))) := by
  rw [exec_mitMirrorReceive up standby sealed_, if_neg fun cfg => absurd (keys.symm.trans cfg.1) (by decide),
    if_pos ⟨keys, only⟩]

theorem mirrorReceive_keepsOwn (s : State) (rec : MirrorRec) (n : Nat) (tag : Bytes) :
    Gives (.mitMirrorReceive rec n tag) s fun t =>
      ∀ a, ownField a = true → ¬(0x600000 ≤ a ∧ a < 0x600400) → a < 0x1300000 → rd t a = rd s a := by
  have keeps {t : State} (kept : RegsKept mirrorMoves s t) :
      ∀ a, ownField a = true → ¬(0x600000 ≤ a ∧ a < 0x600400) → a < 0x1300000 → rd t a = rd s a := by
    intro a mine noTrigger below
    refine kept a ?_ (Bool.eq_false_iff.mpr fun moves => ?_)
    · simp only [eventReg, Bool.or_eq_false_iff, decide_eq_false_iff_not]
      have range : a < 0xE01000 ∨ 0x1200000 ≤ a := by
        by_contra inside
        exact absurd ((ownField_eq_false_iff (a := a)).mpr (by omega)) (by rw [mine]; decide)
      omega
    · obtain other | inside | above := mirrorMoves_iff.mp moves
      · rw [mine] at other
        exact absurd other (by decide)
      · exact noTrigger inside
      · omega
  by_cases no : s.mit.linkUp = false ∨ mitServes s = true ∨ mirrorSealed s rec n tag = false
  · exact ⟨s, exec_mitMirrorReceive_refused no, fun _ _ _ _ => rfl⟩
  · obtain ⟨up, standby, sealed_⟩ : s.mit.linkUp = true ∧ mitServes s = false ∧ mirrorSealed s rec n tag = true := by
      simpa [not_or] using no
    refine ⟨_, exec_mitMirrorReceive up standby sealed_, keeps (.ite ?_ (.ite ?_ (.refl _ s)))⟩
    · exact ((takeMirroredCfg_kept s _ _).trans (mirrorCommit_kept _ _ _ _ _)).trans (.of_plainRegs (plainRegs_refreshServing _))
    · exact mirrorCommit_kept _ _ _ _ _

/-! ## The commit's end -/

theorem refreshServing_slots (s : State) : (refreshServing s).nts.slots = s.nts.slots := by
  obtain ⟨_, nts⟩ := refreshServing_nts s
  rw [nts]

theorem noteMirrored_keys {c : Commit} {slots : Tab KeySlot} {key : Option Bytes} (payload : c.payload = some (.keys slots key))
    (segs : c.segs = [0]) (n : Nat) :
    (noteMirrored s c n).nts.slots = slots ∧ (noteMirrored s c n).loam.csig = s.loam.csig.or key ∧
    Out.mirrorAck c.cls 0 n ∈ told (noteMirrored s c n) := by
  unfold noteMirrored
  rw [payload, segs]
  dsimp -zeta only
  extract_lets held n0 l0 s0 s1 got all
  refine ⟨refreshServing_slots _, congrArg Loam.csig (refreshServing_loam _), ?_⟩
  · rw [told_refreshServing]
    show Out.mirrorAck c.cls 0 n ∈ told (emit s0 (.mirrorAck c.cls 0 n))
    rw [told_emit s0 rfl]
    exact List.mem_cons_self

theorem mirroredKeys_run {c : CurCommit} {n : Nat} {slots : Tab KeySlot} {key : Option Bytes} (cur : s.loam.cur = some c)
    (last : c.rest = []) (kept : s.loam.evicted.contains c.req.cls = false) (by_ : c.req.by_ = .mirror n)
    (payload : c.req.payload = some (.keys slots key)) (segs : c.req.segs = [0]) :
    Gives (.loamSegmentDone { copy1 := cleanProg, copy2 := cleanProg, copy3 := cleanProg, sysFail := none }) s fun t =>
      t.nts.slots = slots ∧ t.loam.csig = s.loam.csig.or key ∧ Out.mirrorAck c.req.cls 0 n ∈ t.out := by
  obtain ⟨copies, pgm, goes⟩ := execLoamSegmentDone_last cur last kept
  have done_ : commitDone (commitEffect (lastProgrammed s c copies pgm) c.req) c.req stOk 0 (c.written + 1) c.gen =
      mitReadyCheck (noteMirrored (lastProgrammed s c copies pgm) c.req n) := by
    unfold commitDone commitEffect
    rw [by_]
    exact if_pos rfl
  obtain ⟨run, csig, acked⟩ := noteMirrored_keys (s := lastProgrammed s c copies pgm) payload segs n
  refine ⟨_, goes, ?_⟩
  beta_reduce
  rw [done_, mitReadyCheck_nts, mitReadyCheck_loam, run, csig, lastProgrammed_loam]
  refine ⟨rfl, rfl, mem_out_of_told ?_⟩
  rw [told_mitReadyCheck]
  exact acked

/-! ## Acknowledgements (R266, R267) -/

/-- The acknowledged record is off the list, and the mirror current where it was that of the current KEYS. -/
def mirrorAcked (s : State) (n : Nat) (e : MirrorOut) : State :=
  let s1 := setMit s { s.mit with toMirror := s.mit.toMirror.filter fun x => decide (x.serial ≠ n) }
  if e.cls = clsKeys ∧ n = s.mit.keysSerial then { s1 with nts := { s1.nts with stale := false } } else s1

/-- The record on the list that an acknowledgement names. -/
def ackedRec (s : State) (sid : SegId) (n : Nat) : Option MirrorOut :=
  s.mit.toMirror.find? fun x => decide (x.serial = n ∧ x.cls = sid.cls.val ∧ x.seg = sid.seg.val)

theorem exec_mitMirrorAck {sid : SegId} {n : Nat} {e : MirrorOut} (found : ackedRec s sid n = some e) :
    exec (.mitMirrorAck sid n) s = .next (
      if s.nts.phase = .mirror ∧ n = s.nts.waitSerial then ended (takeCommitted (mirrorAcked s n e)) else mirrorAcked s n e) := by
  have match_ : exec (.mitMirrorAck sid n) s = .next (match ackedRec s sid n with
      | none => s
      | some e => if s.nts.phase = .mirror ∧ n = s.nts.waitSerial then ended (takeCommitted (mirrorAcked s n e))
        else mirrorAcked s n e) := rfl
  rw [match_, found]

theorem mirrorAcked_keeps (s : State) (n : Nat) (e : MirrorOut) :
    (mirrorAcked s n e).mit.toMirror = (s.mit.toMirror.filter fun x => decide (x.serial ≠ n)) ∧
    (mirrorAcked s n e).nts.slots = s.nts.slots ∧ (mirrorAcked s n e).nts.committed = s.nts.committed ∧
    (mirrorAcked s n e).nts.held = s.nts.held ∧
    (mirrorAcked s n e).nts.stale = (s.nts.stale && !(decide (e.cls = clsKeys) && decide (n = s.mit.keysSerial))) := by
  unfold mirrorAcked
  extract_lets m s1 n1
  by_cases current : e.cls = clsKeys ∧ n = s.mit.keysSerial
  · rw [if_pos current, decide_eq_true current.1, decide_eq_true current.2]
    exact ⟨rfl, rfl, rfl, rfl, (Bool.and_false _).symm⟩
  · rw [if_neg current, ← Bool.decide_and, decide_eq_false current]
    exact ⟨rfl, rfl, rfl, rfl, (Bool.and_true _).symm⟩

/-- Settles O46. What a mirrored record brings about is bounded once by the registers that it may move; its commit, its end
and its acknowledgement each act in one place. -/
theorem mittenMirrors : Obligations.MittenMirrors := by
  unfold Obligations.MittenMirrors
  refine ⟨?queued, ?refused, fun s rec n tag no => exec_mitMirrorReceive_refused no, mirrorReceive_keepsOwn,
    fun s seg a ws mine => applyCfg_own s seg ws mine, fun s seg a theirs masked here => ?defaults,
    fun s c n slots key cur last kept by_ payload segs => mirroredKeys_run cur last kept by_ payload segs, ?acked, ?switches,
    fun s sid n none_ => ?unknown⟩
  case queued =>
    intro s rec n tag up standby sealed_ keys only powered space
    refine ⟨_, exec_mitMirrorReceive_keys up standby sealed_ keys only, ?_⟩
    rw [mirrorCommit_queued powered space]
    exact ⟨rfl, rfl, rfl⟩
  case refused =>
    intro s rec n tag up standby sealed_ keys only no
    refine ⟨_, exec_mitMirrorReceive_keys up standby sealed_ keys only, ?_⟩
    obtain ⟨a, stale⟩ := mirrorCommit_refused (n := n) (seg := 0) (p := some (.keys (mirrorSlots rec) rec.csig)) no
    obtain ⟨loam, nts⟩ := mirrorStale_keeps (bump s a 1)
    rw [stale, loam, nts, bump_loam, bump_nts]
    exact ⟨rfl, rfl, rfl⟩
  case defaults =>
    refine applyCfg_defaults ?_
    rw [mirrorsReg, theirs, decide_eq_true masked, decide_eq_true here]
    rfl
  case acked =>
    intro s sid n e found calm
    obtain ⟨off, slots, -, -, stale⟩ := mirrorAcked_keeps s n e
    exact ⟨_, (exec_mitMirrorAck found).trans (congrArg _ (if_neg calm)), off, slots, stale⟩
  case switches =>
    intro s sid n e found phase waited none_
    obtain ⟨-, -, committed, held, -⟩ := mirrorAcked_keeps s n e
    have switched := takeCommitted_switched (mirrorAcked s n e)
    refine ⟨_, (exec_mitMirrorAck found).trans (congrArg _ (if_pos ⟨phase, waited⟩)), ?_⟩
    rw [ended_of_none_held (switched.held.trans (held.trans none_))]
    exact ⟨switched.idle, switched.slots.trans committed⟩
  case unknown =>
    have match_ : exec (.mitMirrorAck sid n) s = .next (match ackedRec s sid n with
        | none => s
        | some e => if s.nts.phase = .mirror ∧ n = s.nts.waitSerial then ended (takeCommitted (mirrorAcked s n e))
          else mirrorAcked s n e) := rfl
    rw [match_, show ackedRec s sid n = none from none_]

end Sys2Proof.Machine
end
